-- ==== Sys2Proof/Word.lean ====
section
/-! DEFINITION. The widths of the machine's words (R3, R58), and the small enumerations that commands carry. -/

namespace Sys2Proof

/-- One byte of memory. -/
abbrev Byte := BitVec 8

/-- A register of the register space, a plain Sextant register or an instruction word. -/
abbrev Word := BitVec 32

/-- A coded signal word (R58), or any 64-bit unit of image SRAM (R8). -/
abbrev Csw := BitVec 64

/-- A 21-bit signal ID or local tag (R54, R105). -/
abbrev SigId := BitVec 21

/-- The masters that write registers (R21, R22). -/
inductive Master where
  | pcie
  | spi
deriving DecidableEq, Repr

/-- What a PCIe request addresses (R24): the register space; `n` bytes of the Logbook window; the MSI-X table and pending-bit array. -/
inductive Space where
  | bar0
  | bar2 (n : Fin 513)
  | bar4
deriving DecidableEq, Repr

/-- What a PCIe request addresses, with the index of the word, or of the byte in BAR2. -/
structure BarAddr where
  sp : Space
  i : BitVec 26
deriving DecidableEq, Repr

/-- Where a debug request comes from: a write of DBG_CTRL by a master, or the IEEE 1149.1 port on J5; and what the Collimator finds at
it (R167, R194): 0 the samples agree, 1 or 2 resamples, 3 a divergence. -/
structure DbgAsk where
  m : Master
  j5 : Bool
  coll : Fin 4
deriving DecidableEq, Repr

/-- The release of a trim button: that of SPAN or of ZERO, and whether a register command of the channel is written in the same cycle
(R310). -/
structure TrimPress where
  span : Bool
  same : Bool
deriving DecidableEq, Repr

/-- The outcome of reading a word of a memory with ECC, as a scrub or another reader meets it (R551). -/
inductive EccFind where
  | clean
  | corrected
  | uncorrectable
deriving DecidableEq, Repr

/-- What the two comparators of a terminal show at one sample, where its level lies between on and off and their hysteresis decides,
or where a comparator or reference has `failed` (R257, R258). -/
structure Comp where
  one : Bool
  two : Bool
  failed : Bool
deriving DecidableEq, Repr

/-- Quality of a coded signal (R65). -/
inductive Qual where
  | good | subst | stale | fault | unknown | forced | init
deriving DecidableEq, Repr

/-- What the outside of a load contributes: how many Collimator comparisons differed (R168), what the map walk's reads of its
descriptor and of its level-1 entry found (R149) and the read of the stored word (R551), and whether the cache entry's parity
failed (R153). -/
structure LoadEnv where
  coll : Fin 4
  ecc : EccFind
  parity : Bool
  l1 : EccFind
  word : EccFind
deriving DecidableEq, Repr

/-- How a frame or control block came over a port's lanes: whether its tag verifies under the slot it names (R373); the codewords FEC
corrected, and those it could not correct (R345); symbol errors before FEC on the port's first and second lane (R377). -/
structure RxLine where
  tagOk : Bool
  corr : Nat
  bad : Nat
  sym0 : Nat
  sym1 : Nat
deriving DecidableEq, Repr

/-- What the terminals of a channel show at a sample: FA in 10 mV; the currents of FA and FB in 10 µA, signed; the FB supply
limiter active (R282); a mis-wiring of R285 found at FB. -/
structure Terminal where
  vFA : BitVec 16
  iFA : BitVec 24
  iFB : BitVec 24
  limit : Bool
  miswired : Bool
deriving DecidableEq, Repr

/-- What the two converters give for one input: the register values, and the quantity measured, signed: 1 µV, 1 nA, 1 mΩ or
0.1 µV; the compensation or sense loop in mΩ; the voltage under the burnout test current in 1 µV (R302 to R304). -/
structure Conv where
  main : BitVec 24
  sar : BitVec 16
  q : BitVec 32
  qs : BitVec 32
  lead : BitVec 32
  burn : BitVec 32
deriving DecidableEq, Repr

/-- A rising edge at a speed unit: of CH_IDX or of CH_A; how long the new level has held, 0.1 µs, saturating (R281); the level of CH_B;
an edge of B in the same tick; the unit takes the edge from its queue only later (R235, R242). -/
structure EdgeIn where
  idx : Bool
  held : BitVec 16
  b : Bool
  bad : Bool
  later : Bool
deriving DecidableEq, Repr

/-- An XFER descriptor as the host posted it: bytes 0–23 (R48). -/
structure Desc where
  ctrl : BitVec 32
  len : BitVec 32
  src : BitVec 32
  zero : BitVec 32
  dst : BitVec 64
deriving DecidableEq, Repr

/-- A received IEEE 1588 message by its kind (R394). Times are nanoseconds of PTP time; `sub` is the nanosecond of its hardware timestamp
within the tick. An announce message comes with the port state that the standard's best master clock algorithm gives (R398). -/
inductive PtpKind where
  | announce (state : Fin 5)
  /-- Sync: of a one-step master with t1 -/
  | sync (sub : Fin 10) (t1 : Option (BitVec 80))
  /-- Follow_Up of a two-step master: t1 -/
  | followUp (t1 : BitVec 80)
  | delayReq (sub : Fin 10)
  /-- Delay_Resp: t4 -/
  | delayResp (t4 : BitVec 80)
  /-- a message R394 excludes -/
  | unsupported
deriving DecidableEq, Repr

/-- A received IEEE 1588 message: over UDP or straight over Ethernet, and its kind. -/
structure PtpMsg where
  udp : Bool
  kind : PtpKind
deriving DecidableEq, Repr

/-- How the spill's write of a record ends: written; flash fails; the record's Logbook SRAM holds an uncorrectable error (R486, R492). -/
inductive SpillEnd where
  | written
  | flashFail
  | eccUncorr
deriving DecidableEq, Repr

/-- Why an Ethernet frame is discarded: FCS, want of buffer, a kind R378 does not accept, PCS or symbol errors (R378, R397). -/
inductive EthBad where
  | fcs
  | overflow
  | kind
  | pcs
deriving DecidableEq, Repr

/-- What field self-test finds (R288): banks with their supply voltage, 10 mV; CH_WIRING kinds of step 2; channels whose comparators
disagree; outputs that fail step 3; banks whose Shutter fails step 4. -/
structure FieldFind where
  supply : List (Fin 24 × BitVec 16)
  wiring : List (Fin 192 × Fin 64)
  comp : List (Fin 192)
  rail : List (Fin 192)
  shut : List (Fin 24)
deriving DecidableEq, Repr

/-- What a start-up finds (R401): the straps; OTP words with a bit that reads differently between the thresholds and copies that cannot
be read at all, each with its copy, words corrected for a single-bit error, and the smallest read margin (R405); the boot counter
could be written (R420); a step of 2 to 4 that fails or is late (R402); the results of logic BIST and memory BIST; the pairs whose loose
signatures differ in SELFTEST (R193); what field self-test finds; the time to local readiness in 0.1 ms. -/
structure StartEnv where
  straps : BitVec 12
  weak : List (Fin 28 × Bool)
  lost : List (Fin 28 × Bool)
  corr : List (Fin 28)
  margin : BitVec 10
  counted : Bool
  fails : Option (Fin 3)
  logic : Bool
  memory : Bool
  sig : List (Fin 4)
  field : FieldFind
  time : Fin 4001
deriving DecidableEq, Repr

/-- What the outside contributes to a register write that is a command: flash or the OTP takes what it writes, a BIST passes;
how the burn of the lifecycle word fails (R406); what the start-up, or the field check of a wake, that follows finds; bits hardware sets in
the same cycle (R37); the rail, falling and on-resistance findings of CLR_LATCH of a bank; how many Collimator comparisons of a debug
request differed (R168). -/
structure WriteEnv where
  ok : Bool
  fails : Fin 3
  start : StartEnv
  hw : BitVec 32
  rail : BitVec 16
  fall : BitVec 16
  ron : BitVec 16
  coll : Fin 4
deriving DecidableEq, Repr

end Sys2Proof
end

