-- ==== Sys2Proof/Syntax.lean ====
section
/-! DEFINITION. The commands of the block: one constructor per row of spec/opcode_table.json, with what the command carries
from outside (the master, the unit, register operands, what a sample or a received frame shows). -/

namespace Sys2Proof

/-- A command. -/
inductive Instr where
  /-- VLOG_VALID: VLOG becomes valid and the device runs the start-up sequence from POR release to local readiness (R401) -/
  | vlogValid (dt : BitVec 32) (env : StartEnv)
  /-- STARTUP_RETRY: After a failed or late start-up step 2 to 4 the device restarts at step 2 once 100 ms have passed (R402) -/
  | startupRetry (env : StartEnv)
  /-- VLOG_LOST: VLOG falls below 9.6 V for 10 us, POR is asserted and the device goes to BOOT with outputs off (R510) -/
  | vlogLost
  /-- NRESET_ASSERT: nRESET or nRESET_AUX is asserted and the device enters BOOT with every Shutter open (R403) -/
  | nresetAssert
  /-- NRESET_RELEASE: nRESET is released and start-up resumes at step 2 of the power-up sequence (R403) -/
  | nresetRelease (env : StartEnv)
  /-- PLL_LOCK_LOSS: The root PLL loses lock, a HALT-class critical source that drives the safe state through the Shutter path (R14) -/
  | pllLockLoss
  /-- SUPERFRAME_BOUNDARY: A superframe boundary falls and the device writes status signals, channel, speed and forced words and applies pending partition commands (R86) -/
  | superframeBoundary
  /-- PART_CMD_APPLY: An accepted partition command is applied at the superframe boundary, or discarded as SUPERSEDED (R430) -/
  | partCmdApply (p : Fin 16)
  /-- MAJOR_FRAME_BOUNDARY: At a major-frame boundary the device switches commits, changes grade, applies swaps, flushes caches and applies split or rejoin (R96) -/
  | majorFrameBoundary
  /-- SLOT_START: A schedule entry reaches its START tick and the pair loads the partition context and begins the slot, or skips it (R90) -/
  | slotStart (n : Fin 4) (e : Fin 64) (ecc : EccFind)
  /-- SLOT_OVERRUN: The cycle counter reaches BUDGET before END, the slot is cut, stores discarded and the trap reaction follows (R92) -/
  | slotOverrun (u : Fin 8)
  /-- ILLEGAL_OPCODE: An illegal instruction word or a fetch outside the program window takes one cycle and traps (R552) -/
  | illegalOpcode (u : Fin 8)
  /-- LDS: Load an import entry through the signal map, checking code, age and quality, into a coded register (R114) -/
  | lds (u : Fin 8) (d : Fin 32) (e : BitVec 12) (env : LoadEnv)
  /-- LDS_X: Load an import entry indexed by a plain register plus an offset (R113) -/
  | ldsX (u : Fin 8) (d : Fin 32) (a : Fin 16) (e : BitVec 12) (env : LoadEnv)
  /-- STS: Store a coded register through an export entry, staged until END (R116) -/
  | sts (u : Fin 8) (a : Fin 32) (x : BitVec 9)
  /-- LDV: Load a retained variable into a coded register (R117) -/
  | ldv (u : Fin 8) (d : Fin 32) (k : BitVec 10)
  /-- STV: Stage a coded register as a retained variable until END (R117) -/
  | stv (u : Fin 8) (a : Fin 32) (k : BitVec 10)
  /-- CADD: Coded add with wrap or saturation mode (R118) -/
  | cadd (u : Fin 8) (d a b : Fin 32) (m : BitVec 2)
  /-- CSUB: Coded subtract with wrap or saturation mode (R118) -/
  | csub (u : Fin 8) (d a b : Fin 32) (m : BitVec 2)
  /-- CMULK: Coded multiply by a plain constant (R118) -/
  | cmulk (u : Fin 8) (d a : Fin 32) (k : BitVec 8) (m : BitVec 2)
  /-- CCMP: Coded comparison yielding coded 1 or 0 (R118) -/
  | ccmp (u : Fin 8) (d a b : Fin 32) (cc : BitVec 3)
  /-- CMIN: Coded minimum of two operands (R118) -/
  | cmin (u : Fin 8) (d a b : Fin 32) (m : Bool)
  /-- CMAX: Coded maximum of two operands (R118) -/
  | cmax (u : Fin 8) (d a b : Fin 32) (m : Bool)
  /-- CLIM: Coded clamp of an operand to a range (R118) -/
  | clim (u : Fin 8) (d a b c : Fin 32) (m : Bool)
  /-- CMOV: Coded move between registers (R118) -/
  | cmov (u : Fin 8) (d a : Fin 32)
  /-- CAND: Coded logical AND (R118) -/
  | cand (u : Fin 8) (d a b : Fin 32)
  /-- COR: Coded logical OR (R118) -/
  | cor (u : Fin 8) (d a b : Fin 32)
  /-- CNOT: Coded logical NOT (R118) -/
  | cnot (u : Fin 8) (d a : Fin 32)
  /-- CSEL: Coded selection by a coded selector (R119) -/
  | csel (u : Fin 8) (d a b c : Fin 32)
  /-- CBIT: Coded extraction of one bit of an operand (R118) -/
  | cbit (u : Fin 8) (d a : Fin 32) (n : BitVec 4)
  /-- CXOR: Coded logical exclusive OR (R118) -/
  | cxor (u : Fin 8) (d a b : Fin 32)
  /-- CABS: Coded signed absolute value (R118) -/
  | cabs (u : Fin 8) (d a : Fin 32)
  /-- CCLR: Set a coded register to v = 0, QUAL GOOD (R119) -/
  | cclr (u : Fin 8) (d : Fin 32)
  /-- CTON: Coded on-delay timer against the slot time, record update staged (R120) -/
  | cton (u : Fin 8) (d a : Fin 32) (t : BitVec 8)
  /-- CTOF: Coded off-delay timer against the slot time (R120) -/
  | ctof (u : Fin 8) (d a : Fin 32) (t : BitVec 8)
  /-- CTP: Coded pulse timer against the slot time (R120) -/
  | ctp (u : Fin 8) (d a : Fin 32) (t : BitVec 8)
  /-- FB_ESTOP: Invoke the ESTOP block on a contact pair and reset (R209) -/
  | fbEstop (u : Fin 8) (d a : Fin 32) (i : BitVec 10) (bad : Bool)
  /-- FB_PULLWIRE: Invoke the PULLWIRE block with tension supervision (R214) -/
  | fbPullwire (u : Fin 8) (d a : Fin 32) (i : BitVec 10) (bad : Bool)
  /-- FB_GUARD: Invoke the GUARD block on a door contact pair (R209) -/
  | fbGuard (u : Fin 8) (d a : Fin 32) (i : BitVec 10) (bad : Bool)
  /-- FB_GLOCK: Invoke the guard-locking block (R216) -/
  | fbGlock (u : Fin 8) (d a : Fin 32) (i : BitVec 10) (bad : Bool)
  /-- FB_LCURT: Invoke the light-curtain block with test-pulse tolerance and muting (R215) -/
  | fbLcurt (u : Fin 8) (d a : Fin 32) (i : BitVec 10) (bad : Bool)
  /-- FB_MUTE: Invoke the muting sequencer block (R217) -/
  | fbMute (u : Fin 8) (d a : Fin 32) (i : BitVec 10) (bad : Bool)
  /-- FB_ENABLE: Invoke the enabling-device block (R218) -/
  | fbEnable (u : Fin 8) (d a : Fin 32) (i : BitVec 10) (bad : Bool)
  /-- FB_MODESEL: Invoke the mode-selector block (R218) -/
  | fbModesel (u : Fin 8) (d a : Fin 32) (i : BitVec 10) (bad : Bool)
  /-- FB_TWOHAND: Invoke the two-hand control block (R218) -/
  | fbTwohand (u : Fin 8) (d a : Fin 32) (i : BitVec 10) (bad : Bool)
  /-- FB_RESET: Invoke the monitored reset-pulse block (R219) -/
  | fbReset (u : Fin 8) (d a : Fin 32) (i : BitVec 10) (bad : Bool)
  /-- FB_EDM: Invoke the external device monitoring block (R219) -/
  | fbEdm (u : Fin 8) (d a : Fin 32) (i : BitVec 10) (bad : Bool)
  /-- FB_SPEED: Invoke the speed supervision block (R220) -/
  | fbSpeed (u : Fin 8) (d a : Fin 32) (i : BitVec 10) (bad : Bool)
  /-- FB_FAN: Invoke the fan start and run supervision block (R221) -/
  | fbFan (u : Fin 8) (d a : Fin 32) (i : BitVec 10) (bad : Bool)
  /-- FB_ZONE: Invoke the bin entry zone block tied to a vigil signal (R222) -/
  | fbZone (u : Fin 8) (d a : Fin 32) (i : BitVec 10) (bad : Bool)
  /-- FB_AILIM: Invoke the analogue limit block (R223) -/
  | fbAilim (u : Fin 8) (d a : Fin 32) (i : BitVec 10) (bad : Bool)
  /-- FB_SEQ: Invoke the proving start sequence block (R219) -/
  | fbSeq (u : Fin 8) (d a : Fin 32) (i : BitVec 10) (bad : Bool)
  /-- FB_SOUT: Invoke the safe output block with stop category 0 or 1 (R224) -/
  | fbSout (u : Fin 8) (d a : Fin 32) (i : BitVec 10) (bad : Bool)
  /-- FB_GROUP: Invoke the distributed output group block, publishing state and writing arm times (R227) -/
  | fbGroup (u : Fin 8) (d a : Fin 32) (i : BitVec 10) (bad early : Bool)
  /-- BR: Unconditional forward branch (R124) -/
  | br (u : Fin 8) (o : BitVec 16)
  /-- BCC: Conditional forward branch on plain registers (R124) -/
  | bcc (u : Fin 8) (cc : BitVec 5) (a b : Fin 16) (o : BitVec 12)
  /-- LOOP: Repeat the following body a bounded number of times (R125) -/
  | loop (u : Fin 8) (a : Fin 16) (n l : BitVec 8)
  /-- END: End the slot: after comparison, checkpoint to Ephemeris and make staged stores visible together (R165) -/
  | endSlot (u : Fin 8) (f : Bool) (sigMain sigChk : BitVec 64)
  /-- NOP: No operation (R113) -/
  | nop (u : Fin 8)
  /-- ADD: Plain add (R127) -/
  | add (u : Fin 8) (d a b : Fin 16)
  /-- SUB: Plain subtract (R127) -/
  | sub (u : Fin 8) (d a b : Fin 16)
  /-- AND: Plain bitwise AND (R127) -/
  | and (u : Fin 8) (d a b : Fin 16)
  /-- OR: Plain bitwise OR (R127) -/
  | or (u : Fin 8) (d a b : Fin 16)
  /-- XOR: Plain bitwise XOR (R127) -/
  | xor (u : Fin 8) (d a b : Fin 16)
  /-- SLL: Plain shift left logical (R127) -/
  | sll (u : Fin 8) (d a b : Fin 16)
  /-- SRL: Plain shift right logical (R127) -/
  | srl (u : Fin 8) (d a b : Fin 16)
  /-- SRA: Plain shift right arithmetic (R127) -/
  | sra (u : Fin 8) (d a b : Fin 16)
  /-- MUL: Plain multiply, low 32 bits (R127) -/
  | mul (u : Fin 8) (d a b : Fin 16)
  /-- ADDI: Plain add of a sign-extended immediate (R127) -/
  | addi (u : Fin 8) (d a : Fin 16) (imm : BitVec 16)
  /-- ANDI: Plain AND with a zero-extended immediate (R127) -/
  | andi (u : Fin 8) (d a : Fin 16) (imm : BitVec 16)
  /-- ORI: Plain OR with a zero-extended immediate (R127) -/
  | ori (u : Fin 8) (d a : Fin 16) (imm : BitVec 16)
  /-- MOVI: Load a zero-extended immediate (R127) -/
  | movi (u : Fin 8) (d : Fin 16) (imm : BitVec 16)
  /-- MOVHI: Load the upper 16 bits of a plain register (R127) -/
  | movhi (u : Fin 8) (d : Fin 16) (imm : BitVec 16)
  /-- MFS: Read a system value into a plain register (R128) -/
  | mfs (u : Fin 8) (d : Fin 16) (sel : BitVec 3)
  /-- SLT: Plain signed set-less-than (R127) -/
  | slt (u : Fin 8) (d a b : Fin 16)
  /-- MAPINV: Invalidate the pair's cached translation of an import entry (R129) -/
  | mapinv (u : Fin 8) (e : BitVec 12)
  /-- FENCE: Wait for earlier MAPINV and ST.PGM to take effect (R129) -/
  | fence (u : Fin 8)
  /-- SWAP: Request a bank swap latched at END (R140) -/
  | swap (u : Fin 8)
  /-- ST_PGM: Write a program word into the partition's inactive bank (R136) -/
  | stPgm (u : Fin 8) (d a : Fin 16) (imm : BitVec 16)
  /-- TRAP: Raise a partition fault source and trap at once (R130) -/
  | trap (u : Fin 8) (k : BitVec 2)
  /-- RAISE: Raise a partition fault source at END without trapping (R130) -/
  | raise (u : Fin 8) (a : Fin 16) (k : BitVec 2)
  /-- LOCKSTEP_MISMATCH: The comparator detects a difference and the pair blocks, resets, restores and re-executes the slot (R175) -/
  | lockstepMismatch (n : Fin 4) (site : Fin 8) (ecc : EccFind)
  /-- PGM_SCRUB: The scrubber reads program SRAM words, corrects or rewrites them from the partner core (R83) -/
  | pgmScrub (n : Fin 4) (bank : Bool) (i : BitVec 17) (main chk : EccFind)
  /-- MAP_SCRUB: The map regions are scrubbed and uncorrectable words are reported once (R152) -/
  | mapScrub (i : BitVec 18) (ecc : EccFind)
  /-- EPH_SCRUB: Ephemeris is scrubbed and uncorrectable words are reported once (R174) -/
  | ephScrub (i : BitVec 19) (ecc : EccFind)
  /-- STALENESS_SWEEP: The sweep visits written slots and rewrites those unwritten for 8,192 superframes as STALE (R71) -/
  | stalenessSweep (i : Fin 17920)
  /-- MAP_DE_WRITE: A live edit writes one STANDARD descriptor, with optional invalidation of all caches (R155) -/
  | mapDeWrite (m : Master) (inv : Bool)
  /-- MAP_DE_READ: Read the stored descriptor of DE_ID into DE_LO and DE_HI (R159) -/
  | mapDeRead (m : Master)
  /-- MAP_DE_RESERVED_OP: A DE_CMD with OP 0 or 3 touches no descriptor and reports field error (R159) -/
  | mapDeReservedOp (m : Master) (three : Bool)
  /-- MAP_CQ_QUERY: A CQ_ID write makes all four pair cache query results update within 1 us (R159) -/
  | mapCqQuery (m : Master) (v : BitVec 32)
  /-- MAP_INV_ALL: Drop every entry of all four map caches (R159) -/
  | mapInvAll (m : Master)
  /-- MIRROR_FRAME_RECEIVE: A mirror fragment arrives and, when the set is whole and checks, the set is applied to the mirror partition (R183) -/
  | mirrorFrameReceive (p : Fin 8) (bs : List Byte) (ln : RxLine)
  /-- MIRROR_RESYNC: After a gap the owner resends the whole window and record in the mirror class (R183) -/
  | mirrorResync (p : Fin 16)
  /-- PAIR_SPLIT_REQ: An ADMIN request to split a pair at the next boundary, or its refusal (R185) -/
  | pairSplitReq (m : Master) (n : Fin 4)
  /-- PAIR_REJOIN_REQ: An ADMIN request to rejoin a split pair, or its refusal (R185) -/
  | pairRejoinReq (m : Master) (n : Fin 4)
  /-- REJOIN_LOAD_DONE: The copy of program SRAM to the checker core completes and verification begins (R187) -/
  | rejoinLoadDone (n : Fin 4)
  /-- DBG_ENABLE: Enabling debug breaks lockstep on PAIR_1..3 or starts replay debug on PAIR_0 (R189) -/
  | dbgEnable (m : Master) (n : Fin 4)
  /-- DBG_DISABLE: Clearing DBG_EN starts the rejoin sequence at the next boundary (R189) -/
  | dbgDisable (m : Master) (n : Fin 4)
  /-- DBG_HALT: Halt the pair under debug, freezing timers with DBG_FREEZE (R194) -/
  | dbgHalt (q : DbgAsk) (n : Fin 4)
  /-- DBG_STEP: Step the halted pair by one instruction (R194) -/
  | dbgStep (q : DbgAsk) (n : Fin 4)
  /-- DBG_RESUME: Resume a halted pair (R194) -/
  | dbgResume (q : DbgAsk) (n : Fin 4)
  /-- BREAKPOINT_HIT: An enabled breakpoint is reached and the pair halts or records a trace (R194) -/
  | breakpointHit (n : Fin 4) (i : Fin 4)
  /-- DBG_REG_WRITE: A debugger writes 64 raw bits into a selected register while halted (R192) -/
  | dbgRegWrite (m : Master) (n : Fin 4) (v : BitVec 64)
  /-- FN_RESET_CMD: An authenticated FN_RESET command is held for the named instance's next invocation (R207) -/
  | fnResetCmd (m : Master) (p : Fin 16) (i : BitVec 10)
  /-- FN_RESET_EXPIRE: An FN_RESET not taken within 1 s is discarded (R207) -/
  | fnResetExpire (p : Fin 16) (i : BitVec 10)
  /-- SPEED_EDGE_CAPTURE: A filtered edge enters a speed unit's capture queue with its timestamp and is processed (R235) -/
  | speedEdgeCapture (u : Fin 32) (e : EdgeIn)
  /-- SPEED_STANDSTILL: No edge for T_STAND puts a speed unit into STANDSTILL (R238) -/
  | speedStandstill (u : Fin 32)
  /-- WINDOW_DWELL: No edge for DWELL_MAX aborts an active position window (R245) -/
  | windowDwell (u : Fin 32) (n : Fin 4)
  /-- SPD_CLR_LATCH: Clear the latched fault causes of a speed unit, which enters INIT (R242) -/
  | spdClrLatch (m : Master) (u : Fin 32)
  /-- CHANNEL_SAMPLE: Every 10 us each channel samples its comparators, filters and writes its word on a change (R256) -/
  | channelSample (n : Fin 192) (k : Comp) (x : Terminal)
  /-- TEST_PULSE_START: A TP channel drives FA low at its code offset in the test frame (R260) -/
  | testPulseStart (n : Fin 192)
  /-- TEST_PULSE_END: A TP channel drives FA high again and checks that the pulse was seen (R261) -/
  | testPulseEnd (n : Fin 192) (v : BitVec 16)
  /-- OUTPUT_READ: Every 10 us an output decodes its bound signal and commands its switch or DAC (R267) -/
  | outputRead (n : Fin 192) (ron : BitVec 16)
  /-- OFF_PULSE_START: Transit switches an output off for its off-pulse in its slot (R273) -/
  | offPulseStart (n : Fin 192) (ron : BitVec 16)
  /-- OFF_PULSE_END: An off-pulse ends and the switch closes again if still permitted (R274) -/
  | offPulseEnd (n : Fin 192) (v : BitVec 16)
  /-- DO_STUCK_HIGH_DETECT: FA stays high 60 us after switch-off, the channel latches a fault and requests the Shutter (R270) -/
  | doStuckHighDetect (n : Fin 192) (v : BitVec 16)
  /-- EXT_FEED_DETECT: FA still high 100 us after the Shutter request changes the kind to EXT_FEED (R270) -/
  | extFeedDetect (n : Fin 192) (v : BitVec 16)
  /-- DO_OVERLOAD_DETECT: An on output reads low, overcurrent or limit for its time, switches off and enters restart hold (R270) -/
  | doOverloadDetect (n : Fin 192) (why : Fin 3) (ron : BitVec 16)
  /-- OPEN_LOAD_DETECT: Current below 5 mA for 100 ms raises OPEN_LOAD (R270) -/
  | openLoadDetect (n : Fin 192)
  /-- PAR_SHARE_DETECT: Unequal sharing in a paralleled pair for 100 ms raises PAR_SHARE (R269) -/
  | parShareDetect (n : Fin 192)
  /-- DI_COMP_TIMEOUT: The two comparators disagree for 10 ms and the channel writes FAULT (R258) -/
  | diCompTimeout (n : Fin 192)
  /-- CHANNEL_FAULT_CLEAR: A channel wiring or function fault clears after its healthy time (R283) -/
  | channelFaultClear (n : Fin 192) (func : Bool) (k : Fin 32)
  /-- CH_CLR_LATCH: Clear a channel's latched DO_STUCK_HIGH, EXT_FEED or AO_READBACK if the condition is gone (R293) -/
  | chClrLatch (m : Master) (n : Fin 192)
  /-- SHUTTER_TEST_START: Transit opens the bank Shutter for 300 us in slot 9 and checks the rail falls (R280) -/
  | shutterTestStart (b : Fin 24) (rail fall ron : BitVec 16)
  /-- SHUTTER_TEST_END: The 300 us Shutter test ends and the Shutter closes if no request is present (R280) -/
  | shutterTestEnd (b : Fin 24)
  /-- SHUTTER_CLOSE: With no request left and every switch off, the Shutter closes and the rail must rise within 2 ms (R279) -/
  | shutterClose (b : Fin 24) (supply rail : BitVec 16)
  /-- SHUTTER_CLOSE_FAIL: The rail does not rise within 2 ms, the Shutter opens and is retried after 1 s (R279) -/
  | shutterCloseFail (b : Fin 24)
  /-- BANK_CLR_LATCH: Release a stuck-closed hold and run a Shutter test at once (R280) -/
  | bankClrLatch (m : Master) (b : Fin 24) (rail fall ron : BitVec 16)
  /-- BANK_SHUT_TEST: Run one Shutter test at the next slot 9 (R294) -/
  | bankShutTest (m : Master) (b : Fin 24)
  /-- BANK_SUPPLY_FAULT: The bank supply is out of range for 1 ms, the Shutter opens and channels fault (R286) -/
  | bankSupplyFault (b : Fin 24) (v : BitVec 16)
  /-- BANK_SUPPLY_CLEAR: The bank supply is in range for 100 ms and the supply fault clears (R286) -/
  | bankSupplyClear (b : Fin 24) (v : BitVec 16)
  /-- GROUP_CURRENT: Group current above 10 A for 100 ms raises GROUP_CURRENT (R287) -/
  | groupCurrent (g : Fin 4) (i : BitVec 16)
  /-- FIELD_LINK_LOSS: The isolated link refresh is missing for 20 us and the field side opens its switches (R511) -/
  | fieldLinkLoss (g : Fin 4)
  /-- ANALOG_SEQ_START: A bank conversion sequence starts with its reference check (R299) -/
  | analogSeqStart (b : Fin 24) (drift : BitVec 16) (mainOk sarOk : Bool)
  /-- ANALOG_SLOT_END: An input slot ends, readings are cross-checked, trimmed, banded and written (R300) -/
  | analogSlotEnd (b : Fin 24) (c : Conv)
  /-- AO_READBACK_MEASURE: Every 100 us the SAR measures an analogue output and compares it with the command (R307) -/
  | aoReadbackMeasure (n : Fin 192) (v : BitVec 16) (compliance limit : Bool)
  /-- LOOP_SUPPLY_RETRY: A folded-back loop supply retries at full limit once every second (R315) -/
  | loopSupplyRetry (n : Fin 192) (held : Bool)
  /-- TRIM_ZERO: A zero trim command sets OFF and Z from a reference (R309) -/
  | trimZero (m : Master) (n : Fin 192) (ref : BitVec 16)
  /-- TRIM_SPAN: A span trim command sets G from a reference (R309) -/
  | trimSpan (m : Master) (n : Fin 192) (ref : BitVec 16)
  /-- TRIM_CLEAR: Clear the trim of an analogue input (R309) -/
  | trimClear (m : Master) (n : Fin 192)
  /-- TRIM_BUTTON: Release of a ZERO or SPAN button channel after a 2-10 s press requests a trim (R310) -/
  | trimButton (n : Fin 192) (press : TrimPress)
  /-- MERIDIAN_ADJUST: A single-tick slip or gain corrects Meridian at an adjustment cycle (R323) -/
  | meridianAdjust
  /-- MER_DUP_MISMATCH: The two Meridian copies differ, a HALT-class fault (R319) -/
  | merDupMismatch (d : BitVec 64)
  /-- SYNC_LOSS_TIMEOUT: No sync for 4 superframes puts MER into HOLDOVER (R322) -/
  | syncLossTimeout
  /-- OFFSET_HIGH_TIMEOUT: Offset above SYNC_LIM for 1 ms in LOCKED raises MER_OFFSET_HIGH (R322) -/
  | offsetHighTimeout
  /-- TIMER_MATCH: A timer reaches CMP, sets MATCH, issues its trigger and reloads or holds by mode (R330) -/
  | timerMatch (t : Fin 48)
  /-- TIMER_OVERFLOW: A timer passes 0xFFFF_FFFF, sets OVF, triggers and advances its chained successor (R330) -/
  | timerOverflow (t : Fin 48)
  /-- TIMER_ARM: Arm a timer, loading PHASE and starting at its alignment (R331) -/
  | timerArm (m : Master) (t : Fin 48)
  /-- TIMER_STOP: Stop a timer (R336) -/
  | timerStop (m : Master) (t : Fin 48)
  /-- TIMER_POP: Remove the oldest entry of a timer's capture queue (R333) -/
  | timerPop (m : Master) (t : Fin 48)
  /-- TIMER_CAPTURE: Take a capture by command into the timer's queue (R333) -/
  | timerCapture (m : Master) (t : Fin 48)
  /-- TIMER_CNT_SET: Write a timer counter, with its overflow and match races (R336) -/
  | timerCntSet (m : Master) (t : Fin 48) (v : BitVec 32)
  /-- PORT_ENABLE: A port enabled in a permitting mode leaves DISABLED and sends the training pattern (R346) -/
  | portEnable (p : Fin 8)
  /-- LINK_SIGNAL_DETECT: Signal present on every lane for 100 us moves the port to TRAIN (R346) -/
  | linkSignalDetect (p : Fin 8)
  /-- LINK_TRAINED: CDR lock and equaliser convergence move the port to ALIGN (R346) -/
  | linkTrained (p : Fin 8) (h0 h1 : BitVec 8) (w0 w1 : BitVec 10)
  /-- LINK_ALIGNED: FEC and marker lock with deskew move the port to CHECK (R346) -/
  | linkAligned (p : Fin 8)
  /-- TRAIN_FAIL: TRAIN or ALIGN times out and the port returns to DETECT (R346) -/
  | trainFail (p : Fin 8)
  /-- TRAIN_RETRY: A new training attempt starts 100 ms after a failure (R346) -/
  | trainRetry (p : Fin 8)
  /-- HELLO_RECEIVE: A HELLO block is checked and three passing ones bring the port UP, or one failing isolates it (R352) -/
  | helloReceive (p : Fin 8) (bs : List Byte) (ln : RxLine)
  /-- HELLO_TIMEOUT: Three passing HELLOs do not arrive within 100 us and the port is isolated (R352) -/
  | helloTimeout (p : Fin 8)
  /-- LINK_DOWN_DETECT: No block for 2 us or 4 uncorrectable codewords take the port out of UP and a LINK_NOTICE is sent (R346) -/
  | linkDownDetect (p : Fin 8) (fec : Bool)
  /-- PORT_RETRAIN: Command an ISOLATED port back to DETECT (R376) -/
  | portRetrain (m : Master) (p : Fin 8)
  /-- HEARTBEAT_RECEIVE: A HEARTBEAT control block is received and counts for link supervision (R351) -/
  | heartbeatReceive (p : Fin 8) (bs : List Byte) (ln : RxLine)
  /-- LINK_NOTICE_RECEIVE: A LINK_NOTICE is received, forwarded and may reveal loss of a buddy's owner (R359) -/
  | linkNoticeReceive (p : Fin 8) (bs : List Byte) (ln : RxLine)
  /-- TOKEN_RECEIVE: A TOKEN control block is received and token precedence is applied (R368) -/
  | tokenReceive (p : Fin 8) (bs : List Byte) (ln : RxLine)
  /-- IMAGE_WINDOW_START: At its window start the member sends its IMAGE frame eastbound and westbound on each plane (R355) -/
  | imageWindowStart (spine : Bool)
  /-- IMAGE_FRAME_RECEIVE: An IMAGE frame is checked, forwarded cut-through and its copies are held for comparison (R358) -/
  | imageFrameReceive (p : Fin 8) (bs : List Byte) (ln : RxLine)
  /-- SPINE_FRAME_RECEIVE: A SPINE frame is received, checked and forwarded (R362) -/
  | spineFrameReceive (p : Fin 8) (bs : List Byte) (ln : RxLine)
  /-- WRITE_DEADLINE: At an origin's deadline the receiver compares plane copies and writes receive slots (R358) -/
  | writeDeadline (spine : Bool) (k : Fin 32)
  /-- IMAGE_CLASS_END: At the end of the image class views and quorum are evaluated, the master elected and ownership suspended or resumed (R366) -/
  | imageClassEnd (spine : Bool)
  /-- PLANE_LOSS: A plane unusable for 4 superframes raises its loss and, if all are lost, HAREBELL (R360) -/
  | planeLoss (pl : Fin 2)
  /-- RING_UNFORMED: The ring has not formed 800 ms after SYNC (R367) -/
  | ringUnformed
  /-- SPINE_UNFORMED: A bridge's spine has not formed within 1.5 s (R367) -/
  | spineUnformed
  /-- SYNC_FRAME_RECEIVE: A SYNC frame yields a delay and offset sample passed to MER (R353) -/
  | syncFrameReceive (p : Fin 8) (bs : List Byte) (ln : RxLine) (frac : Fin 64)
  /-- MIRROR_CLASS_START: The Ephemeris mirror class starts and mirror frames go to the buddy (R354) -/
  | mirrorClassStart
  /-- EVENTS_CLASS_START: The events and bulk class starts and EVENT then BULK frames are sent (R354) -/
  | eventsClassStart
  /-- EVENT_FRAME_RECEIVE: An EVENT frame addressed here is stored in the collect ring (R487) -/
  | eventFrameReceive (p : Fin 8) (bs : List Byte) (ln : RxLine)
  /-- ALM_REQ_RECEIVE: A buddy answers an ALM_REQ with ALM_DATA fragments (R447) -/
  | almReqReceive (p : Fin 8) (bs : List Byte) (ln : RxLine)
  /-- ALM_DATA_RECEIVE: An Almanac fragment is applied by offset (R447) -/
  | almDataReceive (p : Fin 8) (bs : List Byte) (ln : RxLine)
  /-- VOTE_RECEIVE: The coordinator collects a member's set vote (R445) -/
  | voteReceive (p : Fin 8) (bs : List Byte) (ln : RxLine)
  /-- COMMIT_MSG_RECEIVE: A member receives COMMIT with the switch time T (R445) -/
  | commitMsgReceive (p : Fin 8) (bs : List Byte) (ln : RxLine)
  /-- ABORT_RECEIVE: A member receives ABORT and discards its staged image (R446) -/
  | abortReceive (p : Fin 8) (bs : List Byte) (ln : RxLine)
  /-- ALM_REQ_SEND: A device without an image sends ALM_REQ to its buddy every 16 ms (R447) -/
  | almReqSend
  /-- TOKEN_HANDBACK: ADMIN requests return of a token to the home device at the next boundary (R372) -/
  | tokenHandback (m : Master) (p : Fin 16)
  /-- SAFE_FRAME_SEND: A producer connection sends its PDU copies at TX_OFF of its superframes (R382) -/
  | safeFrameSend (c : Fin 64)
  /-- SAFE_FRAME_RECEIVE: A received PDU is checked, classified and its words written to receive slots (R384) -/
  | safeFrameReceive (k : Fin 2) (udp : Bool) (bs : List Byte)
  /-- CONN_TIMEOUT: A connection's watchdog expires, slots become SUBST and the connection enters TIMEOUT (R387) -/
  | connTimeout (c : Fin 64)
  /-- CONN_RESTART: MAINT or ADMIN restarts a connection in SAFE into WAIT (R389) -/
  | connRestart (m : Master) (c : Fin 64)
  /-- ETH_LINK_CHANGE: An Ethernet link comes up or goes down, held down at a refused speed (R378) -/
  | ethLinkChange (k : Fin 2) (up fast : Bool)
  /-- ARP_REQUEST: An ARP request for the port's own address is answered (R378) -/
  | arpRequest (k : Fin 2) (mac : BitVec 48) (ip target : BitVec 32)
  /-- PTP_MESSAGE: An IEEE 1588 message is received and timestamped (R394) -/
  | ptpMessage (k : Fin 2) (dom : BitVec 7) (msg : PtpMsg)
  /-- PTP_LOSS: No PTP message for 3 s raises PTP_LOSS and MER enters HOLDOVER (R395) -/
  | ptpLoss
  /-- KEY_LOAD: ADMIN loads a key into a slot with epoch, start and retire times (R393) -/
  | keyLoad (m : Master)
  /-- KEY_ERASE: ADMIN erases a key slot (R393) -/
  | keyErase (m : Master)
  /-- KEY_SET_RETIRE: ADMIN sets the retire time of a slot (R392) -/
  | keySetRetire (m : Master)
  /-- KEY_RETIRED: A slot reaches its RETIRE time and its key is erased (R392) -/
  | keyRetired (o : Fin 72) (k : Fin 2)
  /-- HWM_UPDATE: The IV high-water mark in flash is advanced (R391) -/
  | hwmUpdate
  /-- RNG_READY: The RNG start-up tests pass and READY is set (R419) -/
  | rngReady
  /-- RNG_HEALTH: A health-test failure clears READY, discards output and reruns the start-up tests (R421) -/
  | rngHealth
  /-- RNG_RESEED: A DRBG instance is reseeded after 2^20 requests or 1 s (R418) -/
  | rngReseed (host : Bool)
  /-- RNG_DATA_READ: A read of RNG_DATA returns random bits and refills the register (R422) -/
  | rngDataRead (m : Master)
  /-- OTP_BURN: Burn ROOT_HASH, trims or other permitted words of OTP (R409) -/
  | otpBurn (m : Master) (ok : Bool)
  /-- OTP_REBURN: Reburn a weak OTP word into both copies in PROVISIONING (R409) -/
  | otpReburn (m : Master) (ok : Bool)
  /-- LC_ADVANCE: Advance the lifecycle state and burn LC, followed by a start-up (R410) -/
  | lcAdvance (m : Master) (fails : Fin 3) (env : StartEnv)
  /-- SERVICE_RESET: A signed RESET service action restarts the device at step 2 (R408) -/
  | serviceReset (m : Master) (env : StartEnv)
  /-- SERVICE_RETURN: A signed RETURN service action erases keys and images and burns RETURNED (R410) -/
  | serviceReturn (m : Master) (fails : Fin 3) (env : StartEnv)
  /-- MAN_BIST_LOGIC: Run manual logic BIST on one block, leaving the device HALTED (R414) -/
  | manBistLogic (m : Master) (pass : Bool)
  /-- MAN_BIST_MEMORY: Run manual memory BIST on one block, leaving the device HALTED (R414) -/
  | manBistMemory (m : Master) (pass : Bool)
  /-- PROOF_SUBSLICE: A proof-test sub-slice runs on a pair or recode unit in a qualifying gap (R416) -/
  | proofSubslice (u : Fin 6) (pass : Bool)
  /-- PROOF_STARVED: A unit with no passing pass within 24 h raises PROOF_STARVED (R417) -/
  | proofStarved (u : Fin 6)
  /-- PART_START: Command a partition to RUN (R429) -/
  | partStart (m : Master) (p : Fin 16)
  /-- PART_STOP: Command a partition to STOP (R429) -/
  | partStop (m : Master) (p : Fin 16)
  /-- PART_MAINT: Command a partition to MAINTENANCE (R429) -/
  | partMaint (m : Master) (p : Fin 16)
  /-- PART_RESET: Give the deliberate reset that takes a LOCKED_OUT partition to STOP (R429) -/
  | partReset (m : Master) (p : Fin 16)
  /-- FORCE_SET: Set a force on an owned index while the partition is in MAINTENANCE (R432) -/
  | forceSet (m : Master)
  /-- FORCE_CLEAR: Clear one force (R432) -/
  | forceClear (m : Master)
  /-- FORCE_CLEAR_ALL: Clear every force of the partition (R432) -/
  | forceClearAll (m : Master)
  /-- SESSION_NEW_CHAL: Draw a new session challenge from the internal RNG (R434) -/
  | sessionNewChal (m : Master)
  /-- SESSION_OPEN: Open a session if the HMAC response matches, counting failures (R434) -/
  | sessionOpen (m : Master)
  /-- SESSION_CLOSE: Close the master's session (R435) -/
  | sessionClose (m : Master)
  /-- SESSION_TIMEOUT: A session closes after 900 s without a write (R435) -/
  | sessionTimeout (m : Master)
  /-- PW_CHANGE: Store a new password verifier for a role (R436) -/
  | pwChange (m : Master)
  /-- STG_BEGIN: Begin staging an image into the flash copy not in force (R442) -/
  | stgBegin (m : Master)
  /-- STG_DATA_WRITE: A STG_DATA_HI write stages 8 bytes and advances STG_OFF (R442) -/
  | stgDataWrite (m : Master) (v : BitVec 32) (ok : Bool)
  /-- STG_CHECK: Start the check of the staged image (R442) -/
  | stgCheck (m : Master)
  /-- COMMIT_CHECK_DONE: The check completes and STG_RESULT reports pass or the first failing rule (R442) -/
  | commitCheckDone
  /-- STG_COMMIT: Request the switch of a checked image at the next boundary with no partition running (R442) -/
  | stgCommit (m : Master)
  /-- STG_ABANDON: Discard a staged image before its switch (R442) -/
  | stgAbandon (m : Master)
  /-- FLASH_SETTLE_DONE: The other flash copy has been overwritten with the new image (R442) -/
  | flashSettleDone
  /-- SET_VOTE_TIMEOUT: The coordinator sends ABORT 2 s after its yes without every vote (R446) -/
  | setVoteTimeout
  /-- SET_ABORT: A member discards its staged image 10 s after its yes with no COMMIT or ABORT (R446) -/
  | setAbort
  /-- SET_SWITCH_TIME: Meridian reaches the set switch time T and the member switches (R445) -/
  | setSwitchTime
  /-- CLOG_WRITE_DONE: A change-log entry reaches flash and the action it guards takes effect, or fails (R449) -/
  | clogWriteDone (ok : Bool)
  /-- FAULT_MESSAGE: The collector accepts a fault message, counts it, classifies it and starts the class actions (R454) -/
  | faultMessage (src : Fin 1024) (good : Bool) (lat : BitVec 12)
  /-- ALARM_PAIR_ASSERT: A critical source drives its alarm pair and the safe-state line is asserted (R456) -/
  | alarmPairAssert (k : Fin 18)
  /-- ALARM_PAIR_BROKEN: An alarm pair reads equal for more than 4 cycles and asserts the safe-state line (R456) -/
  | alarmPairBroken (k : Fin 32)
  /-- FLT_SHADOW_SWEEP: The sweep compares every collector word with its inverted copy (R468) -/
  | fltShadowSweep (bad : Bool)
  /-- RESUME: A RESUME write is checked and, if accepted, waits for the next boundary (R472) -/
  | resume (m : Master)
  /-- CNT_CLEAR: Clear the window counts of the selected fault source (R467) -/
  | cntClear (m : Master) (hit : Bool)
  /-- CNT_CLEAR_ALL: Clear the window counts of every fault source (R467) -/
  | cntClearAll (m : Master)
  /-- POLICY_WRITE: A write of POL_LO or POL_HI is applied only if the resulting record is acceptable (R480) -/
  | policyWrite (m : Master) (hi : Bool) (v : BitVec 32)
  /-- INJ_KEY_WRITE: A correct key arms the page for 1 ms, any other key disarms it (R473) -/
  | injKeyWrite (m : Master) (pg : Fin 448) (v : BitVec 32)
  /-- INJ_ARM_EXPIRE: An unused injection arming lapses after 1 ms (R473) -/
  | injArmExpire (pg : Fin 448)
  /-- INJECT_GO: An accepted GO drives the detector's input as one event or a held condition (R474) -/
  | injectGo (m : Master) (pg : Fin 448) (v : BitVec 32)
  /-- INJECT_HOLD_END: A HOLD injection ends at DUR or when its gating ceases (R474) -/
  | injectHoldEnd (pg : Fin 448)
  /-- LOG_BUCKET_END: At the end of a 1 ms bucket open records are committed and admitted or dropped (R483) -/
  | logBucketEnd
  /-- FLUSH_COAL: Commit every open coalescing record (R483) -/
  | flushCoal (m : Master)
  /-- LOG_HOST_RP_WRITE: The host advances HOST_RP and releases Logbook slots (R485) -/
  | logHostRpWrite (m : Master) (v : BitVec 32)
  /-- LOG_SPILL_WRITE: A record is written to the flash spill or skipped on failure (R486) -/
  | logSpillWrite (e : SpillEnd)
  /-- LOG_FL_READ: An FL_SEL write fetches a spilled record from flash into FL_DATA (R486) -/
  | logFlRead (m : Master) (v : BitVec 32)
  /-- VEC_ACK: End service of a vector and resend if a routed pending bit is set (R491) -/
  | vecAck (m : Master) (v : Fin 64)
  /-- ROUTING_WRITE: Change an event's routing entry, possibly sending a message for a pending bit (R490) -/
  | routingWrite (m : Master) (v : BitVec 32)
  /-- EVT_PEND_CLEAR: W1C clear of EVT pending bits with the clear-against-set race (R490) -/
  | evtPendClear (m : Master) (k : Fin 48) (v hw : BitVec 32)
  /-- EV_STICKY_CLEAR: W1C clear of sticky event or fault bits, with AGAIN set on a same-cycle hardware set (R37) -/
  | evStickyClear (m : Master) (i : BitVec 19) (v hw : BitVec 32)
  /-- EV_AGAIN_READ: Read and clear the clear-against-set bits (R38) -/
  | evAgainRead (m : Master) (pg : Fin 448) (hw : BitVec 32)
  /-- RC_REGISTER_READ: A read of a read-clear counter returns it and resets it to its reset value (R5) -/
  | rcRegisterRead (m : Master) (a : BarAddr) (wide : Bool)
  /-- WIDE_LOW_READ: A read of the low half of a wide value latches the high half into the master's shadow (R40) -/
  | wideLowRead (m : Master) (i : BitVec 26) (wide : Bool)
  /-- WIDE_HIGH_READ: A read of a high half returns the tagged shadow or the live value (R40) -/
  | wideHighRead (m : Master) (i : BitVec 26)
  /-- WIDE_LOW_WRITE: A 32-bit write of a wide low half is staged for the writing master (R42) -/
  | wideLowWrite (m : Master) (i : BitVec 26) (v : BitVec 32) (env : WriteEnv)
  /-- WIDE_HIGH_WRITE: A high-half write applies it with any staged low half in one cycle (R42) -/
  | wideHighWrite (m : Master) (i : BitVec 26) (v : BitVec 32) (env : WriteEnv)
  /-- REGISTER_WRITE: A write to a register with no row of its own, applied or denied by privilege, ownership and lock (R34) -/
  | registerWrite (m : Master) (a : BarAddr) (v : BitVec 32) (hi : Option (BitVec 32)) (env : WriteEnv)
  /-- PG_EN_WRITE: A write of PG_CTRL.EN, refused when the configuration uses the block (R32) -/
  | pgEnWrite (m : Master) (pg : Fin 448) (en : Bool)
  /-- PG_EXPERT_WRITE: A write of PG_CTRL.EXPERT, honoured only for a master with expert privilege (R35) -/
  | pgExpertWrite (m : Master) (pg : Fin 448) (ex : Bool)
  /-- LOCK_REQ: Lock the page's RWL registers until the next reset (R31) -/
  | lockReq (m : Master) (pg : Fin 448)
  /-- BAR0_BAD_ACCESS: A mis-sized or misaligned BAR0 access completes with zero data or discard, or an over-long request is aborted (R25) -/
  | bar0BadAccess (write long : Bool)
  /-- SPI_FRAME: An SPI frame between nCS edges is decoded, its read performed or write applied after CRC (R28) -/
  | spiFrame (hdr : BitVec 32) (data : BitVec 64) (crc : BitVec 8) (whole : Bool) (env : WriteEnv)
  /-- MSIX_UNMASK: Unmasking a vector with its pending bit set sends the message (R43) -/
  | msixUnmask (v : Fin 64)
  /-- PCIE_LINK_DOWN: The PCIe link is lost after it was up (R53) -/
  | pcieLinkDown
  /-- PCIE_UNCORR: The endpoint reports an uncorrectable PCIe error (R53) -/
  | pcieUncorr
  /-- XQ_TAIL_WRITE: The host posts descriptors by advancing XQ_TAIL, refused if it overfills the ring (R46) -/
  | xqTailWrite (m : Master) (q : Fin 4) (v : BitVec 32)
  /-- XQ_CONFIG_WRITE: A write of XQ_SIZE or XQ_BASE, refused while descriptors are posted (R46) -/
  | xqConfigWrite (m : Master) (q : Fin 4) (reg : Fin 3) (v : BitVec 32)
  /-- XF_QEN_CLEAR: Clearing QEN stops the queue after the descriptor in progress (R50) -/
  | xfQenClear (m : Master) (q : Fin 4)
  /-- XFER_DESC_START: A descriptor at the head starts, at once or on its timer's match trigger (R49) -/
  | xferDescStart (q : Fin 4) (d : Desc)
  /-- XFER_COPY_DONE: A copy ends and the descriptor result is written back with optional completion event (R48) -/
  | xferCopyDone (q : Fin 4)
  /-- XFER_PCIE_ERR: A PCIe error during a copy ends the descriptor with CODE 2 (R50) -/
  | xferPcieErr (q : Option (Fin 4)) (n : BitVec 16)
  /-- VERNIER_SECOND: Each second Vernier evaluates margin and requests a lower grade when needed (R499) -/
  | vernierSecond (slack : List (BitVec 16)) (shift : List (BitVec 8)) (erase : BitVec 24)
  /-- VERNIER_HOURLY: At the first boundary of each hour Vernier may request a higher grade (R499) -/
  | vernierHourly
  /-- VERN_SLACK_NEG: A canary's slack falls below zero, a HALT-class source (R499) -/
  | vernSlackNeg
  /-- VERNIER_DAILY: Once in 24 h Vernier writes the trend record and projects each margin (R497) -/
  | vernierDaily (ok : Bool)
  /-- DORMANT_ENTER_REQ: A DORMANT request is latched for evaluation at the next boundary (R514) -/
  | dormantEnterReq (m : Master) (alarmUse : Bool)
  /-- DORMANT_WAKE_CMD: An authenticated WAKE write wakes the DORMANT device, other writes are ignored (R514) -/
  | dormantWakeCmd (m : Master) (dt : BitVec 32) (field : FieldFind)
  /-- RTC_ALARM: The Nightglass RTC alarm wakes a DORMANT device (R18) -/
  | rtcAlarm (field : FieldFind)
  /-- VIGIL_SAMPLE: Every 250 ms each enabled vigil input is sampled, changes registered and alarms set (R521) -/
  | vigilSample (c0 c1 c2 c3 : Fin 3) (field : FieldFind)
  /-- VG_ACK: MAINT acknowledges a vigil alarm of a closed input after its change-log entry (R523) -/
  | vgAck (m : Master) (v : BitVec 4)
  /-- RTC_LOAD: The RTC is loaded from Meridian on lock and every hour (R520) -/
  | rtcLoad
  /-- XTAL_MEASURE: Every 10 s the Nightglass crystal is measured against CLK_TB (R520) -/
  | xtalMeasure (ppm : BitVec 16)
  /-- VLOG_OUT_OF_RANGE: VLOG outside its recommended range for 1 ms raises VLOG_LOW or VLOG_HIGH (R510) -/
  | vlogOutOfRange (mv : BitVec 16)
  /-- VBAK_SAMPLE: Every 10 s VBAK is sampled and VBAK_LOW raised if low (R510) -/
  | vbakSample (mv : BitVec 16)
  /-- VBAK_ABSENT: VBAK below 2.0 V while VLOG is valid (R510) -/
  | vbakAbsent (mv : Fin 2000)
  /-- TEMP_HIGH: Die temperature above 125 C for 10 ms (R510) -/
  | tempHigh (t : BitVec 16)
  /-- CRITICAL_MONITOR_TRIP: A clock, rail, temperature, recovery or tick monitor trips a critical source (R457) -/
  | criticalMonitorTrip (k : Fin 18)
  /-- PM_WAKE: Work or an access arrives for a gated block and it wakes within its wake time (R32) -/
  | pmWake (pg : Fin 448) (late : Bool)
  /-- PCIE_LINK_UP: The PCIe link trains up and LINK_STAT reports LINK_UP, speed and width (R45) -/
  | pcieLinkUp (speed : Fin 3) (width : Fin 2)
  /-- BUS_MASTER_ENABLE_CHANGE: The host sets or clears Bus Master Enable or MSI-X enable in configuration space, stopping or resuming XFER copies and MSI-X messages (R43) -/
  | busMasterEnableChange (bme msix : Bool)
  /-- EYE_LOW: A lane's eye height stays below LN_CFG.EYE_WARN for 1 s and EYE_LOW is raised (R374) -/
  | eyeLow (l : Fin 12) (h : BitVec 8) (w : BitVec 10)
  /-- PM_AUTO_GATE: A block under PM_CTRL AUTO with no work for IDLE_DLY clock-gates or power-gates itself (R31) -/
  | pmAutoGate (pg : Fin 448) (power : Bool)
  /-- NGL_COUNT_LOST: With VLOG absent, the Nightglass supply falls below 2.2 V and the RTC count is lost, so RTC_VALID and COUNT_KEPT read 0 (R519) -/
  | nglCountLost
  /-- XTAL_STOP: The Nightglass oscillator monitor detects a stopped crystal, raises NGL_XTAL and clears COUNT_KEPT (R520) -/
  | xtalStop
  /-- LOOP_SUPPLY_FOLDBACK: An AI_I loop supply held at its 30 mA limit for 10 ms folds back to 3 mA and raises MISWIRE (R315) -/
  | loopSupplyFoldback (n : Fin 192)
  /-- ETH_RX_DISCARD: An Ethernet frame that is not a safe frame, PTP message or own ARP request, or that fails FCS or overflows the buffer, is discarded and counted (R378) -/
  | ethRxDiscard (k : Fin 2) (why : EthBad)
deriving DecidableEq, Repr

end Sys2Proof
end

