-- ==== Sys2Proof/Decode.lean ====
section
/-! DEFINITION. The command a word of the table spells: spec/opcode_table.json gives no row any bits, so no word spells one. -/

namespace Sys2Proof

/-- The command a word of `nbits` bits spells: none, for no row of the table has bits. -/
def decodeTableWord (_nbits _w : Nat) : Option Instr := none

end Sys2Proof
end

