-- ==== Sys2Proof/Config.lean ====
section
/-! DEFINITION. What the spec names and does not define, and what it leaves open: constants with no body, so that no
proof can rest on a value. Log 5 (functions of other standards), log 6 (free values). -/

namespace Sys2Proof.Config

/-- SHA-256 of a byte string (R60, R440, R448), as 256 bits, first hash byte most significant. -/
opaque sha256 : List Byte → BitVec 256

/-- HMAC-SHA-256 of a message under a key (R434, R436). -/
opaque hmacSha256 : List Byte → List Byte → BitVec 256

/-- ECDSA P-256: does the signature r ‖ s check for this hash under this public key X ‖ Y (R437, R440)? -/
opaque ecdsaOk : (key sig : List Byte) → (hash : BitVec 256) → Bool

/-- The 128-bit AES-GMAC tag of a message under a key and an initial value (R348, R388). -/
opaque gmacTag : (key : BitVec 128) → (iv : List Byte) → (msg : List Byte) → BitVec 128

/-- The n-th 128-bit draw of the device's DRBG instances (R418). -/
opaque drbg : Nat → BitVec 128

/-- A free value of 64 bits: what the spec leaves open, a fresh one each time `State.free` advances (log 6). -/
opaque freeValue : Nat → BitVec 64

/-- The 64 bits that the compared outputs of an instruction fold to: R164 gives the order of the outputs and not their packing
(log 18). -/
opaque compared : (outs : List Nat) → BitVec 64

/-- What a byte of a word of Ephemeris with an uncorrectable error reads as: R174 gives no value (log 17). -/
opaque ephFlawed : (addr : Nat) → (written : Byte) → Byte

/-- Bytes 0 to 27, as a number, of a record read from Logbook SRAM with an uncorrectable error: R492 gives only that the record fails
RCRC (log 145). -/
opaque logFlawed : (slot : Nat) → (stored : Nat) → Nat

/-- The temperature in 0.1 °C that a resistance (mΩ) stands for on RTD curve `range` (R303). -/
opaque rtdCurve : (range : Nat) → (milliohm : Int) → Int

/-- The temperature in 0.1 °C that a thermocouple voltage (0.1 µV) and a cold-junction temperature stand for (R303). -/
opaque tcCurve : (range : Nat) → (voltage : Int) → (coldJunction : Int) → Int

/-- The home partition that mirror partition `p` of this device mirrors (R349; log 41). -/
opaque mirrorHome : (p : Nat) → Fin 16

/-- A_p of the home partition of mirror partition `p`, which the buddy's commit vote carries (R369; log 41). -/
opaque mirrorA : (p : Nat) → BitVec 16

/-- PER_LOG2, PHASE and START of the home entry that the entry with SEQ `seq` of mirror partition `p` stands by for (R369; log 41). -/
opaque homeEntry : (p seq : Nat) → Nat × Nat × Nat

/-- The buddy's partition that mirrors mobile partition `p` of this device (R349; log 41). -/
opaque buddyPart : (p : Nat) → Fin 16

/-- Home position of the mobile partition that token entry `q` of the member at position `origin` describes (R349; log 41). -/
opaque tokenHome : (origin q : Nat) → Fin 32

/-- The home device's partition that produces a signal (R368; log 41). -/
opaque idPart : (id : Nat) → Fin 16

/-- The home signal ID under which a mirror partition's produced index is published (R369; log 41). -/
opaque homeId : (idx : Nat) → Fin 2097152

/-- The connections that the chain of function `fn`, published by partition `part`, crosses (R396; log 61). -/
opaque fnLegs : (part fn : Nat) → List (Fin 64)

/-- The position of this ring's bridge, if its cluster has a spine: named in the Almanac (R366; log 41). -/
opaque bridge : Option (Fin 32)

/-- SHA-256 of the Scaesk service key, held in mask ROM (R408; log 5). -/
opaque serviceKeyHash : BitVec 256

end Sys2Proof.Config
end

