-- ==== Sys2Proof/Machine/Table.lean ====
section
/-! DEFINITION. Sparse tables and byte memories in one canonical form: keys strictly rising, no entry equal to what an
unlisted key reads as. `d` is what an unlisted key reads as. -/

namespace Sys2Proof.Machine

/-- A table of plain data by number. -/
abbrev Tab (α : Type) := List (Nat × α)

/-- The entry at key `k`; `d k` where none is listed. -/
def Tab.get {α : Type} (d : Nat → α) : Tab α → Nat → α
  | [], k => d k
  | (j, v) :: t, k => if j = k then v else Tab.get d t k

/-- Put an entry before the first greater key, in place of one with the same key. -/
def Tab.ins {α : Type} (k : Nat) (v : α) : Tab α → Tab α
  | [] => [(k, v)]
  | (j, w) :: t => if k < j then (k, v) :: (j, w) :: t else if k = j then (k, v) :: t else (j, w) :: Tab.ins k v t

/-- Remove the entries at a key. -/
def Tab.del {α : Type} (k : Nat) : Tab α → Tab α
  | [] => []
  | (j, w) :: t => if j = k then Tab.del k t else (j, w) :: Tab.del k t

/-- The table with `v` at key `k`; an entry equal to what an unlisted key reads as is not listed. -/
def Tab.set {α : Type} [DecidableEq α] (d : Nat → α) (t : Tab α) (k : Nat) (v : α) : Tab α :=
  if v = d k then Tab.del k t else Tab.ins k v t

/-- The table with the entry at `k` changed by `f`. -/
def Tab.modify {α : Type} [DecidableEq α] (d : Nat → α) (t : Tab α) (k : Nat) (f : α → α) : Tab α :=
  Tab.set d t k (f (Tab.get d t k))

/-- Every key of a table is above `b`, and the keys rise strictly. -/
def Tab.rising {α : Type} : Option Nat → Tab α → Bool
  | _, [] => true
  | none, (j, _) :: t => Tab.rising (some j) t
  | some b, (j, _) :: t => decide (b < j) && Tab.rising (some j) t

/-- The canonical form. -/
def Tab.wf {α : Type} [DecidableEq α] (d : Nat → α) (t : Tab α) : Bool :=
  Tab.rising none t && t.all (fun e => !decide (e.2 = d e.1))

/-- A byte memory: what an unlisted address reads as is 0 (log 3). -/
abbrev Mem := List Host.Cell

/-- What an unlisted address of a memory reads as. -/
def memDefault (_ : Nat) : Byte := 0

/-- The canonical form of a memory. -/
def Memory.wf (m : Mem) : Bool := Tab.wf memDefault m

/-- One byte. -/
def Mem.byte (m : Mem) (a : Nat) : Byte := Tab.get memDefault m a

/-- `n` bytes from address `a` on, lowest address first. -/
def Mem.bytes (m : Mem) (a : Nat) : Nat → List Byte
  | 0 => []
  | n + 1 => Mem.byte m a :: Mem.bytes m (a + 1) n

/-- Write bytes from address `a` on. -/
def Mem.write (m : Mem) (a : Nat) : List Byte → Mem
  | [] => m
  | b :: bs => Mem.write (Tab.set memDefault m a b) (a + 1) bs

/-- The memory that holds a byte string from address `a` on, and nothing else. -/
def Mem.ofBytes (a : Nat) : List Byte → Mem
  | [] => []
  | b :: bs => if b = 0 then Mem.ofBytes (a + 1) bs else (a, b) :: Mem.ofBytes (a + 1) bs

/-- The number little-endian bytes stand for (R3). -/
def leNat : List Byte → Nat
  | [] => 0
  | b :: bs => b.toNat + 256 * leNat bs

/-- The `n` little-endian bytes of a number (R3). -/
def natLe : Nat → Nat → List Byte
  | 0, _ => []
  | n + 1, v => BitVec.ofNat 8 v :: natLe n (v / 256)

/-- The big-endian bytes of a number (fabric and Ethernet layouts, R3). -/
def natBe (n v : Nat) : List Byte := (natLe n v).reverse

/-- The number big-endian bytes stand for. -/
def beNat (bs : List Byte) : Nat := leNat bs.reverse

/-- A little-endian 32-bit word of memory. -/
def Mem.w32 (m : Mem) (a : Nat) : Word := BitVec.ofNat 32 (leNat (Mem.bytes m a 4))

/-- A little-endian 64-bit unit of memory, read whole (R8). -/
def Mem.w64 (m : Mem) (a : Nat) : Csw := BitVec.ofNat 64 (leNat (Mem.bytes m a 8))

/-- Write a little-endian 32-bit word. -/
def Mem.setW32 (m : Mem) (a : Nat) (v : Word) : Mem := Mem.write m a (natLe 4 v.toNat)

/-- Write a little-endian 64-bit unit whole (R8). -/
def Mem.setW64 (m : Mem) (a : Nat) (v : Csw) : Mem := Mem.write m a (natLe 8 v.toNat)

/-- Bits [lo + n − 1 : lo] of a number. -/
def natBits (v lo n : Nat) : Nat := (v / 2 ^ lo) % 2 ^ n

/-- Bit `i` of a number. -/
def natBit (v i : Nat) : Bool := decide ((v / 2 ^ i) % 2 = 1)

/-- A Boolean as 0 or 1. -/
def b2n (b : Bool) : Nat := if b then 1 else 0

/-- The word with bits [lo + n − 1 : lo] replaced. -/
def setBits {w : Nat} (x : BitVec w) (lo n v : Nat) : BitVec w :=
  (x &&& ~~~ (BitVec.ofNat w ((2 ^ n - 1) * 2 ^ lo))) ||| BitVec.ofNat w ((v % 2 ^ n) * 2 ^ lo)

/-- Add without passing the largest value of `n` bits (saturating counters). -/
def satAdd (n a b : Nat) : Nat := min (a + b) (2 ^ n - 1)

/-- A number read as two's complement of `n` bits. -/
def asSigned (n v : Nat) : Int := if v % 2 ^ n < 2 ^ (n - 1) then (v % 2 ^ n : Nat) else ((v % 2 ^ n : Nat) : Int) - (2 ^ n : Nat)

/-- The two's complement pattern of a number in `n` bits. -/
def ofSigned (n : Nat) (v : Int) : Nat := (v % (2 ^ n : Nat)).toNat

/-- Does a condition hold for every number below `n`? -/
def allBelow (n : Nat) (f : Nat → Bool) : Bool := (List.range n).all f

/-- Does a condition hold for some number below `n`? -/
def anyBelow (n : Nat) (f : Nat → Bool) : Bool := (List.range n).any f

/-- The number whose bit `i`, for i below `n`, is `f i`. -/
def bitMask (n : Nat) (f : Nat → Bool) : Nat :=
  (List.range n).foldl (fun acc i => acc + b2n (f i) * 2 ^ i) 0

/-- One bit into the reflected CRC-32C register (R33). -/
def crc32cBit (c : BitVec 32) : BitVec 32 :=
  if c.getLsbD 0 then (c >>> 1) ^^^ 0x82F63B78#32 else c >>> 1

/-- One byte into the CRC-32C register, least significant bit first. -/
def crc32cByte (c : BitVec 32) (b : Byte) : BitVec 32 :=
  crc32cBit (crc32cBit (crc32cBit (crc32cBit (crc32cBit (crc32cBit (crc32cBit (crc32cBit
    (c ^^^ b.setWidth 32))))))))

/-- CRC-32C of R33 from a given register value, without the final complement. -/
def crc32cFrom (init : BitVec 32) (bs : List Byte) : BitVec 32 := bs.foldl crc32cByte init

/-- CRC-32C of R33. -/
def crc32c (bs : List Byte) : BitVec 32 := ~~~ (crc32cFrom 0xFFFFFFFF#32 bs)

end Sys2Proof.Machine
end

