-- ==== Sys2Proof/Machine/Operands.lean ====
section
/-! DEFINITION. The coded signal word: its code, its check field, qualities, the recode stage (R54 to R73), and the
local tags of words that are no signals (R105). -/

namespace Sys2Proof.Machine

/-- QUAL code of a quality (R65). -/
def Qual.code : Qual → Nat
  | .good => 0 | .subst => 1 | .stale => 2 | .fault => 3 | .unknown => 4 | .forced => 5 | .init => 6

/-- The quality of a QUAL code; a reserved code reads as FAULT (R65). -/
def qualOf : Nat → Qual
  | 0 => .good | 1 => .subst | 2 => .stale | 3 => .fault | 4 => .unknown | 5 => .forced | 6 => .init | _ => .fault

/-- Rank of a quality, the worst lowest (R67). -/
def qualRank : Qual → Nat
  | .fault => 0 | .stale => 1 | .init => 2 | .unknown => 3 | .subst => 4 | .forced => 5 | .good => 6

/-- The worse of two qualities (R67). -/
def qualWorse (a b : Qual) : Qual := if qualRank a ≤ qualRank b then a else b

/-- The worst quality of a list; GOOD for none (R67). -/
def qualWorst (qs : List Qual) : Qual := qs.foldl qualWorse .good

/-- GOOD or FORCED (R66). -/
def qualLive (q : Qual) : Bool := q = .good || q = .forced

/-- The transport constant (R60). -/
def aT : Nat := 0xE4F3

/-- The signature B of a signal ID or tag (R62). -/
def sigB (id : Nat) : Nat := ((id % 65536) * 0x9E3B + (id / 65536 % 32) * 0x2F1D) % 65536

/-- One message bit into the CRC-12 register (R63). -/
def crc12Bit (c : BitVec 12) (b : Bool) : BitVec 12 :=
  if xor (c.getLsbD 11) b then (c <<< 1) ^^^ 0x80F#12 else c <<< 1

/-- Bits n − 1 down to 0 of `m` into the CRC-12 register. -/
def crc12Go : Nat → Nat → BitVec 12 → BitVec 12
  | 0, _, c => c
  | n + 1, m, c => crc12Go n m (crc12Bit c (natBit m n))

/-- CHK over word bits [63:12] and the 21-bit ID (R63). -/
def crc12 (w : Csw) (id : Nat) : BitVec 12 :=
  crc12Go 21 id (crc12Go 52 (w.toNat / 4096) 0xFFF#12)

/-- One message bit into the CRC-8 register, polynomial 0x07 (R27, R145). -/
def crc8Bit (c : BitVec 8) (b : Bool) : BitVec 8 :=
  if xor (c.getLsbD 7) b then (c <<< 1) ^^^ 0x07#8 else c <<< 1

/-- Bits n − 1 down to 0 of `m` into the CRC-8 register. -/
def crc8Go : Nat → Nat → BitVec 8 → BitVec 8
  | 0, _, c => c
  | n + 1, m, c => crc8Go n m (crc8Bit c (natBit m n))

/-- CRC-8 over bits [55:0] of a map word and `n` further bits (R145, R146). -/
def mapChk (w : Csw) (n key : Nat) : BitVec 8 := crc8Go n key (crc8Go 56 (w.toNat % 2 ^ 56) 0)

/-- Fields of a coded signal word (R58). -/
def cswVc (w : Csw) : Nat := natBits w.toNat 32 32
def cswAge (w : Csw) : Nat := natBits w.toNat 16 16
def cswQualCode (w : Csw) : Nat := natBits w.toNat 12 4
def cswQual (w : Csw) : Qual := qualOf (cswQualCode w)
def cswChk (w : Csw) : Nat := natBits w.toNat 0 12

/-- The word with its CHK for an ID (R63). -/
def withChk (w : Csw) (id : Nat) : Csw :=
  let m : Csw := BitVec.ofNat 64 (w.toNat / 4096 * 4096)
  m ||| (crc12 m id).setWidth 64

/-- A word from its VC, AGE and QUAL code, with CHK for an ID (R58). -/
def cswOf (id vc age q : Nat) : Csw :=
  withChk (BitVec.ofNat 64 (vc % 2 ^ 32 * 2 ^ 32 + age % 2 ^ 16 * 2 ^ 16 + q % 16 * 2 ^ 12)) id

/-- The coded word of `v` under constant `a` for `id` (R58, R62). -/
def mkCsw (a id v age : Nat) (q : Qual) : Csw := cswOf id (a * (v % 65536) + sigB id) age (Qual.code q)

/-- The difference the code check divides (R64). -/
def codeDiff (w : Csw) (id : Nat) : Nat := (cswVc w + 2 ^ 32 - sigB id) % 2 ^ 32

/-- Does CHK match (R64)? -/
def chkOk (w : Csw) (id : Nat) : Bool := decide (cswChk w = (crc12 w id).toNat)

/-- Is VC a code of constant `a` for `id` (R64)? -/
def vcOk (a : Nat) (w : Csw) (id : Nat) : Bool :=
  decide (codeDiff w id % a = 0) && decide (codeDiff w id / a ≤ 0xFFFF)

/-- A word is valid under `a` for `id` (R64). -/
def cswValid (a : Nat) (w : Csw) (id : Nat) : Bool := chkOk w id && vcOk a w id

/-- The plain value of a valid word (R64). -/
def cswVal (a : Nat) (w : Csw) (id : Nat) : Nat := codeDiff w id / a

/-- The v a consumer takes: 0 unless the quality is GOOD or FORCED (R66). -/
def safeV (v : Nat) (q : Qual) : Nat := if qualLive q then v else 0

/-- The recode stage with its check unit: from constant `a` under `id` to constant `b` under `jd` (R73, R114, R116).
A failed check, and no other case, answers none. -/
def recode (a id b jd : Nat) (w : Csw) : Option Csw :=
  if cswValid a w id then
    some (mkCsw b jd (safeV (cswVal a w id) (cswQual w)) (cswAge w) (cswQual w))
  else none

/-- Recode where a failure gives v = 0, QUAL FAULT (R73). -/
def recodeOr (a id b jd : Nat) (w : Csw) : Csw :=
  (recode a id b jd w).getD (mkCsw b jd 0 (cswAge w) .fault)

/-- The word with a reserved QUAL code rewritten as FAULT: what a block that checks it passes on (R65). -/
def fixQual (id : Nat) (w : Csw) : Csw := if 7 ≤ cswQualCode w then withChk (setBits w 12 4 (Qual.code .fault)) id else w

/-- The word with a CHK that does not match: what an uncorrectable error leaves to the checks of its readers (R551). -/
def spoiled (id : Nat) (w : Csw) : Csw := withChk w id ^^^ 1

/-- Age of a word at superframe count `s` (R69). -/
def ageAt (s : Nat) (w : Csw) : Nat := (s % 65536 + 65536 - cswAge w) % 65536

/-- Local tags (R105). -/
def tagReg (n : Nat) : Nat := 0x1FFFE0 + n
def tagVar (k : Nat) : Nat := 0x1FF800 + k
def tagTimer (t : Nat) : Nat := 0x1FF400 + t

/-- Number of bits set in a 16-bit number (R60). -/
def popcount16 (v : Nat) : Nat := ((List.range 16).filter (natBit v)).length

/-- The search of R60 from `a` on, with `fuel` candidates left. -/
def apSearch (taken : List Nat) : Nat → Nat → Nat
  | 0, a => a
  | fuel + 1, a =>
    if popcount16 a < 6 ∨ 10 < popcount16 a ∨ a = aT ∨ a ∈ taken then
      apSearch taken fuel (((a + 2) % 65536) ||| 0x8001)
    else a

end Sys2Proof.Machine
end

