-- ==== Sys2Proof/Machine/Regs.lean ====
section
/-! DEFINITION. The register space (R5, R29, R30): which page carries which block, and for every register of the
register tables of spec/ its offset, its reset value and which of its bits each kind of write reaches. A reset value
the spec gives as a dash is 0 here (DESIGN CHOICE, log 1). -/

namespace Sys2Proof.Machine

/-- The blocks that own pages (R29). -/
inductive Block where
  | sys | clk | otp | lcs | rng | vern | flt0 | flt1 | flt2 | flt3 | log | evt | ngl | sup | xfer | mer | tmr
  | eng | pair | part | map | eph | fab | port | lane | eth | safe | keys | host | cfg | bank | spd | ch
deriving DecidableEq, Repr

/-- One register of a block's page, or `reps` like registers `step` bytes apart. Masks say which bits a write reaches. -/
structure RegSpec where
  off : Nat
  reps : Nat
  step : Nat
  rst : BitVec 32
  rw : BitVec 32
  rwl : BitVec 32
  w1c : BitVec 32
  w1s : BitVec 32
  rc : Bool
  rl : Bool
  wo : Bool
deriving DecidableEq, Repr

/-- Registers of the common page(s) (R30). -/
def regsCommon : List RegSpec :=
  [⟨0x0, 1, 0x4, 0x0, 0x0, 0x0, 0x0, 0x0, false, false, false⟩,
   ⟨0x4, 1, 0x4, 0x0, 0x0, 0x0, 0x0, 0x0, false, false, false⟩,
   ⟨0x8, 1, 0x4, 0x0, 0x0, 0x0, 0x0, 0x0, false, false, false⟩,
   ⟨0xC, 1, 0x4, 0x0, 0x2, 0x1, 0x0, 0x4, false, false, false⟩,
   ⟨0x10, 1, 0x4, 0x0, 0x0, 0x0, 0x0, 0x0, false, false, false⟩,
   ⟨0x14, 1, 0x4, 0x0, 0x0, 0x0, 0x0, 0x0, false, false, false⟩,
   ⟨0x18, 1, 0x4, 0x0, 0x0, 0x0, 0xFFFFFFFF, 0x0, false, false, false⟩,
   ⟨0x1C, 1, 0x4, 0x0, 0xFFFFFFFF, 0x0, 0x0, 0x0, false, false, false⟩,
   ⟨0x20, 1, 0x4, 0x0, 0x0, 0x0, 0x0, 0x0, true, false, false⟩,
   ⟨0x24, 1, 0x4, 0x0, 0xFFFF3, 0x0, 0x0, 0x0, false, false, false⟩,
   ⟨0x28, 1, 0x4, 0x0, 0x0, 0x0, 0x0, 0x0, false, false, false⟩,
   ⟨0x2C, 1, 0x4, 0x0, 0x0, 0x0, 0x0, 0x0, false, false, true⟩,
   ⟨0x30, 1, 0x4, 0x0, 0xFFF3FFFF, 0x0, 0x0, 0x40000, false, false, false⟩,
   ⟨0x34, 1, 0x4, 0x0, 0x0, 0x0, 0x0, 0x0, false, false, false⟩,
   ⟨0x38, 1, 0x4, 0x30000, 0x0, 0x30000, 0x0, 0x0, false, false, false⟩,
   ⟨0x3C, 1, 0x4, 0x0, 0x0, 0x0, 0x0, 0x0, false, false, false⟩]

/-- Registers of the SYS page: DEV_STAT, whose offset the spec does not give, at the first place (R15; log 57). -/
def regsSys : List RegSpec := [⟨0x40, 1, 0x4, 0x0, 0x0, 0x0, 0x0, 0x0, false, false, false⟩]

/-- Registers of the HOST page(s) (R45). -/
def regsHost : List RegSpec :=
  [⟨0x40, 1, 0x4, 0x0, 0x0, 0x0, 0x0, 0x0, false, false, false⟩,
   ⟨0x44, 1, 0x4, 0x1, 0x0, 0x0, 0x0, 0x0, false, false, false⟩,
   ⟨0x48, 1, 0x4, 0x1, 0x0, 0x0, 0x0, 0x0, false, false, false⟩,
   ⟨0x4C, 1, 0x4, 0x0, 0x0, 0x0, 0x0, 0x0, true, false, false⟩,
   ⟨0x50, 1, 0x4, 0x0, 0x0, 0x0, 0x0, 0x0, true, false, false⟩,
   ⟨0x54, 1, 0x4, 0x0, 0x0, 0x0, 0x0, 0x0, false, false, false⟩,
   ⟨0x58, 1, 0x4, 0x0, 0x0, 0x0, 0x0, 0x0, false, false, false⟩]

/-- Registers of the XFER page(s) (R47). -/
def regsXfer : List RegSpec :=
  [⟨0x40, 1, 0x4, 0x0, 0xF, 0x0, 0x0, 0x0, false, false, false⟩,
   ⟨0x44, 1, 0x4, 0x0, 0x0, 0x0, 0x0, 0x0, false, false, false⟩,
   ⟨0x100, 4, 0x20, 0x0, 0xFFFFFFFF, 0x0, 0x0, 0x0, false, true, false⟩,
   ⟨0x104, 4, 0x20, 0x0, 0xFFFFFFFF, 0x0, 0x0, 0x0, false, false, false⟩,
   ⟨0x108, 4, 0x20, 0x4, 0xF, 0x0, 0x0, 0x0, false, false, false⟩,
   ⟨0x10C, 4, 0x20, 0x0, 0x1FFF, 0x0, 0x0, 0x0, false, false, false⟩,
   ⟨0x110, 4, 0x20, 0x0, 0x0, 0x0, 0x0, 0x0, false, false, false⟩,
   ⟨0x114, 4, 0x20, 0x0, 0x0, 0x0, 0x0, 0x0, true, false, false⟩]

/-- Registers of the ENG page(s) (R100). -/
def regsEng : List RegSpec :=
  [⟨0x40, 1, 0x4, 0x0, 0x0, 0x0, 0x0, 0x0, false, false, false⟩,
   ⟨0x44, 1, 0x4, 0x0, 0x0, 0x0, 0x0, 0x0, false, false, false⟩,
   ⟨0x48, 1, 0x4, 0x0, 0x0, 0x0, 0x0, 0x0, false, true, false⟩,
   ⟨0x4C, 1, 0x4, 0x0, 0x0, 0x0, 0x0, 0x0, false, false, false⟩,
   ⟨0x50, 1, 0x4, 0x0, 0x0, 0x0, 0x0, 0x0, false, false, false⟩,
   ⟨0x54, 1, 0x4, 0x0, 0x0, 0x0, 0x0, 0x0, false, false, false⟩,
   ⟨0x58, 1, 0x4, 0xE4F3, 0x0, 0x0, 0x0, 0x0, false, false, false⟩,
   ⟨0x60, 4, 0x4, 0x0, 0x0, 0x0, 0x0, 0x0, false, false, false⟩]

/-- Registers of the PAIR page(s) (R88, R101, R194). -/
def regsPair : List RegSpec :=
  [⟨0x40, 1, 0x4, 0x0, 0x0, 0x0, 0x0, 0x0, false, false, false⟩,
   ⟨0x44, 1, 0x4, 0x0, 0x0, 0x0, 0x0, 0x0, false, false, false⟩,
   ⟨0x48, 1, 0x4, 0x0, 0x0, 0x0, 0x0, 0x0, true, false, false⟩,
   ⟨0x4C, 1, 0x4, 0x0, 0x0, 0x0, 0x0, 0x0, true, false, false⟩,
   ⟨0x50, 1, 0x4, 0xFFFF, 0x0, 0x0, 0x0, 0x0, true, false, false⟩,
   ⟨0x54, 1, 0x4, 0x0, 0x0, 0x0, 0x0, 0x0, false, false, false⟩,
   ⟨0x80, 1, 0x4, 0x0, 0x0, 0x0, 0x0, 0x0, true, false, false⟩,
   ⟨0x84, 1, 0x4, 0x0, 0x0, 0x0, 0x0, 0x0, true, false, false⟩,
   ⟨0x88, 1, 0x4, 0x0, 0x0, 0x0, 0x0, 0x0, true, false, false⟩,
   ⟨0x8C, 1, 0x4, 0x0, 0x0, 0x0, 0x0, 0x0, false, false, false⟩,
   ⟨0x90, 1, 0x4, 0x0, 0x0, 0x0, 0x0, 0x0, false, true, false⟩,
   ⟨0x94, 1, 0x4, 0x0, 0x0, 0x0, 0x0, 0x0, false, false, false⟩,
   ⟨0x98, 1, 0x4, 0x0, 0x0, 0x0, 0x0, 0x0, false, false, false⟩,
   ⟨0x9C, 1, 0x4, 0x0, 0x0, 0x0, 0x0, 0x0, true, false, false⟩,
   ⟨0xA0, 1, 0x4, 0x0, 0x0, 0x0, 0x0, 0x0, false, true, false⟩,
   ⟨0xA4, 1, 0x4, 0x0, 0x0, 0x0, 0x0, 0x0, false, false, false⟩,
   ⟨0xA8, 1, 0x4, 0x0, 0x0, 0x0, 0x0, 0x0, false, true, false⟩,
   ⟨0xAC, 1, 0x4, 0x0, 0x0, 0x0, 0x0, 0x0, false, false, false⟩,
   ⟨0xB0, 1, 0x4, 0x0, 0x0, 0x0, 0x0, 0x0, true, false, false⟩,
   ⟨0xB4, 1, 0x4, 0x0, 0x0, 0x0, 0x0, 0x3, false, false, false⟩] ++
  [⟨0x400, 1, 0x4, 0x0, 0x1, 0x0, 0x0, 0xE, false, false, false⟩,
   ⟨0x404, 1, 0x4, 0x0, 0x0, 0x0, 0x0, 0x0, false, false, false⟩,
   ⟨0x408, 4, 0x4, 0x0, 0xC03FFFFF, 0x0, 0x0, 0x0, false, false, false⟩,
   ⟨0x418, 1, 0x4, 0x0, 0x13F, 0x0, 0x0, 0x0, false, false, false⟩,
   ⟨0x41C, 1, 0x4, 0x0, 0xFFFFFFFF, 0x0, 0x0, 0x0, false, true, false⟩,
   ⟨0x420, 1, 0x4, 0x0, 0xFFFFFFFF, 0x0, 0x0, 0x0, false, false, false⟩,
   ⟨0x800, 64, 0x10, 0x0, 0x0, 0x3FFF3F, 0x0, 0x0, false, false, false⟩,
   ⟨0x804, 64, 0x10, 0x0, 0x0, 0x1FFF1FFF, 0x0, 0x0, false, false, false⟩,
   ⟨0x808, 64, 0x10, 0x0, 0x0, 0x0, 0x0, 0x0, false, false, false⟩,
   ⟨0x80C, 64, 0x10, 0x0, 0x0, 0x8001FFFF, 0x0, 0x0, false, false, false⟩]

/-- Registers of the PART page(s) (R103). -/
def regsPart : List RegSpec :=
  [⟨0x40, 1, 0x4, 0x0, 0x0, 0x3F7F, 0x0, 0x0, false, false, false⟩,
   ⟨0x44, 1, 0x4, 0x0, 0x0, 0x0, 0x0, 0x0, false, false, false⟩,
   ⟨0x48, 1, 0x4, 0x0, 0x0, 0x0, 0x0, 0x0, false, false, false⟩,
   ⟨0x4C, 1, 0x4, 0x100000, 0x0, 0xFFFFF000, 0x0, 0x0, false, false, false⟩,
   ⟨0x50, 1, 0x4, 0x0, 0x0, 0x1FF000, 0x0, 0x0, false, false, false⟩,
   ⟨0x54, 1, 0x4, 0x0, 0x0, 0x1FFFF, 0x0, 0x0, false, false, false⟩,
   ⟨0x58, 1, 0x4, 0x0, 0x0, 0x3FFFF, 0x0, 0x0, false, false, false⟩,
   ⟨0x5C, 1, 0x4, 0x0, 0x0, 0x0, 0x0, 0x0, false, false, false⟩,
   ⟨0x60, 1, 0x4, 0x0, 0x0, 0x0, 0x0, 0x0, false, false, false⟩,
   ⟨0x64, 1, 0x4, 0x0, 0x0, 0x0, 0x0, 0x0, false, false, false⟩,
   ⟨0x68, 1, 0x4, 0x0, 0x0, 0xFFFFFFFF, 0x0, 0x0, false, false, false⟩,
   ⟨0x6C, 1, 0x4, 0x0, 0x0, 0x0, 0x0, 0x0, false, false, false⟩,
   ⟨0x70, 1, 0x4, 0x0, 0x0, 0x0, 0x0, 0x0, true, false, false⟩,
   ⟨0x74, 1, 0x4, 0x0, 0x0, 0x0, 0x0, 0x0, true, false, false⟩,
   ⟨0x78, 1, 0x4, 0x0, 0x0, 0x0, 0x0, 0x0, false, false, false⟩,
   ⟨0x7C, 1, 0x4, 0x0, 0x0, 0x0, 0x0, 0x0, false, false, false⟩,
   ⟨0x100, 32, 0x4, 0xFFFFFF, 0x0, 0x0, 0x0, 0x0, false, false, false⟩,
   ⟨0x180, 32, 0x4, 0xFFFFFF, 0x0, 0xFFFFFF, 0x0, 0x0, false, false, false⟩]

/-- Registers of the MAP page(s) (R159). -/
def regsMap : List RegSpec :=
  [⟨0x40, 1, 0x4, 0x0, 0x0, 0x0, 0x0, 0x0, false, false, false⟩,
   ⟨0x44, 1, 0x4, 0x0, 0x0, 0x0, 0x0, 0x0, false, false, false⟩,
   ⟨0x48, 1, 0x4, 0x0, 0x1FFFFF, 0x0, 0x0, 0x0, false, false, false⟩,
   ⟨0x4C, 1, 0x4, 0x0, 0xFFFFFFFF, 0x0, 0x0, 0x0, false, false, false⟩,
   ⟨0x50, 1, 0x4, 0x0, 0xFFFFFFFF, 0x0, 0x0, 0x0, false, false, false⟩,
   ⟨0x54, 1, 0x4, 0x0, 0x0, 0x0, 0x0, 0x0, false, false, true⟩,
   ⟨0x58, 1, 0x4, 0x0, 0x0, 0x0, 0x0, 0x0, false, false, false⟩,
   ⟨0x60, 1, 0x4, 0x0, 0x1FFFFF, 0x0, 0x0, 0x0, false, false, false⟩,
   ⟨0x64, 4, 0x4, 0x0, 0x0, 0x0, 0x0, 0x0, false, false, false⟩,
   ⟨0x80, 4, 0x4, 0x0, 0x0, 0x0, 0x0, 0x0, true, false, false⟩,
   ⟨0x90, 1, 0x4, 0x0, 0x0, 0x0, 0x0, 0x0, false, false, false⟩,
   ⟨0x94, 1, 0x4, 0x0, 0x0, 0x0, 0x0, 0x0, false, false, false⟩,
   ⟨0x98, 1, 0x4, 0x0, 0x0, 0x0, 0x0, 0x0, true, false, false⟩,
   ⟨0x9C, 1, 0x4, 0x0, 0x0, 0x0, 0x0, 0x0, false, false, true⟩,
   ⟨0x100, 64, 0x4, 0x0, 0x0, 0x0, 0x0, 0x0, false, false, false⟩]

/-- Registers of the EPH page(s) (R195). -/
def regsEph : List RegSpec :=
  [⟨0x40, 1, 0x4, 0x0, 0x0, 0x0, 0x0, 0x0, false, false, false⟩,
   ⟨0x44, 1, 0x4, 0x0, 0x0, 0x0, 0x0, 0x0, false, true, false⟩,
   ⟨0x48, 1, 0x4, 0x0, 0x0, 0x0, 0x0, 0x0, false, false, false⟩,
   ⟨0x4C, 1, 0x4, 0x0, 0xF, 0x0, 0x0, 0x0, false, false, false⟩,
   ⟨0x50, 1, 0x4, 0x0, 0x0, 0x0, 0x0, 0x0, false, false, false⟩,
   ⟨0x54, 1, 0x4, 0x0, 0x0, 0x0, 0x0, 0x0, true, false, false⟩,
   ⟨0x58, 1, 0x4, 0x0, 0x0, 0xFFFF, 0x0, 0x0, false, false, false⟩,
   ⟨0x5C, 1, 0x4, 0x0, 0x0, 0xFFFF, 0x0, 0x0, false, false, false⟩,
   ⟨0x60, 1, 0x4, 0x0, 0x0, 0x0, 0x0, 0x0, false, false, false⟩,
   ⟨0x64, 1, 0x4, 0x0, 0x0, 0x0, 0x0, 0x0, true, false, false⟩,
   ⟨0x68, 1, 0x4, 0x0, 0x0, 0x0, 0x0, 0x0, true, false, false⟩,
   ⟨0x6C, 1, 0x4, 0x0, 0x0, 0x0, 0x0, 0x0, false, false, false⟩]

/-- Registers of the SPD page(s) (R250). -/
def regsSpd : List RegSpec :=
  [⟨0x40, 1, 0x4, 0x0, 0x0, 0xF73, 0x0, 0x0, false, false, false⟩,
   ⟨0x44, 1, 0x4, 0xFFFFFF, 0x0, 0xFFFFFF, 0x0, 0x0, false, false, false⟩,
   ⟨0x48, 1, 0x4, 0x1, 0x0, 0x3FFF, 0x0, 0x0, false, false, false⟩,
   ⟨0x4C, 1, 0x4, 0x3E8, 0x0, 0xFFFF, 0x0, 0x0, false, false, false⟩,
   ⟨0x50, 1, 0x4, 0x2, 0x0, 0xFFFF001F, 0x0, 0x0, false, false, false⟩,
   ⟨0x54, 1, 0x4, 0x0, 0x0, 0xFFFF, 0x0, 0x0, false, false, false⟩,
   ⟨0x58, 1, 0x4, 0x0, 0x0, 0x0, 0x0, 0x0, false, false, false⟩,
   ⟨0x5C, 1, 0x4, 0x0, 0x0, 0x0, 0x0, 0x0, false, false, false⟩,
   ⟨0x60, 1, 0x4, 0x0, 0x0, 0x0, 0x0, 0x0, false, false, false⟩,
   ⟨0x64, 1, 0x4, 0x0, 0x0, 0x0, 0x0, 0x0, true, false, false⟩,
   ⟨0x68, 1, 0x4, 0x0, 0x0, 0x0, 0x0, 0x0, false, true, false⟩,
   ⟨0x6C, 1, 0x4, 0x0, 0x0, 0x0, 0x0, 0x0, false, false, false⟩,
   ⟨0x70, 1, 0x4, 0x0, 0x0, 0x0, 0x0, 0x0, false, false, false⟩,
   ⟨0x74, 1, 0x4, 0x0, 0x0, 0x0, 0x0, 0x0, false, false, false⟩,
   ⟨0x78, 1, 0x4, 0x0, 0x0, 0x0, 0x0, 0x0, true, false, false⟩,
   ⟨0x7C, 1, 0x4, 0x0, 0x0, 0x0, 0x0, 0x0, false, false, false⟩,
   ⟨0x80, 1, 0x4, 0x0, 0x0, 0x0, 0x0, 0x0, false, false, false⟩,
   ⟨0x84, 1, 0x4, 0x0, 0x0, 0x0, 0x0, 0x0, false, false, true⟩,
   ⟨0x90, 4, 0x4, 0x0, 0x0, 0xBFFF3FFF, 0x0, 0x0, false, false, false⟩,
   ⟨0xA0, 4, 0x4, 0x0, 0x0, 0xFFFF, 0x0, 0x0, false, false, false⟩] ++
  [⟨0xB0, 1, 0x4, 0x0, 0x0, 0xFF, 0x0, 0x0, false, false, false⟩,
   ⟨0xB4, 1, 0x4, 0x0, 0x0, 0x0, 0x0, 0x0, false, false, false⟩]

/-- Registers of the CH page(s) (R292, R317). -/
def regsCh : List RegSpec :=
  [⟨0x40, 1, 0x4, 0x0, 0x0, 0x1F, 0x0, 0x0, false, false, false⟩,
   ⟨0x44, 1, 0x4, 0xFF000A, 0x0, 0xFF7FFF, 0x0, 0x0, false, false, false⟩,
   ⟨0x48, 1, 0x4, 0x0, 0x0, 0x7, 0x0, 0x0, false, false, false⟩,
   ⟨0x4C, 1, 0x4, 0x17000, 0x0, 0xF7FFF, 0x0, 0x0, false, false, false⟩,
   ⟨0x50, 1, 0x4, 0x1, 0x0, 0x7FFFF, 0x0, 0x0, false, false, false⟩,
   ⟨0x54, 1, 0x4, 0x0, 0x0, 0x0, 0x0, 0x0, false, false, false⟩,
   ⟨0x58, 1, 0x4, 0x0, 0x0, 0x0, 0x0, 0x0, false, false, false⟩,
   ⟨0x5C, 1, 0x4, 0x0, 0x0, 0x0, 0x0, 0x0, false, false, false⟩,
   ⟨0x60, 1, 0x4, 0x0, 0x0, 0x0, 0x0, 0x0, false, false, false⟩,
   ⟨0x64, 1, 0x4, 0x0, 0x0, 0x0, 0x0, 0x0, false, false, false⟩,
   ⟨0x68, 1, 0x4, 0xFFFF, 0x0, 0x0, 0x0, 0x0, false, false, false⟩,
   ⟨0x6C, 1, 0x4, 0x0, 0x0, 0x0, 0x0, 0x0, false, false, false⟩,
   ⟨0x70, 1, 0x4, 0x0, 0x0, 0x0, 0x0, 0x0, true, false, false⟩,
   ⟨0x74, 1, 0x4, 0x0, 0x0, 0x0, 0x0, 0x0, false, true, false⟩,
   ⟨0x78, 1, 0x4, 0x0, 0x0, 0x0, 0x0, 0x0, false, false, false⟩,
   ⟨0x7C, 1, 0x4, 0x0, 0x0, 0x0, 0x0, 0x0, false, false, true⟩,
   ⟨0x80, 1, 0x4, 0x0, 0x0, 0x0, 0x0, 0x0, true, false, false⟩,
   ⟨0x84, 1, 0x4, 0x0, 0x0, 0x0, 0x0, 0x0, true, false, false⟩,
   ⟨0x400, 1, 0x4, 0x0, 0x0, 0x1F, 0x0, 0x0, false, false, false⟩,
   ⟨0x100, 1, 0x4, 0xFF0000, 0x0, 0xFF1F37, 0x0, 0x0, false, false, false⟩] ++
  [⟨0x104, 1, 0x4, 0x0, 0x0, 0xFFF, 0x0, 0x0, false, false, false⟩,
   ⟨0x108, 1, 0x4, 0x0, 0x0, 0xFFFF, 0x0, 0x0, false, false, false⟩,
   ⟨0x10C, 1, 0x4, 0x0, 0x0, 0xFFFFFFFF, 0x0, 0x0, false, false, false⟩,
   ⟨0x110, 1, 0x4, 0xFFFF, 0x0, 0xFFFF, 0x0, 0x0, false, false, false⟩,
   ⟨0x114, 1, 0x4, 0x0, 0x0, 0xFFFF, 0x0, 0x0, false, false, false⟩,
   ⟨0x118, 1, 0x4, 0x0, 0x0, 0x0, 0x0, 0x0, false, false, false⟩,
   ⟨0x11C, 1, 0x4, 0x0, 0x0, 0x0, 0x0, 0x0, false, false, false⟩,
   ⟨0x120, 1, 0x4, 0x0, 0x0, 0x0, 0x0, 0x0, false, false, true⟩,
   ⟨0x124, 1, 0x4, 0x0, 0x0, 0x0, 0x0, 0x0, false, false, false⟩,
   ⟨0x128, 1, 0x4, 0x0, 0x0, 0x0, 0x0, 0x0, false, false, false⟩,
   ⟨0x12C, 1, 0x4, 0x0, 0x0, 0x0, 0x0, 0x0, false, false, false⟩,
   ⟨0x130, 1, 0x4, 0x0, 0x0, 0x0, 0x0, 0x0, false, false, false⟩,
   ⟨0x134, 1, 0x4, 0x0, 0x0, 0x0, 0x0, 0x0, false, false, false⟩,
   ⟨0x138, 1, 0x4, 0x0, 0x0, 0x0, 0x0, 0x0, false, false, false⟩,
   ⟨0x13C, 1, 0x4, 0x0, 0x0, 0x0, 0x0, 0x0, true, false, false⟩,
   ⟨0x140, 1, 0x4, 0x0, 0x0, 0x0, 0x0, 0x0, false, false, false⟩]

/-- Registers of the BANK page(s) (R294, R318). -/
def regsBank : List RegSpec :=
  [⟨0x40, 1, 0x4, 0x2, 0x0, 0x7, 0x0, 0x0, false, false, false⟩,
   ⟨0x44, 1, 0x4, 0x0, 0x0, 0x0, 0x0, 0x0, false, false, false⟩,
   ⟨0x48, 1, 0x4, 0x0, 0x0, 0x0, 0x0, 0x0, false, false, false⟩,
   ⟨0x4C, 1, 0x4, 0x0, 0x0, 0x0, 0x0, 0x0, false, false, false⟩,
   ⟨0x50, 1, 0x4, 0x0, 0x0, 0x0, 0x0, 0x0, false, false, false⟩,
   ⟨0x54, 1, 0x4, 0x0, 0x0, 0x0, 0x0, 0x0, false, false, false⟩,
   ⟨0x58, 1, 0x4, 0xFFFF, 0x0, 0x0, 0x0, 0x0, false, false, false⟩,
   ⟨0x5C, 1, 0x4, 0x0, 0x0, 0x0, 0x0, 0x0, false, false, false⟩,
   ⟨0x60, 1, 0x4, 0xFFFFFFFF, 0x0, 0x0, 0x0, 0x0, false, false, false⟩,
   ⟨0x64, 1, 0x4, 0x0, 0x0, 0x0, 0x0, 0x0, false, false, false⟩,
   ⟨0x68, 1, 0x4, 0x0, 0x0, 0x0, 0x0, 0x0, false, false, true⟩,
   ⟨0x6C, 1, 0x4, 0x0, 0x0, 0x0, 0x0, 0x0, true, false, false⟩,
   ⟨0x100, 1, 0x4, 0x0, 0x0, 0x7F, 0x0, 0x0, false, false, false⟩,
   ⟨0x104, 1, 0x4, 0x0, 0x0, 0x0, 0x0, 0x0, false, false, false⟩,
   ⟨0x108, 1, 0x4, 0x0, 0x0, 0x0, 0x0, 0x0, false, false, false⟩,
   ⟨0x10C, 1, 0x4, 0x0, 0x0, 0x0, 0x0, 0x0, false, false, false⟩,
   ⟨0x114, 1, 0x4, 0x0, 0x0, 0x0, 0x0, 0x0, false, false, false⟩,
   ⟨0x118, 1, 0x4, 0x0, 0x0, 0x0, 0x0, 0x0, true, false, false⟩,
   ⟨0x110, 1, 0x4, 0x0, 0x0, 0x0, 0x0, 0x0, true, false, false⟩]

/-- Registers of the MER page(s) (R341). -/
def regsMer : List RegSpec :=
  [⟨0x40, 1, 0x4, 0x0, 0x0, 0x0, 0x0, 0x0, false, true, false⟩,
   ⟨0x44, 1, 0x4, 0x0, 0x0, 0x0, 0x0, 0x0, false, false, false⟩,
   ⟨0x48, 1, 0x4, 0x0, 0x0, 0x0, 0x0, 0x0, false, true, false⟩,
   ⟨0x4C, 1, 0x4, 0x0, 0x0, 0x0, 0x0, 0x0, false, false, false⟩,
   ⟨0x50, 1, 0x4, 0x0, 0x0, 0x0, 0x0, 0x0, false, false, false⟩,
   ⟨0x54, 1, 0x4, 0x0, 0x0, 0x0, 0x0, 0x0, false, false, false⟩,
   ⟨0x58, 1, 0x4, 0x0, 0x0, 0x0, 0x0, 0x0, true, false, false⟩,
   ⟨0x5C, 1, 0x4, 0x0, 0x0, 0x0, 0x0, 0x0, false, false, false⟩,
   ⟨0x60, 1, 0x4, 0x0, 0x0, 0x0, 0x0, 0x0, true, false, false⟩,
   ⟨0x64, 1, 0x4, 0x0, 0x0, 0xFFFF, 0x0, 0x0, false, false, false⟩,
   ⟨0x68, 1, 0x4, 0x0, 0x0, 0x0, 0x0, 0x0, false, false, false⟩,
   ⟨0x6C, 1, 0x4, 0x0, 0x0, 0x0, 0x0, 0x0, false, false, false⟩,
   ⟨0x70, 1, 0x4, 0x0, 0x0, 0x0, 0x0, 0x0, false, true, false⟩,
   ⟨0x74, 1, 0x4, 0x0, 0x0, 0x0, 0x0, 0x0, false, false, false⟩,
   ⟨0x78, 1, 0x4, 0x0, 0x0, 0x0, 0x0, 0x0, false, true, false⟩,
   ⟨0x7C, 1, 0x4, 0x0, 0x0, 0x0, 0x0, 0x0, false, false, false⟩,
   ⟨0x80, 1, 0x4, 0x0, 0x0, 0x0, 0x0, 0x0, false, true, false⟩,
   ⟨0x84, 1, 0x4, 0x0, 0x0, 0x0, 0x0, 0x0, false, false, false⟩]

/-- Registers of the TMR page(s) (R342). -/
def regsTmr : List RegSpec :=
  [⟨0x40, 2, 0x4, 0x0, 0x0, 0x0, 0x0, 0x0, false, false, false⟩,
   ⟨0x100, 16, 0x30, 0x0, 0x0, 0x1F7FF, 0x0, 0x0, false, false, false⟩,
   ⟨0x104, 16, 0x30, 0x0, 0x0, 0x0, 0x0, 0x0, false, true, false⟩,
   ⟨0x108, 16, 0x30, 0x0, 0x0, 0x0, 0x0, 0x0, false, false, false⟩,
   ⟨0x10C, 16, 0x30, 0x0, 0x0, 0x0, 0x0, 0x0, false, false, true⟩,
   ⟨0x110, 16, 0x30, 0xFFFFFFFF, 0x0, 0xFFFFFFFF, 0x0, 0x0, false, false, false⟩,
   ⟨0x114, 16, 0x30, 0x0, 0x0, 0xFFFFFFFF, 0x0, 0x0, false, false, false⟩,
   ⟨0x118, 16, 0x30, 0x0, 0x0, 0x0, 0x1F0, 0x0, false, false, false⟩,
   ⟨0x11C, 16, 0x30, 0x0, 0x0, 0x0, 0x0, 0x0, false, false, false⟩,
   ⟨0x120, 16, 0x30, 0x0, 0x0, 0x1FF07, 0x0, 0x0, false, false, false⟩,
   ⟨0x124, 16, 0x30, 0x0, 0x0, 0x0, 0x0, 0x0, false, false, true⟩,
   ⟨0x128, 16, 0x30, 0x0, 0x0, 0xFF, 0x0, 0x0, false, false, false⟩,
   ⟨0x12C, 16, 0x30, 0x0, 0x0, 0x0, 0x0, 0x0, true, false, false⟩]

/-- Registers of the FAB page(s) (R375). -/
def regsFab : List RegSpec :=
  [⟨0x40, 1, 0x4, 0x0, 0x0, 0x3FF1F7, 0x0, 0x0, false, false, false⟩,
   ⟨0x44, 1, 0x4, 0x0, 0x0, 0x0, 0x0, 0x0, false, false, false⟩,
   ⟨0x48, 1, 0x4, 0x0, 0x0, 0xFFFFFFFF, 0x0, 0x0, false, false, false⟩,
   ⟨0x4C, 1, 0x4, 0x0, 0x0, 0x0, 0x0, 0x0, false, false, false⟩,
   ⟨0x50, 1, 0x4, 0x0, 0x0, 0x0, 0x0, 0x0, false, false, false⟩,
   ⟨0x54, 1, 0x4, 0x0, 0x0, 0x0, 0x0, 0x0, false, false, false⟩,
   ⟨0x58, 1, 0x4, 0x0, 0x0, 0x0, 0x0, 0x0, false, false, false⟩,
   ⟨0x5C, 1, 0x4, 0x0, 0x0, 0x0, 0x0, 0x0, false, false, false⟩,
   ⟨0x60, 1, 0x4, 0x0, 0x0, 0x0, 0x0, 0x0, true, false, false⟩,
   ⟨0x64, 1, 0x4, 0x0, 0x0, 0x0, 0x0, 0x0, true, false, false⟩,
   ⟨0x68, 1, 0x4, 0x0, 0x0, 0x0, 0x0, 0x0, true, false, false⟩,
   ⟨0x6C, 1, 0x4, 0x0, 0x0, 0x0, 0x0, 0x0, true, false, false⟩,
   ⟨0x70, 1, 0x4, 0x0, 0x0, 0x0, 0x0, 0x0, true, false, false⟩,
   ⟨0x74, 1, 0x4, 0x0, 0xF, 0x0, 0x0, 0x0, false, false, false⟩,
   ⟨0x78, 1, 0x4, 0x0, 0x0, 0x0, 0x0, 0x0, false, false, false⟩,
   ⟨0x7C, 1, 0x4, 0x0, 0x0, 0x0, 0x0, 0x0, false, false, false⟩,
   ⟨0x80, 1, 0x4, 0x0, 0x0, 0x0, 0x0, 0x0, false, false, true⟩,
   ⟨0x84, 1, 0x4, 0x0, 0x0, 0x0, 0x0, 0x0, false, false, false⟩,
   ⟨0x88, 1, 0x4, 0x0, 0x3FFF3, 0x0, 0x0, 0x0, false, false, false⟩,
   ⟨0x8C, 1, 0x4, 0x0, 0x0, 0x0, 0x0, 0x0, false, true, false⟩] ++
  [⟨0x90, 1, 0x4, 0x0, 0x0, 0x0, 0x0, 0x0, false, false, false⟩]

/-- Registers of the PORT page(s) (R376). -/
def regsPort : List RegSpec :=
  [⟨0x40, 1, 0x4, 0x0, 0x0, 0x1, 0x0, 0x0, false, false, false⟩,
   ⟨0x44, 1, 0x4, 0x0, 0x0, 0x0, 0x0, 0x0, false, false, false⟩,
   ⟨0x48, 1, 0x4, 0x0, 0x0, 0x0, 0x0, 0x0, true, false, false⟩,
   ⟨0x4C, 1, 0x4, 0x0, 0x0, 0x0, 0x0, 0x0, false, true, false⟩,
   ⟨0x50, 1, 0x4, 0x0, 0x0, 0x0, 0x0, 0x0, false, false, false⟩,
   ⟨0x54, 1, 0x4, 0x0, 0x0, 0x0, 0x0, 0x0, true, false, false⟩,
   ⟨0x58, 1, 0x4, 0x0, 0x0, 0x0, 0x0, 0x0, true, false, false⟩,
   ⟨0x5C, 1, 0x4, 0x0, 0x0, 0x0, 0x0, 0x0, true, false, false⟩,
   ⟨0x60, 1, 0x4, 0x0, 0x0, 0x0, 0x0, 0x0, false, false, false⟩,
   ⟨0x64, 1, 0x4, 0x0, 0x0, 0x0, 0x0, 0x0, true, false, false⟩,
   ⟨0x68, 1, 0x4, 0x0, 0x0, 0x0, 0x0, 0x0, false, true, false⟩,
   ⟨0x6C, 1, 0x4, 0x0, 0x0, 0x0, 0x0, 0x0, false, false, false⟩,
   ⟨0x70, 1, 0x4, 0x0, 0x0, 0x0, 0x0, 0x0, true, false, false⟩,
   ⟨0x74, 1, 0x4, 0x0, 0x0, 0x0, 0x0, 0x0, false, false, true⟩]

/-- Registers of the LANE page(s) (R377). -/
def regsLane : List RegSpec :=
  [⟨0x40, 1, 0x4, 0x0, 0x0, 0xFFFF3FFF, 0x0, 0x0, false, false, false⟩,
   ⟨0x44, 1, 0x4, 0x0, 0x0, 0x0, 0x0, 0x0, false, false, false⟩,
   ⟨0x48, 1, 0x4, 0x0, 0x0, 0x0, 0x0, 0x0, false, false, false⟩,
   ⟨0x4C, 1, 0x4, 0x0, 0x0, 0x0, 0x0, 0x0, false, false, false⟩,
   ⟨0x50, 1, 0x4, 0xFF, 0x0, 0x0, 0x0, 0x0, true, false, false⟩,
   ⟨0x54, 1, 0x4, 0x0, 0x0, 0x0, 0x0, 0x0, false, true, false⟩,
   ⟨0x58, 1, 0x4, 0x0, 0x0, 0x0, 0x0, 0x0, false, false, false⟩,
   ⟨0x400, 1, 0x4, 0x0, 0x7, 0x0, 0x0, 0x0, false, false, false⟩,
   ⟨0x404, 1, 0x4, 0x0, 0x0, 0x0, 0x0, 0x0, true, false, false⟩]

/-- Registers of the ETH page(s) (R398). -/
def regsEth : List RegSpec :=
  [⟨0x40, 1, 0x4, 0x400000, 0x0, 0xFFFFBF, 0x0, 0x0, false, false, false⟩,
   ⟨0x44, 1, 0x4, 0x0, 0x0, 0xFFF, 0x0, 0x0, false, false, false⟩,
   ⟨0x48, 1, 0x4, 0x0, 0x0, 0xFFFFFFFF, 0x0, 0x0, false, false, false⟩,
   ⟨0x4C, 1, 0x4, 0x0, 0x0, 0xFFFF, 0x0, 0x0, false, false, false⟩,
   ⟨0x50, 1, 0x4, 0x0, 0x0, 0xFFFFFFFF, 0x0, 0x0, false, false, false⟩,
   ⟨0x54, 1, 0x4, 0x0, 0x0, 0x0, 0x0, 0x0, false, false, false⟩,
   ⟨0x58, 1, 0x4, 0x0, 0x0, 0x0, 0x0, 0x0, true, false, false⟩,
   ⟨0x5C, 1, 0x4, 0x0, 0x0, 0x0, 0x0, 0x0, true, false, false⟩,
   ⟨0x60, 1, 0x4, 0x0, 0x0, 0x0, 0x0, 0x0, true, false, false⟩,
   ⟨0x64, 1, 0x4, 0x0, 0x0, 0x0, 0x0, 0x0, true, false, false⟩,
   ⟨0x68, 1, 0x4, 0x0, 0x0, 0x0, 0x0, 0x0, true, false, false⟩,
   ⟨0x6C, 1, 0x4, 0x0, 0x0, 0x0, 0x0, 0x0, false, false, false⟩,
   ⟨0x70, 1, 0x4, 0x0, 0x0, 0x0, 0x0, 0x0, false, false, false⟩]

/-- Registers of the SAFE page(s) (R399). -/
def regsSafe : List RegSpec :=
  [⟨0x40, 1, 0x4, 0xA3E088B5, 0x0, 0xFFFFFFFF, 0x0, 0x0, false, false, false⟩,
   ⟨0x44, 1, 0x4, 0x0, 0x0, 0x0, 0x0, 0x0, false, false, false⟩,
   ⟨0x48, 1, 0x4, 0x0, 0x0, 0x0, 0x0, 0x0, true, false, false⟩,
   ⟨0x4C, 1, 0x4, 0x0, 0x0, 0x0, 0x0, 0x0, false, true, false⟩,
   ⟨0x50, 1, 0x4, 0x0, 0x0, 0x0, 0x0, 0x0, false, false, false⟩,
   ⟨0x60, 1, 0x4, 0x0, 0x3F, 0x0, 0x0, 0x0, false, false, false⟩,
   ⟨0x64, 1, 0x4, 0x0, 0x0, 0x0, 0x0, 0x0, false, false, false⟩,
   ⟨0x68, 1, 0x4, 0x0, 0x0, 0x0, 0x0, 0x0, false, false, false⟩,
   ⟨0x6C, 1, 0x4, 0x0, 0x0, 0x0, 0x0, 0x0, false, false, false⟩,
   ⟨0x70, 1, 0x4, 0x0, 0x0, 0x0, 0x0, 0x0, false, false, false⟩,
   ⟨0x74, 1, 0x4, 0x0, 0x0, 0x0, 0x0, 0x0, false, false, false⟩,
   ⟨0x78, 1, 0x4, 0x0, 0x0, 0x0, 0x0, 0x0, false, true, false⟩,
   ⟨0x7C, 1, 0x4, 0x0, 0x0, 0x0, 0x0, 0x0, false, false, false⟩,
   ⟨0x80, 1, 0x4, 0x0, 0x0, 0x0, 0x0, 0x0, false, false, false⟩,
   ⟨0x84, 1, 0x4, 0x0, 0x0, 0x0, 0x0, 0x0, true, false, false⟩,
   ⟨0x88, 1, 0x4, 0x0, 0x0, 0x0, 0x0, 0x0, true, false, false⟩,
   ⟨0x8C, 1, 0x4, 0x0, 0x0, 0x0, 0x0, 0x0, true, false, false⟩,
   ⟨0x90, 1, 0x4, 0x0, 0x0, 0x0, 0x0, 0x0, true, false, false⟩,
   ⟨0x94, 1, 0x4, 0x0, 0x0, 0x0, 0x0, 0x0, true, false, false⟩,
   ⟨0x98, 1, 0x4, 0x0, 0x0, 0x0, 0x0, 0x0, false, false, true⟩] ++
  [⟨0xA0, 1, 0x4, 0x0, 0x1FFF1, 0x0, 0x0, 0x0, false, false, false⟩,
   ⟨0xA4, 1, 0x4, 0x0, 0x0, 0x0, 0x0, 0x0, false, true, false⟩,
   ⟨0xA8, 1, 0x4, 0x0, 0x0, 0x0, 0x0, 0x0, false, false, false⟩]

/-- Registers of the KEYS page(s) (R400). -/
def regsKeys : List RegSpec :=
  [⟨0x40, 1, 0x4, 0x0, 0x17F, 0x0, 0x0, 0x0, false, false, false⟩,
   ⟨0x44, 4, 0x4, 0x0, 0x0, 0x0, 0x0, 0x0, false, false, true⟩,
   ⟨0x54, 1, 0x4, 0x0, 0xFFFFFFFF, 0x0, 0x0, 0x0, false, false, false⟩,
   ⟨0x58, 1, 0x4, 0x0, 0xFFFFFFFF, 0x0, 0x0, 0x0, false, true, false⟩,
   ⟨0x5C, 1, 0x4, 0x0, 0xFFFFFFFF, 0x0, 0x0, 0x0, false, false, false⟩,
   ⟨0x60, 1, 0x4, 0x0, 0xFFFFFFFF, 0x0, 0x0, 0x0, false, true, false⟩,
   ⟨0x64, 1, 0x4, 0x0, 0xFFFFFFFF, 0x0, 0x0, 0x0, false, false, false⟩,
   ⟨0x68, 1, 0x4, 0x0, 0x0, 0x0, 0x0, 0x0, false, false, true⟩,
   ⟨0x6C, 1, 0x4, 0x0, 0x0, 0x0, 0x0, 0x0, false, false, false⟩,
   ⟨0x70, 1, 0x4, 0x0, 0x0, 0x0, 0x0, 0x0, false, false, false⟩]

/-- Registers of the OTP page(s) (R426). -/
def regsOtp : List RegSpec :=
  [⟨0x40, 1, 0x4, 0x0, 0x0, 0x0, 0x0, 0x0, false, false, false⟩,
   ⟨0x44, 1, 0x4, 0x0, 0x0, 0x0, 0x0, 0x0, false, true, false⟩,
   ⟨0x48, 1, 0x4, 0x0, 0x0, 0x0, 0x0, 0x0, false, false, false⟩,
   ⟨0x4C, 1, 0x4, 0x0, 0x0, 0x0, 0x0, 0x0, false, false, false⟩,
   ⟨0x50, 1, 0x4, 0x0, 0x0, 0x0, 0x0, 0x0, false, false, false⟩,
   ⟨0x54, 1, 0x4, 0x0, 0x0, 0x0, 0x0, 0x0, false, false, false⟩,
   ⟨0x58, 1, 0x4, 0x0, 0x0, 0x0, 0x0, 0x0, false, false, false⟩,
   ⟨0x60, 8, 0x4, 0x0, 0x0, 0x0, 0x0, 0x0, false, false, false⟩,
   ⟨0x400, 1, 0x4, 0x0, 0xFF, 0x0, 0x0, 0x0, false, false, false⟩,
   ⟨0x404, 1, 0x4, 0x0, 0xFFFFFFFF, 0x0, 0x0, 0x0, false, false, false⟩,
   ⟨0x408, 1, 0x4, 0x0, 0x0, 0x0, 0x0, 0x0, false, false, true⟩,
   ⟨0x40C, 1, 0x4, 0x0, 0x0, 0x0, 0x0, 0x0, false, false, false⟩]

/-- Registers of the LCS page(s) (R427). -/
def regsLcs : List RegSpec :=
  [⟨0x40, 1, 0x4, 0x0, 0x0, 0x0, 0x0, 0x0, false, false, false⟩,
   ⟨0x44, 1, 0x4, 0x0, 0x0, 0x0, 0x0, 0x0, false, false, true⟩,
   ⟨0x48, 1, 0x4, 0x0, 0x0, 0x0, 0x0, 0x0, false, false, false⟩,
   ⟨0x4C, 1, 0x4, 0x0, 0x0, 0x0, 0x0, 0x0, false, false, false⟩,
   ⟨0x50, 1, 0x4, 0x0, 0x0, 0x0, 0x0, 0x0, false, false, false⟩,
   ⟨0x54, 1, 0x4, 0x0, 0x0, 0x0, 0x0, 0x0, false, false, false⟩,
   ⟨0x58, 1, 0x4, 0x0, 0x0, 0x0, 0x0, 0x0, false, false, false⟩,
   ⟨0x5C, 1, 0x4, 0x0, 0x0, 0x0, 0x0, 0x0, false, false, false⟩,
   ⟨0x60, 6, 0x4, 0xFFFFFF, 0x0, 0x0, 0x0, 0x0, false, false, false⟩,
   ⟨0x400, 1, 0x4, 0x0, 0x1FF, 0x0, 0x0, 0x0, false, false, false⟩,
   ⟨0x404, 1, 0x4, 0x0, 0x0, 0x0, 0x0, 0x0, false, false, true⟩,
   ⟨0x408, 1, 0x4, 0x0, 0x0, 0x0, 0x0, 0x0, false, false, false⟩]

/-- Registers of the RNG page(s) (R428). -/
def regsRng : List RegSpec :=
  [⟨0x40, 1, 0x4, 0x0, 0x0, 0x0, 0x0, 0x0, false, false, false⟩,
   ⟨0x44, 1, 0x4, 0x0, 0x0, 0x0, 0x0, 0x0, true, false, false⟩,
   ⟨0x48, 1, 0x4, 0x0, 0x0, 0x0, 0x0, 0x0, true, false, false⟩,
   ⟨0x4C, 1, 0x4, 0x0, 0x0, 0x0, 0x0, 0x0, true, false, false⟩]

/-- Registers of the CFG page(s) (R451). -/
def regsCfg : List RegSpec :=
  [⟨0x40, 1, 0x4, 0x0, 0x0, 0x0, 0x0, 0x0, false, false, false⟩,
   ⟨0x44, 1, 0x4, 0x0, 0x0, 0x0, 0x0, 0x0, false, false, false⟩,
   ⟨0x48, 4, 0x4, 0x0, 0x0, 0x0, 0x0, 0x0, false, false, false⟩,
   ⟨0x58, 1, 0x4, 0x0, 0x7FFFFF, 0x0, 0x0, 0x0, false, false, false⟩,
   ⟨0x5C, 1, 0x4, 0x0, 0x0, 0x0, 0x0, 0x0, false, false, true⟩,
   ⟨0x60, 1, 0x4, 0x0, 0x0, 0x0, 0x0, 0x0, false, false, true⟩,
   ⟨0x64, 1, 0x4, 0x0, 0x0, 0x0, 0x0, 0x0, false, false, true⟩,
   ⟨0x68, 1, 0x4, 0x0, 0x0, 0x0, 0x0, 0x0, false, false, false⟩,
   ⟨0x6C, 1, 0x4, 0x0, 0x0, 0x0, 0x0, 0x0, false, true, false⟩,
   ⟨0x70, 1, 0x4, 0x0, 0x0, 0x0, 0x0, 0x0, false, false, false⟩,
   ⟨0x80, 1, 0x4, 0x0, 0x1F3, 0x0, 0x0, 0x0, false, false, false⟩,
   ⟨0x84, 4, 0x4, 0x0, 0x0, 0x0, 0x0, 0x0, false, false, false⟩,
   ⟨0x94, 4, 0x4, 0x0, 0x0, 0x0, 0x0, 0x0, false, false, true⟩,
   ⟨0xA4, 1, 0x4, 0x0, 0x0, 0x0, 0x0, 0x0, false, false, true⟩,
   ⟨0xA8, 1, 0x4, 0x0, 0x0, 0x0, 0x0, 0x0, false, false, false⟩,
   ⟨0xAC, 1, 0x4, 0x0, 0x0, 0x0, 0x0, 0x0, false, false, false⟩,
   ⟨0xB0, 4, 0x4, 0x0, 0x0, 0x0, 0x0, 0x0, false, false, false⟩,
   ⟨0xC0, 13, 0x4, 0x0, 0x0, 0x0, 0x0, 0x0, false, false, true⟩,
   ⟨0x100, 1, 0x4, 0x0, 0x0, 0x0, 0x0, 0x0, false, false, true⟩,
   ⟨0x104, 1, 0x4, 0x0, 0x0, 0x0, 0x0, 0x0, false, false, false⟩] ++
  [⟨0x108, 1, 0x4, 0x0, 0x0, 0x0, 0x0, 0x0, false, false, true⟩,
   ⟨0x10C, 1, 0x4, 0x0, 0x1FF000F, 0x0, 0x0, 0x0, false, false, false⟩,
   ⟨0x110, 1, 0x4, 0x0, 0xFFFF, 0x0, 0x0, 0x0, false, false, false⟩,
   ⟨0x114, 1, 0x4, 0x0, 0x0, 0x0, 0x0, 0x0, false, false, true⟩,
   ⟨0x118, 1, 0x4, 0x0, 0x0, 0x0, 0x0, 0x0, false, false, false⟩,
   ⟨0x120, 1, 0x4, 0x0, 0x0, 0x0, 0x0, 0x0, false, false, false⟩,
   ⟨0x124, 1, 0x4, 0x0, 0xFFFFFFFF, 0x0, 0x0, 0x0, false, false, false⟩,
   ⟨0x140, 16, 0x4, 0x0, 0x0, 0x0, 0x0, 0x0, false, false, false⟩,
   ⟨0x180, 4, 0x4, 0x0, 0x0, 0x0, 0x0, 0x0, false, false, false⟩,
   ⟨0x190, 39, 0x4, 0x0, 0x0, 0x0, 0x0, 0x0, false, false, true⟩,
   ⟨0x230, 1, 0x4, 0x0, 0x0, 0x0, 0x0, 0x0, false, false, true⟩,
   ⟨0x234, 1, 0x4, 0x0, 0x0, 0x0, 0x0, 0x0, false, false, false⟩]

/-- Registers of the FLT0 page(s) (R477). -/
def regsFlt0 : List RegSpec :=
  [⟨0x40, 1, 0x4, 0x8, 0x0, 0x0, 0x0, 0x0, false, false, false⟩,
   ⟨0x44, 1, 0x4, 0x0, 0x0, 0x0, 0x0, 0x0, false, false, true⟩,
   ⟨0x48, 1, 0x4, 0x0, 0x0, 0x0, 0x0, 0x0, false, false, false⟩,
   ⟨0x4C, 1, 0x4, 0x0, 0x0, 0x0, 0x0, 0x0, false, false, false⟩,
   ⟨0x50, 1, 0x4, 0x0, 0x0, 0x0, 0x0, 0x0, false, true, false⟩,
   ⟨0x54, 1, 0x4, 0x0, 0x0, 0x0, 0x0, 0x0, false, false, false⟩,
   ⟨0x58, 1, 0x4, 0x0, 0x0, 0x0, 0x0, 0x0, false, false, false⟩,
   ⟨0x5C, 1, 0x4, 0x0, 0x0, 0x0, 0x0, 0x0, false, false, false⟩,
   ⟨0x60, 1, 0x4, 0x0, 0x0, 0x0, 0x0, 0x0, false, true, false⟩,
   ⟨0x64, 1, 0x4, 0x0, 0x0, 0x0, 0x0, 0x0, false, false, false⟩,
   ⟨0x68, 1, 0x4, 0x0, 0x0, 0x0, 0x0, 0x0, true, false, false⟩,
   ⟨0x6C, 1, 0x4, 0x0, 0x0, 0x0, 0x0, 0x0, true, false, false⟩,
   ⟨0x70, 1, 0x4, 0x0, 0x0, 0x0, 0x0, 0x0, true, false, false⟩,
   ⟨0x74, 5, 0x4, 0x0, 0x0, 0x0, 0x0, 0x0, true, false, false⟩,
   ⟨0x88, 1, 0x4, 0x0, 0x0, 0x0, 0x0, 0x0, false, false, false⟩]

/-- Registers of the FLT1 page(s) (R478). -/
def regsFlt1 : List RegSpec :=
  [⟨0x40, 1, 0x4, 0x0, 0x0, 0x0, 0x0, 0x0, false, false, false⟩,
   ⟨0x100, 32, 0x4, 0x0, 0x0, 0x0, 0xFFFFFFFF, 0x0, false, false, false⟩,
   ⟨0x180, 32, 0x4, 0x0, 0x0, 0x0, 0x0, 0x0, false, false, false⟩,
   ⟨0x200, 32, 0x4, 0x0, 0x0, 0x0, 0x0, 0x0, true, false, false⟩,
   ⟨0x280, 32, 0x4, 0x0, 0x0, 0x0, 0x0, 0x0, false, false, false⟩]

/-- Registers of the FLT2 page(s) (R479). -/
def regsFlt2 : List RegSpec :=
  [⟨0x40, 1, 0x4, 0x0, 0x3FF, 0x0, 0x0, 0x0, false, false, false⟩,
   ⟨0x44, 1, 0x4, 0x0, 0x0, 0x0, 0x0, 0x0, false, false, false⟩,
   ⟨0x48, 1, 0x4, 0x0, 0x0, 0x0, 0x0, 0x0, false, true, false⟩,
   ⟨0x4C, 1, 0x4, 0x0, 0x0, 0x0, 0x0, 0x0, false, false, false⟩,
   ⟨0x50, 1, 0x4, 0x0, 0x0, 0x0, 0x0, 0x0, false, false, true⟩,
   ⟨0x54, 1, 0x4, 0x0, 0x0, 0x0, 0x0, 0x0, false, false, false⟩]

/-- Registers of the FLT3 page(s) (R480). -/
def regsFlt3 : List RegSpec :=
  [⟨0x40, 1, 0x4, 0x0, 0x3FF, 0x0, 0x0, 0x0, false, false, false⟩,
   ⟨0x44, 1, 0x4, 0x64, 0x0, 0xFFFFFFFF, 0x0, 0x0, false, false, false⟩,
   ⟨0x48, 1, 0x4, 0x08000001, 0x0, 0x7FFFFFF, 0x0, 0x0, false, false, false⟩,
   ⟨0x4C, 1, 0x4, 0x64, 0x0, 0x0, 0x0, 0x0, false, false, false⟩,
   ⟨0x50, 1, 0x4, 0x08000001, 0x0, 0x0, 0x0, 0x0, false, false, false⟩]

/-- Registers of the LOG page(s) (R493). -/
def regsLog : List RegSpec :=
  [⟨0x40, 1, 0x4, 0x1, 0x0, 0x1FFF, 0x0, 0x0, false, false, false⟩,
   ⟨0x44, 1, 0x4, 0x0, 0x0, 0x0, 0x0, 0x0, false, false, false⟩,
   ⟨0x48, 1, 0x4, 0x0, 0x0, 0x0, 0x0, 0x0, false, false, false⟩,
   ⟨0x4C, 1, 0x4, 0x0, 0x1FFFF, 0x0, 0x0, 0x0, false, false, false⟩,
   ⟨0x50, 1, 0x4, 0x0, 0x0, 0x0, 0x0, 0x0, false, false, false⟩,
   ⟨0x54, 1, 0x4, 0x0, 0x0, 0x0, 0x0, 0x0, false, false, false⟩,
   ⟨0x58, 1, 0x4, 0x0, 0x0, 0x0, 0x0, 0x0, false, false, false⟩,
   ⟨0x60, 4, 0x4, 0x0, 0x0, 0x0, 0x0, 0x0, true, false, false⟩,
   ⟨0x70, 1, 0x4, 0x0, 0x0, 0x0, 0x0, 0x0, true, false, false⟩,
   ⟨0x74, 1, 0x4, 0x0, 0x0, 0x0, 0x0, 0x0, false, true, false⟩,
   ⟨0x78, 1, 0x4, 0x0, 0x0, 0x0, 0x0, 0x0, false, false, false⟩,
   ⟨0x7C, 1, 0x4, 0x0, 0x0, 0x0, 0x0, 0x0, false, false, false⟩,
   ⟨0x80, 1, 0x4, 0x0, 0xFFFFFFFF, 0x0, 0x0, 0x0, false, false, false⟩,
   ⟨0x84, 8, 0x4, 0x0, 0x0, 0x0, 0x0, 0x0, false, false, false⟩,
   ⟨0xA4, 1, 0x4, 0x0, 0x0, 0x0, 0x0, 0x0, false, false, false⟩,
   ⟨0xA8, 1, 0x4, 0x0, 0x0, 0x0, 0x0, 0x0, false, false, false⟩,
   ⟨0xAC, 1, 0x4, 0x0, 0x0, 0x0, 0x0, 0x0, false, false, true⟩]

/-- Registers of the EVT page(s) (R494). -/
def regsEvt : List RegSpec :=
  [⟨0x40, 1, 0x4, 0x0, 0x0, 0x0, 0x0, 0x0, false, false, false⟩,
   ⟨0x44, 1, 0x4, 0x0, 0x7FF, 0x0, 0x0, 0x0, false, false, false⟩,
   ⟨0x48, 1, 0x4, 0x0, 0x1FF, 0x0, 0x0, 0x0, false, false, false⟩,
   ⟨0x4C, 1, 0x4, 0x0, 0x0, 0x0, 0x0, 0x0, false, false, true⟩,
   ⟨0x50, 1, 0x4, 0x0, 0x0, 0x0, 0x0, 0x0, false, false, false⟩,
   ⟨0x54, 1, 0x4, 0x0, 0x0, 0x0, 0x0, 0x0, false, false, false⟩,
   ⟨0x58, 1, 0x4, 0x0, 0x0, 0x0, 0x0, 0x0, false, false, false⟩,
   ⟨0x5C, 1, 0x4, 0x0, 0x0, 0x0, 0x0, 0x0, false, false, false⟩,
   ⟨0x100, 48, 0x4, 0x0, 0x0, 0x0, 0xFFFFFFFF, 0x0, false, false, false⟩,
   ⟨0x200, 48, 0x4, 0x0, 0x0, 0x0, 0x0, 0x0, true, false, false⟩]

/-- Registers of the VERN page(s) (R509). -/
def regsVern : List RegSpec :=
  [⟨0x40, 1, 0x4, 0x0, 0x0, 0x0, 0x0, 0x0, false, false, false⟩,
   ⟨0x44, 1, 0x4, 0x0, 0x0, 0x3, 0x0, 0x0, false, false, false⟩,
   ⟨0x48, 1, 0x4, 0x143C, 0x0, 0xFFFF, 0x0, 0x0, false, false, false⟩,
   ⟨0x4C, 1, 0x4, 0x5A3C1E, 0x0, 0xFFFFFF, 0x0, 0x0, false, false, false⟩,
   ⟨0x50, 1, 0x4, 0xFA0258, 0x0, 0xFFFFFFFF, 0x0, 0x0, false, false, false⟩,
   ⟨0x54, 1, 0x4, 0x186A0, 0x0, 0xFFFFFF, 0x0, 0x0, false, false, false⟩,
   ⟨0x58, 1, 0x4, 0x0, 0xFFF, 0x0, 0x0, 0x0, false, false, false⟩,
   ⟨0x5C, 1, 0x4, 0x0, 0x0, 0x0, 0x0, 0x0, false, false, false⟩,
   ⟨0x60, 1, 0x4, 0xFFFF, 0x0, 0x0, 0x0, 0x0, false, false, false⟩,
   ⟨0x64, 1, 0x4, 0xFFFF, 0x0, 0x0, 0x0, 0x0, false, false, false⟩,
   ⟨0x68, 1, 0x4, 0xFFFF, 0x0, 0x0, 0x0, 0x0, false, false, false⟩,
   ⟨0x6C, 1, 0x4, 0xFFFF, 0x0, 0x0, 0x0, 0x0, false, false, false⟩,
   ⟨0x70, 1, 0x4, 0xFFFF, 0x0, 0x0, 0x0, 0x0, false, false, false⟩,
   ⟨0x74, 1, 0x4, 0x0, 0x0, 0x0, 0x0, 0x0, false, false, false⟩,
   ⟨0x78, 1, 0x4, 0x0, 0x0, 0x0, 0x0, 0x0, false, false, false⟩,
   ⟨0x7C, 1, 0x4, 0x0, 0x0, 0x0, 0x0, 0x0, true, false, false⟩]

/-- Registers of the SUP page(s) (R526). -/
def regsSup : List RegSpec :=
  [⟨0x40, 1, 0x4, 0x0, 0x0, 0x0, 0x0, 0x0, false, false, false⟩,
   ⟨0x44, 1, 0x4, 0x0, 0x0, 0x0, 0x0, 0x0, false, false, false⟩,
   ⟨0x48, 1, 0x4, 0x0, 0x0, 0x0, 0x0, 0x0, false, false, false⟩,
   ⟨0x4C, 1, 0x4, 0x0, 0x0, 0x0, 0x0, 0x0, false, false, false⟩,
   ⟨0x50, 1, 0x4, 0x0, 0x0, 0x0, 0x0, 0x0, false, false, false⟩,
   ⟨0x54, 1, 0x4, 0x0, 0x0, 0x0, 0x0, 0x0, true, false, false⟩,
   ⟨0x58, 1, 0x4, 0x0, 0x0, 0x0, 0x0, 0x0, false, false, true⟩,
   ⟨0x5C, 1, 0x4, 0x0, 0x0, 0x0, 0x0, 0x0, false, false, false⟩,
   ⟨0x60, 1, 0x4, 0x0, 0x0, 0x0, 0x0, 0x0, true, false, false⟩,
   ⟨0x64, 1, 0x4, 0x0, 0x0, 0x0, 0x0, 0x0, false, false, false⟩,
   ⟨0x68, 1, 0x4, 0x0, 0x0, 0x0, 0x0, 0x0, false, false, false⟩]

/-- Registers of the NGL page(s) (R527). -/
def regsNgl : List RegSpec :=
  [⟨0x40, 1, 0x4, 0x0, 0x0, 0x0, 0x0, 0x0, false, false, false⟩,
   ⟨0x44, 1, 0x4, 0x0, 0x0, 0x0, 0x0, 0x0, false, true, false⟩,
   ⟨0x48, 1, 0x4, 0x0, 0x0, 0x0, 0x0, 0x0, false, false, false⟩,
   ⟨0x4C, 1, 0x4, 0x0, 0x0, 0xF, 0x0, 0x0, false, false, false⟩,
   ⟨0x50, 1, 0x4, 0x0, 0x0, 0x0, 0x0, 0x0, false, false, true⟩,
   ⟨0x54, 1, 0x4, 0x0, 0xFFFFFFFF, 0x0, 0x0, 0x0, false, true, false⟩,
   ⟨0x58, 1, 0x4, 0x0, 0xFFFF, 0x0, 0x0, 0x0, false, false, false⟩,
   ⟨0x5C, 1, 0x4, 0x0, 0x0, 0x0, 0x0, 0x0, false, false, false⟩,
   ⟨0x60, 1, 0x4, 0x0, 0x3F, 0x0, 0x0, 0x0, false, false, false⟩,
   ⟨0x64, 1, 0x4, 0x0, 0x0, 0x0, 0x0, 0x0, false, true, false⟩,
   ⟨0x68, 1, 0x4, 0x0, 0x0, 0x0, 0x0, 0x0, false, false, false⟩,
   ⟨0x6C, 1, 0x4, 0x0, 0x0, 0x0, 0x0, 0x0, false, false, false⟩,
   ⟨0x70, 1, 0x4, 0x0, 0x0, 0x0, 0x0, 0x0, false, false, false⟩]

/-- The registers of a block beyond the common layout. -/
def Block.regs : Block → List RegSpec
  | .sys => regsSys | .clk => [] | .otp => regsOtp | .lcs => regsLcs | .rng => regsRng | .vern => regsVern
  | .flt0 => regsFlt0 | .flt1 => regsFlt1 | .flt2 => regsFlt2 | .flt3 => regsFlt3 | .log => regsLog | .evt => regsEvt
  | .ngl => regsNgl | .sup => regsSup | .xfer => regsXfer | .mer => regsMer | .tmr => regsTmr | .eng => regsEng
  | .pair => regsPair | .part => regsPart | .map => regsMap | .eph => regsEph | .fab => regsFab | .port => regsPort
  | .lane => regsLane | .eth => regsEth | .safe => regsSafe | .keys => regsKeys | .host => regsHost | .cfg => regsCfg
  | .bank => regsBank | .spd => regsSpd | .ch => regsCh

/-- Block and instance of a page number (R29); none: a reserved page. -/
def pageBlock (p : Nat) : Option (Block × Nat) :=
  match p with
  | 0x000 => some (.sys, 0) | 0x001 => some (.clk, 0) | 0x002 => some (.otp, 0) | 0x003 => some (.lcs, 0)
  | 0x004 => some (.rng, 0) | 0x005 => some (.vern, 0) | 0x006 => some (.flt0, 0) | 0x007 => some (.flt1, 1)
  | 0x008 => some (.flt2, 2) | 0x009 => some (.flt3, 3) | 0x010 => some (.log, 0) | 0x011 => some (.evt, 0)
  | 0x012 => some (.ngl, 0) | 0x013 => some (.sup, 0) | 0x014 => some (.xfer, 0) | 0x018 => some (.mer, 0)
  | 0x019 => some (.tmr, 0) | 0x01A => some (.tmr, 1) | 0x01B => some (.tmr, 2) | 0x020 => some (.eng, 0)
  | 0x021 => some (.pair, 0) | 0x022 => some (.pair, 1) | 0x023 => some (.pair, 2) | 0x024 => some (.pair, 3)
  | 0x040 => some (.map, 0) | 0x048 => some (.eph, 0) | 0x050 => some (.fab, 0)
  | 0x070 => some (.eth, 0) | 0x071 => some (.eth, 1) | 0x072 => some (.safe, 0) | 0x073 => some (.keys, 0)
  | 0x078 => some (.host, 0) | 0x07C => some (.cfg, 0)
  | p =>
    if 0x028 ≤ p ∧ p ≤ 0x037 then some (.part, p - 0x028)
    else if 0x051 ≤ p ∧ p ≤ 0x058 then some (.port, p - 0x051)
    else if 0x060 ≤ p ∧ p ≤ 0x06B then some (.lane, p - 0x060)
    else if 0x080 ≤ p ∧ p ≤ 0x097 then some (.bank, p - 0x080)
    else if 0x0A0 ≤ p ∧ p ≤ 0x0BF then some (.spd, p - 0x0A0)
    else if 0x100 ≤ p ∧ p ≤ 0x1BF then some (.ch, p - 0x100)
    else none

/-- PG_ID block type (R29). -/
def Block.pgType : Block → Nat
  | .sys => 0x01 | .clk => 0x02 | .otp => 0x03 | .lcs => 0x04 | .rng => 0x05 | .vern => 0x06
  | .flt0 | .flt1 | .flt2 | .flt3 => 0x07 | .log => 0x08 | .evt => 0x09 | .ngl => 0x0A | .sup => 0x0B | .xfer => 0x0C
  | .mer => 0x0D | .tmr => 0x0E | .eng => 0x0F | .pair => 0x10 | .part => 0x11 | .map => 0x12 | .eph => 0x13
  | .fab => 0x14 | .port => 0x15 | .lane => 0x16 | .eth => 0x17 | .safe => 0x18 | .keys => 0x19 | .host => 0x1A
  | .cfg => 0x1B | .bank => 0x1C | .spd => 0x1D | .ch => 0x1E

/-- Does this row describe the register at offset `o` of its page? -/
def RegSpec.at (r : RegSpec) (o : Nat) : Bool :=
  decide (r.off ≤ o) && decide ((o - r.off) % r.step = 0) && decide ((o - r.off) / r.step < r.reps)

/-- The event bits of a block's pages (R250, R292, R294, R317, R341, R342, R376, R398, R477); the others have no page event. -/
def evMask : Block → BitVec 32
  | .flt0 | .mer | .port | .eth | .spd => 0xF
  | .bank => 7
  | .ch => 0x1F
  | .tmr => 0xFFFFFFFF
  | _ => 0

/-- A register of the common layout as it stands on instance `i` of a block: EV_EN has the bits of the block's events, and a PART page is
always owned by its partition (R30, R550). -/
def commonSpec (b : Block) (i : Nat) (r : RegSpec) : RegSpec :=
  if r.off = 0x1C then { r with rw := evMask b }
  else if r.off = 0x38 && b = .part then { r with rst := BitVec.ofNat 32 (0x30080 + i) } else r

/-- The row of the register at BAR0 offset `a`, 4-aligned; none where no register stands there (R6). -/
def regSpecAt (a : Nat) : Option RegSpec :=
  match pageBlock (a / 0x1000) with
  | none => none
  | some (b, i) =>
    match regsCommon.find? (fun r => r.at (a % 0x1000)) with
    | some r => some (commonSpec b i r)
    | none => b.regs.find? (fun r => r.at (a % 0x1000))

/-- The value a register holds at reset, and RC's value after a read (R5). -/
def regReset (a : Nat) : BitVec 32 :=
  match regSpecAt a with
  | some r => r.rst
  | none => 0

/-- BAR0 offset of a page. -/
def page (p : Nat) : Nat := p * 0x1000

/-! BAR0 offsets of the named registers: `r<Block><REGISTER>`, with the instance (and the index) where there are several. -/

def rPg_PG_ID (p : Nat) : Nat := page p + 0x0
def rPg_PG_VER (p : Nat) : Nat := page p + 0x4
def rPg_PG_CAPS (p : Nat) : Nat := page p + 0x8
def rPg_PG_CTRL (p : Nat) : Nat := page p + 0xC
def rPg_PG_STAT (p : Nat) : Nat := page p + 0x10
def rPg_EV_RAW (p : Nat) : Nat := page p + 0x14
def rPg_EV_STICKY (p : Nat) : Nat := page p + 0x18
def rPg_EV_EN (p : Nat) : Nat := page p + 0x1C
def rPg_EV_AGAIN (p : Nat) : Nat := page p + 0x20
def rPg_PM_CTRL (p : Nat) : Nat := page p + 0x24
def rPg_PM_STAT (p : Nat) : Nat := page p + 0x28
def rPg_INJ_KEY (p : Nat) : Nat := page p + 0x2C
def rPg_INJ_CTRL (p : Nat) : Nat := page p + 0x30
def rPg_INJ_STAT (p : Nat) : Nat := page p + 0x34
def rPg_OWNER (p : Nat) : Nat := page p + 0x38
def rPg_PG_CRC (p : Nat) : Nat := page p + 0x3C
def rHost_LINK_STAT : Nat := page 0x078 + 0x40
def rHost_PRIV_PCIE : Nat := page 0x078 + 0x44
def rHost_PRIV_SPI : Nat := page 0x078 + 0x48
def rHost_SPI_ERR : Nat := page 0x078 + 0x4C
def rHost_PCIE_ERR : Nat := page 0x078 + 0x50
def rHost_DENY_ADDR : Nat := page 0x078 + 0x54
def rHost_DENY_MASTER : Nat := page 0x078 + 0x58
def rXfer_XF_CTRL : Nat := page 0x014 + 0x40
def rXfer_XF_STAT : Nat := page 0x014 + 0x44
def rXfer_XQ_BASE_LO (q : Nat) : Nat := page 0x014 + 0x100 + 0x20 * q
def rXfer_XQ_BASE_HI (q : Nat) : Nat := page 0x014 + 0x104 + 0x20 * q
def rXfer_XQ_SIZE (q : Nat) : Nat := page 0x014 + 0x108 + 0x20 * q
def rXfer_XQ_TAIL (q : Nat) : Nat := page 0x014 + 0x10C + 0x20 * q
def rXfer_XQ_HEAD (q : Nat) : Nat := page 0x014 + 0x110 + 0x20 * q
def rXfer_XQ_DONE (q : Nat) : Nat := page 0x014 + 0x114 + 0x20 * q
def rEng_ENG_STAT : Nat := page 0x020 + 0x40
def rEng_MF_CFG : Nat := page 0x020 + 0x44
def rEng_MF_COUNT_LO : Nat := page 0x020 + 0x48
def rEng_MF_COUNT_HI : Nat := page 0x020 + 0x4C
def rEng_MINOR_IDX : Nat := page 0x020 + 0x50
def rEng_SCHED_GEN : Nat := page 0x020 + 0x54
def rEng_A_T : Nat := page 0x020 + 0x58
def rEng_PAIR_LOAD (i : Nat) : Nat := page 0x020 + 0x60 + 4 * i
def rPair_PR_STAT (n : Nat) : Nat := page (0x021 + n) + 0x40
def rPair_SLOT_CYC (n : Nat) : Nat := page (0x021 + n) + 0x44
def rPair_OVR_CNT (n : Nat) : Nat := page (0x021 + n) + 0x48
def rPair_SKIP_CNT (n : Nat) : Nat := page (0x021 + n) + 0x4C
def rPair_IDLE_MIN (n : Nat) : Nat := page (0x021 + n) + 0x50
def rPair_ENTRIES (n : Nat) : Nat := page (0x021 + n) + 0x54
def rPair_MM_CNT (n : Nat) : Nat := page (0x021 + n) + 0x80
def rPair_RECOV_CNT (n : Nat) : Nat := page (0x021 + n) + 0x84
def rPair_ABANDON_CNT (n : Nat) : Nat := page (0x021 + n) + 0x88
def rPair_MM_LAST (n : Nat) : Nat := page (0x021 + n) + 0x8C
def rPair_MM_TIME_LO (n : Nat) : Nat := page (0x021 + n) + 0x90
def rPair_MM_TIME_HI (n : Nat) : Nat := page (0x021 + n) + 0x94
def rPair_RECOV_LAST (n : Nat) : Nat := page (0x021 + n) + 0x98
def rPair_RECOV_MAX (n : Nat) : Nat := page (0x021 + n) + 0x9C
def rPair_SIG_MAIN_LO (n : Nat) : Nat := page (0x021 + n) + 0xA0
def rPair_SIG_MAIN_HI (n : Nat) : Nat := page (0x021 + n) + 0xA4
def rPair_SIG_CHK_LO (n : Nat) : Nat := page (0x021 + n) + 0xA8
def rPair_SIG_CHK_HI (n : Nat) : Nat := page (0x021 + n) + 0xAC
def rPair_COLL_CNT (n : Nat) : Nat := page (0x021 + n) + 0xB0
def rPair_SPLIT_CTRL (n : Nat) : Nat := page (0x021 + n) + 0xB4
def rPair_DBG_CTRL (n : Nat) : Nat := page (0x021 + n) + 0x400
def rPair_DBG_STAT (n : Nat) : Nat := page (0x021 + n) + 0x404
def rPair_DBG_BP (n i : Nat) : Nat := page (0x021 + n) + 0x408 + 0x4 * i
def rPair_DBG_SEL (n : Nat) : Nat := page (0x021 + n) + 0x418
def rPair_DBG_DATA_LO (n : Nat) : Nat := page (0x021 + n) + 0x41C
def rPair_DBG_DATA_HI (n : Nat) : Nat := page (0x021 + n) + 0x420
def rPair_SE_W0 (n i : Nat) : Nat := page (0x021 + n) + 0x800 + 0x10 * i
def rPair_SE_W1 (n i : Nat) : Nat := page (0x021 + n) + 0x804 + 0x10 * i
def rPair_SE_W2 (n i : Nat) : Nat := page (0x021 + n) + 0x808 + 0x10 * i
def rPair_SE_W3 (n i : Nat) : Nat := page (0x021 + n) + 0x80C + 0x10 * i
def rPart_PT_CFG (n : Nat) : Nat := page (0x028 + n) + 0x40
def rPart_PT_MODE (n : Nat) : Nat := page (0x028 + n) + 0x44
def rPart_A_P (n : Nat) : Nat := page (0x028 + n) + 0x48
def rPart_WIN_BASE (n : Nat) : Nat := page (0x028 + n) + 0x4C
def rPart_WIN_SIZE (n : Nat) : Nat := page (0x028 + n) + 0x50
def rPart_PGM_BASE (n : Nat) : Nat := page (0x028 + n) + 0x54
def rPart_PGM_SIZE (n : Nat) : Nat := page (0x028 + n) + 0x58
def rPart_PGM_STAT (n : Nat) : Nat := page (0x028 + n) + 0x5C
def rPart_PGM_CRC_ACT (n : Nat) : Nat := page (0x028 + n) + 0x60
def rPart_PGM_CRC_INACT (n : Nat) : Nat := page (0x028 + n) + 0x64
def rPart_PGM_ALT_CRC (n : Nat) : Nat := page (0x028 + n) + 0x68
def rPart_LIST_CNT (n : Nat) : Nat := page (0x028 + n) + 0x6C
def rPart_CYC_MAX (n : Nat) : Nat := page (0x028 + n) + 0x70
def rPart_OVR_CNT (n : Nat) : Nat := page (0x028 + n) + 0x74
def rPart_TRAP_LAST (n : Nat) : Nat := page (0x028 + n) + 0x78
def rPart_LAST_END (n : Nat) : Nat := page (0x028 + n) + 0x7C
def rPart_FN_REACT_WC (n i : Nat) : Nat := page (0x028 + n) + 0x100 + 0x4 * i
def rPart_FN_REACT_LIM (n i : Nat) : Nat := page (0x028 + n) + 0x180 + 0x4 * i
def rMap_MAP_STAT : Nat := page 0x040 + 0x40
def rMap_EDIT_CNT : Nat := page 0x040 + 0x44
def rMap_DE_ID : Nat := page 0x040 + 0x48
def rMap_DE_LO : Nat := page 0x040 + 0x4C
def rMap_DE_HI : Nat := page 0x040 + 0x50
def rMap_DE_CMD : Nat := page 0x040 + 0x54
def rMap_DE_RESULT : Nat := page 0x040 + 0x58
def rMap_CQ_ID : Nat := page 0x040 + 0x60
def rMap_CQ_PAIR (i : Nat) : Nat := page 0x040 + 0x64 + 4 * i
def rMap_MISS_CNT (i : Nat) : Nat := page 0x040 + 0x80 + 4 * i
def rMap_FLT_ID : Nat := page 0x040 + 0x90
def rMap_FLT_KIND : Nat := page 0x040 + 0x94
def rMap_ECC_CORR : Nat := page 0x040 + 0x98
def rMap_INV_ALL : Nat := page 0x040 + 0x9C
def rMap_RSL (i : Nat) : Nat := page 0x040 + 0x100 + 4 * i
def rEph_EPH_STAT : Nat := page 0x048 + 0x40
def rEph_CKPT_CNT_LO : Nat := page 0x048 + 0x44
def rEph_CKPT_CNT_HI : Nat := page 0x048 + 0x48
def rEph_REC_SEL : Nat := page 0x048 + 0x4C
def rEph_REC_GEN : Nat := page 0x048 + 0x50
def rEph_ECC_CORR : Nat := page 0x048 + 0x54
def rEph_MIR_TX_CFG : Nat := page 0x048 + 0x58
def rEph_MIR_RX_CFG : Nat := page 0x048 + 0x5C
def rEph_MIR_RX_SYNC : Nat := page 0x048 + 0x60
def rEph_MIR_TX_PEAK : Nat := page 0x048 + 0x64
def rEph_MIR_GAP_CNT : Nat := page 0x048 + 0x68
def rEph_MIR_LAG : Nat := page 0x048 + 0x6C
def rSpd_SPD_CFG (n : Nat) : Nat := page (0x0A0 + n) + 0x40
def rSpd_SPD_CH (n : Nat) : Nat := page (0x0A0 + n) + 0x44
def rSpd_PPR (n : Nat) : Nat := page (0x0A0 + n) + 0x48
def rSpd_T_STAND (n : Nat) : Nat := page (0x0A0 + n) + 0x4C
def rSpd_MOTION (n : Nat) : Nat := page (0x0A0 + n) + 0x50
def rSpd_DECEL_MAX (n : Nat) : Nat := page (0x0A0 + n) + 0x54
def rSpd_SPD_STAT (n : Nat) : Nat := page (0x0A0 + n) + 0x58
def rSpd_VIEW (n : Nat) : Nat := page (0x0A0 + n) + 0x5C
def rSpd_VIEW_AGE (n : Nat) : Nat := page (0x0A0 + n) + 0x60
def rSpd_EDGE_CNT (n : Nat) : Nat := page (0x0A0 + n) + 0x64
def rSpd_LAST_EDGE_LO (n : Nat) : Nat := page (0x0A0 + n) + 0x68
def rSpd_LAST_EDGE_HI (n : Nat) : Nat := page (0x0A0 + n) + 0x6C
def rSpd_INTERVAL (n : Nat) : Nat := page (0x0A0 + n) + 0x70
def rSpd_CAPQ (n : Nat) : Nat := page (0x0A0 + n) + 0x74
def rSpd_QERR_CNT (n : Nat) : Nat := page (0x0A0 + n) + 0x78
def rSpd_REV_PULSES (n : Nat) : Nat := page (0x0A0 + n) + 0x7C
def rSpd_POS (n : Nat) : Nat := page (0x0A0 + n) + 0x80
def rSpd_CMD (n : Nat) : Nat := page (0x0A0 + n) + 0x84
def rSpd_WIN (n i : Nat) : Nat := page (0x0A0 + n) + 0x90 + 0x4 * i
def rSpd_DWELL (n i : Nat) : Nat := page (0x0A0 + n) + 0xA0 + 0x4 * i
def rSpd_IDX_TOL (n : Nat) : Nat := page (0x0A0 + n) + 0xB0
def rSpd_WIN_STAT (n : Nat) : Nat := page (0x0A0 + n) + 0xB4
def rCh_CH_CFG (n : Nat) : Nat := page (0x100 + n) + 0x40
def rCh_DI_CFG (n : Nat) : Nat := page (0x100 + n) + 0x44
def rCh_TP_CFG (n : Nat) : Nat := page (0x100 + n) + 0x48
def rCh_DO_CFG (n : Nat) : Nat := page (0x100 + n) + 0x4C
def rCh_EDGE_CFG (n : Nat) : Nat := page (0x100 + n) + 0x50
def rCh_CH_STAT (n : Nat) : Nat := page (0x100 + n) + 0x54
def rCh_VIEW (n : Nat) : Nat := page (0x100 + n) + 0x58
def rCh_VIEW_AGE (n : Nat) : Nat := page (0x100 + n) + 0x5C
def rCh_I_MEAS (n : Nat) : Nat := page (0x100 + n) + 0x60
def rCh_V_FA (n : Nat) : Nat := page (0x100 + n) + 0x64
def rCh_RON (n : Nat) : Nat := page (0x100 + n) + 0x68
def rCh_PULSE_LAST (n : Nat) : Nat := page (0x100 + n) + 0x6C
def rCh_PULSE_CNT (n : Nat) : Nat := page (0x100 + n) + 0x70
def rCh_ARM_LO (n : Nat) : Nat := page (0x100 + n) + 0x74
def rCh_ARM_HI (n : Nat) : Nat := page (0x100 + n) + 0x78
def rCh_CMD (n : Nat) : Nat := page (0x100 + n) + 0x7C
def rCh_FLT_CNT (n : Nat) : Nat := page (0x100 + n) + 0x80
def rCh_TP_MISS_CNT (n : Nat) : Nat := page (0x100 + n) + 0x84
def rCh_X_TPMASK (n : Nat) : Nat := page (0x100 + n) + 0x400
def rCh_AN_CFG (n : Nat) : Nat := page (0x100 + n) + 0x100
def rCh_AO_CFG (n : Nat) : Nat := page (0x100 + n) + 0x104
def rCh_AO_SUBV (n : Nat) : Nat := page (0x100 + n) + 0x108
def rCh_TRIM_REFS (n : Nat) : Nat := page (0x100 + n) + 0x10C
def rCh_TRIM_BTN (n : Nat) : Nat := page (0x100 + n) + 0x110
def rCh_LEAD_R (n : Nat) : Nat := page (0x100 + n) + 0x114
def rCh_TRIM_OFF (n : Nat) : Nat := page (0x100 + n) + 0x118
def rCh_TRIM_GAIN (n : Nat) : Nat := page (0x100 + n) + 0x11C
def rCh_TRIM_CMD (n : Nat) : Nat := page (0x100 + n) + 0x120
def rCh_TRIM_STAT (n : Nat) : Nat := page (0x100 + n) + 0x124
def rCh_AN_STAT (n : Nat) : Nat := page (0x100 + n) + 0x128
def rCh_RAW_MAIN (n : Nat) : Nat := page (0x100 + n) + 0x12C
def rCh_RAW_SAR (n : Nat) : Nat := page (0x100 + n) + 0x130
def rCh_T_SAMPLE (n : Nat) : Nat := page (0x100 + n) + 0x134
def rCh_CJ_USED (n : Nat) : Nat := page (0x100 + n) + 0x138
def rCh_XCHK_MAX (n : Nat) : Nat := page (0x100 + n) + 0x13C
def rCh_AO_CMD (n : Nat) : Nat := page (0x100 + n) + 0x140
def rBank_BK_CFG (n : Nat) : Nat := page (0x080 + n) + 0x40
def rBank_BK_STAT (n : Nat) : Nat := page (0x080 + n) + 0x44
def rBank_V_BANK (n : Nat) : Nat := page (0x080 + n) + 0x48
def rBank_V_RAIL (n : Nat) : Nat := page (0x080 + n) + 0x4C
def rBank_I_RAIL (n : Nat) : Nat := page (0x080 + n) + 0x50
def rBank_P_BUDGET (n : Nat) : Nat := page (0x080 + n) + 0x54
def rBank_SHUT_RON (n : Nat) : Nat := page (0x080 + n) + 0x58
def rBank_SHUT_LAST (n : Nat) : Nat := page (0x080 + n) + 0x5C
def rBank_TRANSIT (n : Nat) : Nat := page (0x080 + n) + 0x60
def rBank_I_GROUP (n : Nat) : Nat := page (0x080 + n) + 0x64
def rBank_CMD (n : Nat) : Nat := page (0x080 + n) + 0x68
def rBank_SHUT_CNT (n : Nat) : Nat := page (0x080 + n) + 0x6C
def rBank_SEQ_CFG (n : Nat) : Nat := page (0x080 + n) + 0x100
def rBank_SEQ_LEN (n : Nat) : Nat := page (0x080 + n) + 0x104
def rBank_SEQ_PER (n : Nat) : Nat := page (0x080 + n) + 0x108
def rBank_REF_DRIFT (n : Nat) : Nat := page (0x080 + n) + 0x10C
def rBank_CONV_STAT (n : Nat) : Nat := page (0x080 + n) + 0x114
def rBank_SEQ_OVR_CNT (n : Nat) : Nat := page (0x080 + n) + 0x118
def rBank_REF_DRIFT_MAX (n : Nat) : Nat := page (0x080 + n) + 0x110
def rMer_MER_LO : Nat := page 0x018 + 0x40
def rMer_MER_HI : Nat := page 0x018 + 0x44
def rMer_SF_LO : Nat := page 0x018 + 0x48
def rMer_SF_HI : Nat := page 0x018 + 0x4C
def rMer_SYNC_STAT : Nat := page 0x018 + 0x50
def rMer_OFFSET : Nat := page 0x018 + 0x54
def rMer_OFFSET_MAX : Nat := page 0x018 + 0x58
def rMer_SLEW_PEND : Nat := page 0x018 + 0x5C
def rMer_ADJ_CNT : Nat := page 0x018 + 0x60
def rMer_SYNC_LIM : Nat := page 0x018 + 0x64
def rMer_MK_ELAPSED : Nat := page 0x018 + 0x68
def rMer_MK_FRAC : Nat := page 0x018 + 0x6C
def rMer_MK_ADD_LO : Nat := page 0x018 + 0x70
def rMer_MK_ADD_HI : Nat := page 0x018 + 0x74
def rMer_STEP_LAST_LO : Nat := page 0x018 + 0x78
def rMer_STEP_LAST_HI : Nat := page 0x018 + 0x7C
def rMer_EPOCH_LO : Nat := page 0x018 + 0x80
def rMer_EPOCH_HI : Nat := page 0x018 + 0x84
def rTmr_T_CFG (t : Nat) : Nat := page (0x019 + t / 16) + 0x100 + 0x30 * (t % 16)
def rTmr_CNT (t : Nat) : Nat := page (0x019 + t / 16) + 0x104 + 0x30 * (t % 16)
def rTmr_CNT_HI (t : Nat) : Nat := page (0x019 + t / 16) + 0x108 + 0x30 * (t % 16)
def rTmr_CNT_SET (t : Nat) : Nat := page (0x019 + t / 16) + 0x10C + 0x30 * (t % 16)
def rTmr_CMP (t : Nat) : Nat := page (0x019 + t / 16) + 0x110 + 0x30 * (t % 16)
def rTmr_PHASE (t : Nat) : Nat := page (0x019 + t / 16) + 0x114 + 0x30 * (t % 16)
def rTmr_T_STAT (t : Nat) : Nat := page (0x019 + t / 16) + 0x118 + 0x30 * (t % 16)
def rTmr_CAP_DATA (t : Nat) : Nat := page (0x019 + t / 16) + 0x11C + 0x30 * (t % 16)
def rTmr_CAP_CFG (t : Nat) : Nat := page (0x019 + t / 16) + 0x120 + 0x30 * (t % 16)
def rTmr_T_CMD (t : Nat) : Nat := page (0x019 + t / 16) + 0x124 + 0x30 * (t % 16)
def rTmr_TRIG (t : Nat) : Nat := page (0x019 + t / 16) + 0x128 + 0x30 * (t % 16)
def rTmr_MATCH_CNT (t : Nat) : Nat := page (0x019 + t / 16) + 0x12C + 0x30 * (t % 16)
def rFab_FAB_CFG : Nat := page 0x050 + 0x40
def rFab_FAB_STAT : Nat := page 0x050 + 0x44
def rFab_CONF_MAP : Nat := page 0x050 + 0x48
def rFab_VIEW_A : Nat := page 0x050 + 0x4C
def rFab_VIEW_B : Nat := page 0x050 + 0x50
def rFab_SPINE_VIEW : Nat := page 0x050 + 0x54
def rFab_CFG_HASH : Nat := page 0x050 + 0x58
def rFab_EXP_CNT : Nat := page 0x050 + 0x5C
def rFab_PLANE_A_FAIL : Nat := page 0x050 + 0x60
def rFab_PLANE_B_FAIL : Nat := page 0x050 + 0x64
def rFab_DISAGREE_CNT : Nat := page 0x050 + 0x68
def rFab_INTEG_CNT : Nat := page 0x050 + 0x6C
def rFab_RX_ERR_CNT : Nat := page 0x050 + 0x70
def rFab_TOKEN_SEL : Nat := page 0x050 + 0x74
def rFab_TOKEN_EPOCH : Nat := page 0x050 + 0x78
def rFab_TOKEN_STAT : Nat := page 0x050 + 0x7C
def rFab_TOKEN_CMD : Nat := page 0x050 + 0x80
def rFab_TKO_LAST : Nat := page 0x050 + 0x84
def rFab_TBL_SEL : Nat := page 0x050 + 0x88
def rFab_TBL_DATA_LO : Nat := page 0x050 + 0x8C
def rFab_TBL_DATA_HI : Nat := page 0x050 + 0x90
def rPort_PT_CFG (n : Nat) : Nat := page (0x051 + n) + 0x40
def rPort_PT_STAT (n : Nat) : Nat := page (0x051 + n) + 0x44
def rPort_HB_MISS (n : Nat) : Nat := page (0x051 + n) + 0x48
def rPort_FEC_CORR_LO (n : Nat) : Nat := page (0x051 + n) + 0x4C
def rPort_FEC_CORR_HI (n : Nat) : Nat := page (0x051 + n) + 0x50
def rPort_FEC_UNCORR (n : Nat) : Nat := page (0x051 + n) + 0x54
def rPort_CRC_ERR (n : Nat) : Nat := page (0x051 + n) + 0x58
def rPort_AUTH_ERR (n : Nat) : Nat := page (0x051 + n) + 0x5C
def rPort_LINK_DELAY (n : Nat) : Nat := page (0x051 + n) + 0x60
def rPort_DOWN_CNT (n : Nat) : Nat := page (0x051 + n) + 0x64
def rPort_DOWN_TIME_LO (n : Nat) : Nat := page (0x051 + n) + 0x68
def rPort_DOWN_TIME_HI (n : Nat) : Nat := page (0x051 + n) + 0x6C
def rPort_TX_PEAK (n : Nat) : Nat := page (0x051 + n) + 0x70
def rPort_CMD (n : Nat) : Nat := page (0x051 + n) + 0x74
def rLane_LN_CFG (n : Nat) : Nat := page (0x060 + n) + 0x40
def rLane_LN_STAT (n : Nat) : Nat := page (0x060 + n) + 0x44
def rLane_EYE_H (n : Nat) : Nat := page (0x060 + n) + 0x48
def rLane_EYE_W (n : Nat) : Nat := page (0x060 + n) + 0x4C
def rLane_EYE_H_MIN (n : Nat) : Nat := page (0x060 + n) + 0x50
def rLane_SYM_ERR_LO (n : Nat) : Nat := page (0x060 + n) + 0x54
def rLane_SYM_ERR_HI (n : Nat) : Nat := page (0x060 + n) + 0x58
def rLane_TEST_CTRL (n : Nat) : Nat := page (0x060 + n) + 0x400
def rLane_TEST_ERR (n : Nat) : Nat := page (0x060 + n) + 0x404
def rEth_ETH_CFG (n : Nat) : Nat := page (0x070 + n) + 0x40
def rEth_VID (n : Nat) : Nat := page (0x070 + n) + 0x44
def rEth_MAC_LO (n : Nat) : Nat := page (0x070 + n) + 0x48
def rEth_MAC_HI (n : Nat) : Nat := page (0x070 + n) + 0x4C
def rEth_IP_ADDR (n : Nat) : Nat := page (0x070 + n) + 0x50
def rEth_ETH_STAT (n : Nat) : Nat := page (0x070 + n) + 0x54
def rEth_RX_FRAMES (n : Nat) : Nat := page (0x070 + n) + 0x58
def rEth_RX_DISCARD (n : Nat) : Nat := page (0x070 + n) + 0x5C
def rEth_FCS_ERR (n : Nat) : Nat := page (0x070 + n) + 0x60
def rEth_TX_FRAMES (n : Nat) : Nat := page (0x070 + n) + 0x64
def rEth_TX_PEAK (n : Nat) : Nat := page (0x070 + n) + 0x68
def rEth_PTP_OFFSET (n : Nat) : Nat := page (0x070 + n) + 0x6C
def rEth_PTP_DELAY (n : Nat) : Nat := page (0x070 + n) + 0x70
def rSafe_SF_CFG : Nat := page 0x072 + 0x40
def rSafe_SF_STAT : Nat := page 0x072 + 0x44
def rSafe_UNKNOWN_CNT : Nat := page 0x072 + 0x48
def rSafe_HWM_LO : Nat := page 0x072 + 0x4C
def rSafe_HWM_HI : Nat := page 0x072 + 0x50
def rSafe_CONN_SEL : Nat := page 0x072 + 0x60
def rSafe_CONN_CFG : Nat := page 0x072 + 0x64
def rSafe_CONN_ID : Nat := page 0x072 + 0x68
def rSafe_CONN_WD : Nat := page 0x072 + 0x6C
def rSafe_CONN_STAT : Nat := page 0x072 + 0x70
def rSafe_SEQ_L : Nat := page 0x072 + 0x74
def rSafe_TS_L_LO : Nat := page 0x072 + 0x78
def rSafe_TS_L_HI : Nat := page 0x072 + 0x7C
def rSafe_LAST_EPOCH : Nat := page 0x072 + 0x80
def rSafe_GAP_CNT : Nat := page 0x072 + 0x84
def rSafe_DUP_CNT : Nat := page 0x072 + 0x88
def rSafe_OLD_CNT : Nat := page 0x072 + 0x8C
def rSafe_AUTH_CNT : Nat := page 0x072 + 0x90
def rSafe_CRC_CNT : Nat := page 0x072 + 0x94
def rSafe_CMD : Nat := page 0x072 + 0x98
def rSafe_TBL_SEL : Nat := page 0x072 + 0xA0
def rSafe_TBL_DATA_LO : Nat := page 0x072 + 0xA4
def rSafe_TBL_DATA_HI : Nat := page 0x072 + 0xA8
def rKeys_KEY_SEL : Nat := page 0x073 + 0x40
def rKeys_KEY_DATA (i : Nat) : Nat := page 0x073 + 0x44 + 4 * i
def rKeys_KEY_EPOCH : Nat := page 0x073 + 0x54
def rKeys_KEY_START_LO : Nat := page 0x073 + 0x58
def rKeys_KEY_START_HI : Nat := page 0x073 + 0x5C
def rKeys_KEY_RETIRE_LO : Nat := page 0x073 + 0x60
def rKeys_KEY_RETIRE_HI : Nat := page 0x073 + 0x64
def rKeys_KEY_CMD : Nat := page 0x073 + 0x68
def rKeys_KEY_STAT : Nat := page 0x073 + 0x6C
def rKeys_KEY_EPOCH_RD : Nat := page 0x073 + 0x70
def rOtp_OTP_STAT : Nat := page 0x002 + 0x40
def rOtp_DEV_ID_LO : Nat := page 0x002 + 0x44
def rOtp_DEV_ID_HI : Nat := page 0x002 + 0x48
def rOtp_LC_RAW : Nat := page 0x002 + 0x4C
def rOtp_BL_CEIL : Nat := page 0x002 + 0x50
def rOtp_WEAK_ADDR : Nat := page 0x002 + 0x54
def rOtp_MARGIN : Nat := page 0x002 + 0x58
def rOtp_ROOT_HASH (i : Nat) : Nat := page 0x002 + 0x60 + 4 * i
def rOtp_BURN_ADDR : Nat := page 0x002 + 0x400
def rOtp_BURN_DATA : Nat := page 0x002 + 0x404
def rOtp_BURN_CMD : Nat := page 0x002 + 0x408
def rOtp_BURN_STAT : Nat := page 0x002 + 0x40C
def rLcs_LC_STAT : Nat := page 0x003 + 0x40
def rLcs_LC_CMD : Nat := page 0x003 + 0x44
def rLcs_BOOT_CNT : Nat := page 0x003 + 0x48
def rLcs_BOOT_CAUSE : Nat := page 0x003 + 0x4C
def rLcs_BOOT_STEP : Nat := page 0x003 + 0x50
def rLcs_READY_TIME : Nat := page 0x003 + 0x54
def rLcs_BIST_STAT : Nat := page 0x003 + 0x58
def rLcs_PROOF_STAT : Nat := page 0x003 + 0x5C
def rLcs_PROOF_AGE (i : Nat) : Nat := page 0x003 + 0x60 + 4 * i
def rLcs_MAN_SEL : Nat := page 0x003 + 0x400
def rLcs_MAN_CMD : Nat := page 0x003 + 0x404
def rLcs_MAN_STAT : Nat := page 0x003 + 0x408
def rRng_RNG_STAT : Nat := page 0x004 + 0x40
def rRng_RNG_DATA : Nat := page 0x004 + 0x44
def rRng_HT_FAIL_CNT : Nat := page 0x004 + 0x48
def rRng_RESEED_CNT : Nat := page 0x004 + 0x4C
def rCfg_CFG_STAT : Nat := page 0x07C + 0x40
def rCfg_IMG_VER : Nat := page 0x07C + 0x44
def rCfg_IMG_HASH (i : Nat) : Nat := page 0x07C + 0x48 + 4 * i
def rCfg_STG_OFF : Nat := page 0x07C + 0x58
def rCfg_STG_DATA_LO : Nat := page 0x07C + 0x5C
def rCfg_STG_DATA_HI : Nat := page 0x07C + 0x60
def rCfg_STG_CMD : Nat := page 0x07C + 0x64
def rCfg_STG_RESULT : Nat := page 0x07C + 0x68
def rCfg_SW_TIME_LO : Nat := page 0x07C + 0x6C
def rCfg_SW_TIME_HI : Nat := page 0x07C + 0x70
def rCfg_SESS_REQ : Nat := page 0x07C + 0x80
def rCfg_SESS_CHAL (i : Nat) : Nat := page 0x07C + 0x84 + 4 * i
def rCfg_SESS_RESP (i : Nat) : Nat := page 0x07C + 0x94 + 4 * i
def rCfg_SESS_CMD : Nat := page 0x07C + 0xA4
def rCfg_SESS_STAT : Nat := page 0x07C + 0xA8
def rCfg_ROLE_ITER : Nat := page 0x07C + 0xAC
def rCfg_ROLE_SALT (i : Nat) : Nat := page 0x07C + 0xB0 + 4 * i
def rCfg_PW_DATA (i : Nat) : Nat := page 0x07C + 0xC0 + 4 * i
def rCfg_PART_CMD : Nat := page 0x07C + 0x100
def rCfg_PART_CMD_RES : Nat := page 0x07C + 0x104
def rCfg_FN_CMD : Nat := page 0x07C + 0x108
def rCfg_FRC_SEL : Nat := page 0x07C + 0x10C
def rCfg_FRC_VAL : Nat := page 0x07C + 0x110
def rCfg_FRC_CMD : Nat := page 0x07C + 0x114
def rCfg_FRC_STAT : Nat := page 0x07C + 0x118
def rCfg_CLOG_HEAD : Nat := page 0x07C + 0x120
def rCfg_CLOG_SEL : Nat := page 0x07C + 0x124
def rCfg_CLOG_DATA (i : Nat) : Nat := page 0x07C + 0x140 + 4 * i
def rCfg_SVC_CHAL (i : Nat) : Nat := page 0x07C + 0x180 + 4 * i
def rCfg_SVC_BUF (i : Nat) : Nat := page 0x07C + 0x190 + 4 * i
def rCfg_SVC_CMD : Nat := page 0x07C + 0x230
def rCfg_SVC_STAT : Nat := page 0x07C + 0x234
def rFlt0_FLT_STAT : Nat := page 0x006 + 0x40
def rFlt0_FLT_CTRL : Nat := page 0x006 + 0x44
def rFlt0_RESUME_RES : Nat := page 0x006 + 0x48
def rFlt0_MODE_CAUSE : Nat := page 0x006 + 0x4C
def rFlt0_MODE_TIME_LO : Nat := page 0x006 + 0x50
def rFlt0_MODE_TIME_HI : Nat := page 0x006 + 0x54
def rFlt0_RAIL_STAT : Nat := page 0x006 + 0x58
def rFlt0_RAIL_BROKEN : Nat := page 0x006 + 0x5C
def rFlt0_BUS_MSG_LO : Nat := page 0x006 + 0x60
def rFlt0_BUS_MSG_HI : Nat := page 0x006 + 0x64
def rFlt0_BUS_ERR : Nat := page 0x006 + 0x68
def rFlt0_BUS_SAT : Nat := page 0x006 + 0x6C
def rFlt0_BUS_LAT_MAX : Nat := page 0x006 + 0x70
def rFlt0_CLASS_CNT (i : Nat) : Nat := page 0x006 + 0x74 + 4 * i
def rFlt0_TRIP_LAST : Nat := page 0x006 + 0x88
def rFlt1_STICKY_SUM : Nat := page 0x007 + 0x40
def rFlt1_STICKY (i : Nat) : Nat := page 0x007 + 0x100 + 4 * i
def rFlt1_LIVE (i : Nat) : Nat := page 0x007 + 0x180 + 4 * i
def rFlt1_AGAIN (i : Nat) : Nat := page 0x007 + 0x200 + 4 * i
def rFlt1_ESC (i : Nat) : Nat := page 0x007 + 0x280 + 4 * i
def rFlt2_CNT_SEL : Nat := page 0x008 + 0x40
def rFlt2_CNT_DATA : Nat := page 0x008 + 0x44
def rFlt2_CNT_WS_LO : Nat := page 0x008 + 0x48
def rFlt2_CNT_WS_HI : Nat := page 0x008 + 0x4C
def rFlt2_CNT_CMD : Nat := page 0x008 + 0x50
def rFlt2_CNT_TOTAL : Nat := page 0x008 + 0x54
def rFlt3_POL_SEL : Nat := page 0x009 + 0x40
def rFlt3_POL_LO : Nat := page 0x009 + 0x44
def rFlt3_POL_HI : Nat := page 0x009 + 0x48
def rFlt3_DEF_LO : Nat := page 0x009 + 0x4C
def rFlt3_DEF_HI : Nat := page 0x009 + 0x50
def rLog_LOG_CFG : Nat := page 0x010 + 0x40
def rLog_LOG_STAT : Nat := page 0x010 + 0x44
def rLog_WP : Nat := page 0x010 + 0x48
def rLog_HOST_RP : Nat := page 0x010 + 0x4C
def rLog_SPILL_RP : Nat := page 0x010 + 0x50
def rLog_STREAM_RP : Nat := page 0x010 + 0x54
def rLog_SEQ_NEXT : Nat := page 0x010 + 0x58
def rLog_DROP_P (i : Nat) : Nat := page 0x010 + 0x60 + 4 * i
def rLog_COAL_CNT : Nat := page 0x010 + 0x70
def rLog_SPILL_LO : Nat := page 0x010 + 0x74
def rLog_SPILL_HI : Nat := page 0x010 + 0x78
def rLog_FL_OLDEST : Nat := page 0x010 + 0x7C
def rLog_FL_SEL : Nat := page 0x010 + 0x80
def rLog_FL_DATA (i : Nat) : Nat := page 0x010 + 0x84 + 4 * i
def rLog_FL_STAT : Nat := page 0x010 + 0xA4
def rLog_COLL_WP : Nat := page 0x010 + 0xA8
def rLog_CMD : Nat := page 0x010 + 0xAC
def rEvt_EVT_STAT : Nat := page 0x011 + 0x40
def rEvt_RT_SEL : Nat := page 0x011 + 0x44
def rEvt_RT_DATA : Nat := page 0x011 + 0x48
def rEvt_VEC_ACK : Nat := page 0x011 + 0x4C
def rEvt_INSVC_LO : Nat := page 0x011 + 0x50
def rEvt_INSVC_HI : Nat := page 0x011 + 0x54
def rEvt_PEND_SUM_LO : Nat := page 0x011 + 0x58
def rEvt_PEND_SUM_HI : Nat := page 0x011 + 0x5C
def rEvt_PEND (i : Nat) : Nat := page 0x011 + 0x100 + 4 * i
def rEvt_AGAIN (i : Nat) : Nat := page 0x011 + 0x200 + 4 * i
def rVern_VN_STAT : Nat := page 0x005 + 0x40
def rVern_VN_CFG : Nat := page 0x005 + 0x44
def rVern_GUARD : Nat := page 0x005 + 0x48
def rVern_RO_LIM : Nat := page 0x005 + 0x4C
def rVern_RON_LIM : Nat := page 0x005 + 0x50
def rVern_FLASH_LIM : Nat := page 0x005 + 0x54
def rVern_SEL : Nat := page 0x005 + 0x58
def rVern_SEL_MARGIN : Nat := page 0x005 + 0x5C
def rVern_SEL_DAYS : Nat := page 0x005 + 0x60
def rVern_PROJ_800 : Nat := page 0x005 + 0x64
def rVern_PROJ_640 : Nat := page 0x005 + 0x68
def rVern_PROJ_533 : Nat := page 0x005 + 0x6C
def rVern_WORST : Nat := page 0x005 + 0x70
def rVern_SHORT_CAUSE : Nat := page 0x005 + 0x74
def rVern_DAYS : Nat := page 0x005 + 0x78
def rVern_GRADE_CNT : Nat := page 0x005 + 0x7C
def rSup_SUP_STAT : Nat := page 0x013 + 0x40
def rSup_V_VLOG : Nat := page 0x013 + 0x44
def rSup_I_VLOG : Nat := page 0x013 + 0x48
def rSup_V_VBAK : Nat := page 0x013 + 0x4C
def rSup_T_DIE : Nat := page 0x013 + 0x50
def rSup_T_DIE_MAX : Nat := page 0x013 + 0x54
def rSup_DORM_CMD : Nat := page 0x013 + 0x58
def rSup_DORM_STAT : Nat := page 0x013 + 0x5C
def rSup_DORM_CNT : Nat := page 0x013 + 0x60
def rSup_WAKE_TIME : Nat := page 0x013 + 0x64
def rSup_PM_SUM : Nat := page 0x013 + 0x68
def rNgl_NG_STAT : Nat := page 0x012 + 0x40
def rNgl_CNT_LO : Nat := page 0x012 + 0x44
def rNgl_CNT_HI : Nat := page 0x012 + 0x48
def rNgl_VG_CFG : Nat := page 0x012 + 0x4C
def rNgl_VG_ACK : Nat := page 0x012 + 0x50
def rNgl_ALARM_LO : Nat := page 0x012 + 0x54
def rNgl_ALARM_HI : Nat := page 0x012 + 0x58
def rNgl_BL_HEAD : Nat := page 0x012 + 0x5C
def rNgl_BL_SEL : Nat := page 0x012 + 0x60
def rNgl_BL_DATA_LO : Nat := page 0x012 + 0x64
def rNgl_BL_DATA_HI : Nat := page 0x012 + 0x68
def rNgl_BL_IMPORT : Nat := page 0x012 + 0x6C
def rNgl_XTAL_PPM : Nat := page 0x012 + 0x70

end Sys2Proof.Machine
end

