-- ==== Sys2Proof/Machine/State.lean ====
section
/-! DEFINITION. The state of the module as plain data: every register of its register space (`regs`, one sparse file),
and beside it, block by block, what the spec gives the machine beyond its registers. Reset values: the spec's where it
gives them, else zero, empty or the first state of the rule's table (log 1, log 2). -/

namespace Sys2Proof.Machine

/-- Model faults. -/
inductive Fault where
  /-- raised by no meaning: the spec gives every command of the table an effect (safe) -/
  | none_
deriving DecidableEq, Repr

/-- Refusals. -/
inductive Refusal where
  /-- a command that has no meaning yet, by its mnemonic (safe) -/
  | notModelled (mnemonic : String)
deriving DecidableEq, Repr

/-- Device modes (R15, R16). -/
inductive DevMode where
  | boot | selftest | sync | operate | harebell | halted | dormant
deriving DecidableEq, Repr

/-- Clock grades of CLK_CORE (R12, R13). -/
inductive Grade where
  | g800 | g640 | g533
deriving DecidableEq, Repr

/-- Lifecycle states (R410, R427). -/
inductive LifeCycle where
  | blank | provisioning | deployed | returned
deriving DecidableEq, Repr

/-- Device-wide state: mode (R15), slot identity (R11), clock grade (R13), root PLL (R14), supply and reset pins. -/
structure Dev where
  mode : DevMode
  /-- slot identity sampled from the straps at POR release: cluster [11:9], ring [8:5], position [4:0] (R11) -/
  slot : BitVec 12
  grade : Grade
  pllLocked : Bool
  vlogValid : Bool
  /-- nRESET or nRESET_AUX asserted (R403) -/
  nreset : Bool
  /-- grade change decided and waiting for the next major-frame boundary (R13, R499) -/
  gradePend : Option Grade
  /-- a DORMANT request waiting for the next major-frame boundary (R17) -/
  dormPend : Bool
deriving DecidableEq, Repr

/-- Dev at reset (R15; log 2). -/
def Dev.reset : Dev := ⟨.boot, 0, .g800, false, false, false, none, false⟩

/-- The memories (ch. 01, R75, R170, R485). Program SRAM: core u = 2·pair + checker at u × 0x10_0000, bank B at + 0x8_0000.
Flash: Almanac copy k at k × 0x100_0000 (log 7), the buddy's image at 0x200_0000. -/
structure Mems where
  img : Mem
  logm : Mem
  eph : Mem
  pgm : Mem
  flash : Mem
  /-- Logbook spill, record of SEQ n at 32 × (n mod 1,048,576) (R486) -/
  spill : Mem
  /-- change log, entry of SEQ n at 64 × (n mod 4,096) (R448) -/
  clog : Mem
  /-- partition windows as the commit wrote them, at their image SRAM offsets: the source of the reloads of R106 -/
  win : Mem
deriving DecidableEq, Repr

def Mems.reset : Mems := ⟨[], [], [], [], [], [], [], []⟩

/-- The register state of a partition between slots, and of a core during one (R104). -/
structure Ctx where
  c : Tab Csw
  p : Tab Word
  flags : Word
deriving DecidableEq, Repr

def Ctx.reset : Ctx := ⟨[], [], 0⟩

/-- What a slot has staged and END makes visible (R9, R116, R117). -/
inductive Staged where
  /-- STS: a produced index and its word (R116) -/
  | store (index : Nat) (word : Csw)
  /-- STV: a retained variable (R117) -/
  | var (k : Nat) (word : Csw)
  /-- a timer record's 32 bytes (R134) -/
  | timer (t : Nat) (rec : List Byte)
  /-- a function-block instance record's 64 bytes (R135, R199) -/
  | fb (i : Nat) (rec : List Byte)
  /-- RAISE (R130) -/
  | raise (k : Nat) (hint : Nat)
  /-- an arm time for an output channel (R268) -/
  | arm (channel : Nat) (time : Nat)
  /-- entry into or exit from LOCKOUT of an instance, for the Logbook (R210) -/
  | lockout (inst block diag : Nat) (entered : Bool)
  /-- an FN_RESET taken by its instance (R207) -/
  | fnTaken (inst : Nat)
deriving DecidableEq, Repr

/-- The staging port's address and data of a staged item (R163). -/
def Staged.outs : Staged → List Nat
  | .store idx w => [idx, w.toNat]
  | .var k w => [k, w.toNat]
  | .timer t b => t :: b.map BitVec.toNat
  | .fb i b => i :: b.map BitVec.toNat
  | .raise k h => [k, h]
  | .arm c t => [c, t]
  | .lockout i b d e => [i, b, d, if e then 1 else 0]
  | .fnTaken i => [i]

/-- A core with the slot it runs (R90, R92); key 2·pair + core, the main core standing for both in lockstep. -/
structure CoreSt where
  inSlot : Bool
  part : Nat
  seq : Nat
  entry : Nat
  pc : Nat
  slot : Nat
  ctx : Ctx
  cyc : Nat
  budget : Nat
  /-- slot time: Meridian at the START tick (R120) -/
  stime : Nat
  /-- superframe count of the minor frame of the start (R91) -/
  ssf : Nat
  staged : List Staged
  /-- body bounds of the LOOP being executed (R125) -/
  loopLo : Nat
  loopHi : Nat
  swapReq : Bool
  /-- a SWAP of the slot was executed while a commit was staged (R98) -/
  swapStaged : Bool
  /-- a re-execution after a mismatch (R175) -/
  reexec : Bool
  /-- Meridian at which the mismatch was detected -/
  detected : Nat
  /-- MISRs of the compared outputs of the slot in loose mode, the main core's and the checker core's (R164) -/
  misr : BitVec 64
  misrChk : BitVec 64
deriving DecidableEq, Repr

/-- The MISR's value at slot start (R164). -/
def misrInit : BitVec 64 := 0xFFFFFFFFFFFFFFFF#64

def CoreSt.reset : CoreSt := ⟨false, 0, 0, 0, 0, 0, Ctx.reset, 0, 0, 0, 0, [], 0, 0, false, false, false, 0, misrInit, misrInit⟩

/-- A debugger action in the replay queue of PAIR_0 (R190). -/
inductive DbgAct where
  | halt | step | resume | regRead | regWrite | breakpoint
deriving DecidableEq, Repr

/-- A pair beyond its registers: map cache (R153, most recently used first), sequencing of split, rejoin and debug. -/
structure PairSt where
  cache : List (Nat × Csw)
  offlinePend : Bool
  splitReq : Bool
  rejoinReq : Bool
  /-- program copy of a rejoin has completed (R187 step 3) -/
  loadDone : Bool
  /-- a signature or CRC difference in the verification frame (R188) -/
  verifyBad : Bool
  dbgPend : Bool
  replay : List DbgAct
  /-- Meridian of the last action put in the queue: two cycles later the checker has applied it (R190) -/
  replayAt : Nat
  /-- Meridian of the end of the last slot (IDLE_MIN) -/
  lastEnd : Option Nat
  /-- schedule entries that met an uncorrectable error and count as not VALID (R99 SCHED_ECC), bit e -/
  seBad : Nat
  /-- schedule entries whose START has been taken, bit e, in the minor frame with superframe count `seSf` − 1 (R90) -/
  seSf : Nat
  seDone : Nat
  /-- a debugger STEP waits for the next instruction (R194) -/
  stepOk : Bool
deriving DecidableEq, Repr

def PairSt.reset : PairSt := ⟨[], false, false, false, false, false, false, [], 0, none, 0, 0, 0, false⟩

/-- Commands to a partition (R429). -/
inductive PartCmd where
  | start | stop | maint | reset
deriving DecidableEq, Repr

/-- A partition beyond its registers. -/
structure PartSt where
  ctx : Ctx
  /-- GEN of the checkpoint record in force (R172) -/
  gen : Nat
  /-- an accepted command waiting for the superframe boundary, its master, and the partition's mode at acceptance (R430) -/
  cmd : Option (PartCmd × Master × Nat)
  /-- forces held: index and v (R432) -/
  forces : List (Nat × BitVec 16)
  /-- uncorrectable program error in both copies: cannot leave STOP (R83) -/
  pgmBad : Bool
  /-- the last slot was abandoned (R176, R178) -/
  abandoned : Bool
  /-- SWAP latched at END (R140); one that was executed while a commit was staged (R98) -/
  swapPend : Bool
  swapBad : Bool
  /-- mirror: GEN last applied, and superframe count of its END (R183, MIR_LAG) -/
  mirGen : Nat
  mirSf : Nat
  /-- a resync has been applied, and the sets that follow it are awaited (R183; log 47) -/
  mirCatch : Bool
  /-- FN_RESET commands held: instance and the Meridian of arrival (R207) -/
  fnReset : List (Nat × Nat)
  /-- SUSPENDED of the ownership token (R370) -/
  suspended : Bool
  /-- FLAGS.FIRST and FLAGS.TAKEOVER of the partition's next slot (R104) -/
  first : Bool
  takeover : Bool
  /-- every signal it imports has been fresh since it entered RUN (R424; log 157) -/
  impFresh : Bool
deriving DecidableEq, Repr

def PartSt.reset : PartSt := ⟨Ctx.reset, 0, none, [], false, false, false, false, 0, 0, false, [], false, true, false, false⟩

/-- A mirror set not yet sent: its partition, GEN, its place in the outgoing area of half (GEN mod 2) of Ephemeris, its length and how
much of it has been sent. A resync is not held there: its bytes are those of the window and the record when it was made (R170, R181,
R183, R350; log 17). -/
structure MirOut where
  part : Nat
  gen : Nat
  at_ : Nat
  len : Nat
  sent : Nat
  resync : Option (List Byte)
deriving DecidableEq, Repr

/-- A mirror set being received: GEN, total length, how many bytes have come into the incoming area of half (GEN mod 2), and those
beyond the area (R170, R183, R350; log 17). -/
structure MirRx where
  gen : Nat
  total : Nat
  count : Nat
  beyond : List Byte
deriving DecidableEq, Repr

/-- The engine beyond its registers. -/
structure Eng where
  cores : Tab CoreSt
  pairs : Tab PairSt
  parts : Tab PartSt
  /-- the three budgets of each entry (R88): key (64·pair + entry)·3 + grade -/
  budgets : Tab Nat
  /-- partition that produces an index 256–511, plus one; 0 = none (R55) -/
  prod : Tab Nat
  /-- superframe count of the last write of a CSW slot, by byte offset in image SRAM (R71) -/
  lastWr : Tab Nat
  /-- scrub findings already reported once, by byte offset: map regions (R152) and Ephemeris (R174) -/
  mapRep : List Nat
  ephRep : List Nat
  /-- words of image, Ephemeris and program SRAM that hold an uncorrectable error, by byte offset -/
  imgBad : List Nat
  ephBad : List Nat
  /-- mirror set being received (R183) -/
  mirRx : Option MirRx
  /-- outgoing mirror bytes of this superframe (MIR_TX_PEAK) -/
  mirTx : Nat
  /-- mirror sets of the outgoing area not yet sent, oldest first (R181, R183) -/
  mirOut : List MirOut
  /-- partitions whose resync has been asked for and is not yet sent whole; those whose resync has been: their mirror is in sync as far as
  the owner knows (R183, R372) -/
  resync : List Nat
  mirOk : List Nat
  /-- Meridian of the last write of an output channel's arm time by END, plus one; 0 = none or used up (R268) -/
  armWr : Tab Nat
  /-- output channel bound to the OUT of a GROUP instance, plus one, by 1024·partition + instance; 0 = none (R268) -/
  grpCh : Tab Nat
  /-- the views of the last image class hold quorum on no plane (R370) -/
  noQuorum : Bool
  /-- Meridian of the last superframe boundary and of the last major-frame boundary taken, plus one (R86, R87) -/
  lastSf : Nat
  lastMf : Nat
deriving DecidableEq, Repr

def Eng.reset : Eng := ⟨[], [], [], [], [], [], [], [], [], [], none, 0, [], [], [], [], [], false, 0, 0⟩

/-- A detector's unsent message (R453). -/
structure Det where
  held : Bool
  kind : Nat
  addr : Nat
  rep : Nat
  /-- turns failed in a row (R454) -/
  bad : Nat
  /-- raised by injection (R474) -/
  inj : Bool
  /-- Meridian of the event -/
  time : Nat
deriving DecidableEq, Repr

def Det.reset : Det := ⟨false, 0, 0, 0, 0, false, 0⟩

/-- Counting state of a source (R464). -/
structure FltCnt where
  ws : Nat
  wcnt : Nat
  esc : Bool
  total : Nat
deriving DecidableEq, Repr

def FltCnt.reset : FltCnt := ⟨0, 0, false, 0⟩

/-- An alarm pair (R456). -/
inductive AlarmPair where
  | normal | alarm | broken
deriving DecidableEq, Repr

/-- Injection state of a page (R473, R474). -/
structure Inj where
  armedBy : Option Master
  armedUntil : Nat
  /-- a HOLD in progress: source, kind, and the Meridian it ends at -/
  hold : Option (Nat × Nat × Nat)
  /-- an accepted GO waiting for its change-log entry -/
  go : Option (Nat × Nat × Bool × Nat)
  /-- master of the last accepted GO; the HOLD drives its detector, which shows no real condition (R475) -/
  giver : Option Master
  driven : Bool
  count : Nat
  done : Bool
  result : Nat
deriving DecidableEq, Repr

def Inj.reset : Inj := ⟨none, 0, none, none, none, false, 0, false, 0⟩

/-- The fault collector beyond its registers (R452 to R474). -/
structure Flt where
  det : Tab Det
  cnt : Tab FltCnt
  /-- policies, POL_HI ‖ POL_LO, where they differ from the default (R463) -/
  pol : Tab (BitVec 64)
  alm : Tab AlarmPair
  running : Bool
  safeLine : Bool
  shadowOk : Bool
  degradePend : Bool
  pairOff : BitVec 4
  resumePend : Bool
  /-- grade in force at the entry into HAREBELL (R472) -/
  preGrade : Grade
  inj : Tab Inj
deriving DecidableEq, Repr

def Flt.reset : Flt := ⟨[], [], [], [], false, false, false, false, 0, false, .g800, []⟩

/-- A Logbook record before it is committed (R481). -/
structure LogRec where
  time : Nat
  src : Nat
  kind : Nat
  prio : Nat
  part : Option Nat
  inj : Bool
  count : Nat
  addr : Nat
  data : BitVec 64
deriving DecidableEq, Repr

/-- The Logbook beyond its registers. -/
structure Log where
  /-- open coalescing entries, oldest first, at most 16 (R483) -/
  coal : List LogRec
  /-- slots not released (R485) -/
  fill : Nat
  /-- bucket in which LOG_DROP was last raised (R484) -/
  dropBucket : Option Nat
  /-- first slot not yet released -/
  rel : Nat
  /-- one more than the highest SEQ the host has fetched from flash (R489, LOG_FLASH_WRAP; log 25) -/
  flRead : Nat
deriving DecidableEq, Repr

def Log.reset : Log := ⟨[], 0, none, 0, 0⟩

/-- What the block has sent to the outside, newest last: the model's record of its outputs (log 8). -/
inductive Out where
  /-- MSI-X message of a vector: address and data of its table entry (R24, R43) -/
  | msix (vector : Nat) (addr : BitVec 64) (data : Word)
  /-- a fabric frame: port, type, destination or 0, bytes -/
  | frame (port : Nat) (typ : Nat) (dest : Nat) (bytes : List Byte)
  /-- a fabric control block: port, kind, bytes -/
  | ctl (port : Nat) (kind : Nat) (bytes : List Byte)
  /-- an Ethernet frame: port, bytes of its payload -/
  | eth (port : Nat) (bytes : List Byte)
  /-- an IEEE 1588 message: port, over UDP, messageType of the standard, the PTP time it is timestamped or answers with, ns (R394) -/
  | ptp (port : Nat) (udp : Bool) (kind time : Nat)
  /-- an XFER write to host memory: address, bytes -/
  | dma (addr : Nat) (bytes : List Byte)
  /-- a register read completed: master, data -/
  | rdata (m : Master) (data : BitVec 64)
  /-- a BAR2 read completed (R24) -/
  | window (bytes : List Byte)
  /-- Completer Abort (R25) -/
  | abort
  /-- an SPI frame's MISO where no data follows: its status word (R27) -/
  | misoStatus (status : BitVec 32)
  /-- a read frame's MISO: status word, data, CRC (R27) -/
  | miso (status : BitVec 32) (data : BitVec 64) (crc : Byte)
deriving DecidableEq, Repr

/-- A master's wide-value shadow (R40) and staged low half (R42). -/
structure MasterSt where
  shadowTag : Option Nat
  shadow : Word
  staged : Option (Nat × Word)
deriving DecidableEq, Repr

def MasterSt.reset : MasterSt := ⟨none, 0, none⟩

/-- A queue of XFER beyond its registers (R46 to R50). -/
structure XqSt where
  /-- the descriptor in progress, Meridian when its copy began, and the match triggers its timer had issued then -/
  busy : Option (Desc × Nat × Nat)
  /-- the descriptor that waits for its trigger, and the match triggers its timer had issued when it reached the head -/
  wait : Option (Desc × Nat)
deriving DecidableEq, Repr

def XqSt.reset : XqSt := ⟨none, none⟩

/-- The host interfaces beyond their registers. -/
structure HostIf where
  masters : Tab MasterSt
  xq : Tab XqSt
  msixEn : Bool
  /-- MSI-X table of BAR4: message address, message data, vector masked; pending-bit array (R24, R43; at reset log 142) -/
  vaddr : Tab (BitVec 64)
  vdata : Tab Word
  vmask : Tab Bool
  vpend : Tab Bool
  /-- result of the previous SPI frame (R27) -/
  spiLast : Nat
  out : List Out
  /-- PCIe link was up since the last start-up (R53) -/
  wasUp : Bool
deriving DecidableEq, Repr

def HostIf.reset : HostIf := ⟨[], [], false, [], [], [], [], 4, [], false⟩

/-- EVT beyond its registers: routing entries (R490). -/
structure Evt where
  route : Tab (BitVec 9)
deriving DecidableEq, Repr

def Evt.reset : Evt := ⟨[]⟩

/-- A master's session (R433 to R435). -/
structure Session where
  /-- 0 none, 1 MAINT, 2 ADMIN, 3 OWNER -/
  role : Nat
  part : Nat
  expert : Bool
  /-- Meridian of the master's last write -/
  lastWr : Nat
  /-- the challenge of SESS_CHAL, and whether an OPEN has used it (R434) -/
  chal : Option (BitVec 128)
  chalUsed : Bool
deriving DecidableEq, Repr

def Session.reset : Session := ⟨0, 0, false, 0, none, false⟩

/-- A role's verifier, held in flash under the slot identity (R436). -/
structure RoleRec where
  present : Bool
  expertOk : Bool
  pwGen : Nat
  iter : Nat
  salt : BitVec 128
  v : BitVec 256
deriving DecidableEq, Repr

def RoleRec.reset : RoleRec := ⟨false, false, 0, 0, 0, 0⟩

/-- An action that takes effect only after its change-log entry has reached flash (R449). -/
inductive PendAct where
  | forceSet (p idx : Nat) (v : BitVec 16)
  | forceClear (p idx : Nat)
  | forceClearAll (p : Nat)
  | pwChange (role part : Nat) (salt : BitVec 128) (iter : Nat) (v : BitVec 256)
  | keyLoad (owner slot : Nat) (key : BitVec 128) (epoch start retire : Nat)
  | keyErase (owner slot : Nat)
  | keySetRetire (owner slot retire : Nat)
  | trim (ch : Nat) (off : Int) (z : Nat) (g : Int) (button : Bool)
  | inject (page : Nat)
  | vgAck (k : Nat)
  /-- a live edit of the map: the ID, the descriptor written, and INV (R155) -/
  | mapEdit (id : Nat) (d : Csw) (inv : Bool)
  /-- the switch of a checked image (R442, R445) -/
  | commit
deriving DecidableEq, Repr

/-- Configuration, sessions and the change log beyond their registers. -/
structure Cfg where
  sess : Tab Session
  roles : Tab RoleRec
  /-- failed OPENs: key master·64 + role·16 + part, Meridian times newest first (R435) -/
  fails : Tab (List Nat)
  lockUntil : Tab Nat
  /-- entries waiting for flash with the action each guards, oldest first (R449) -/
  queue : List (List Byte × PendAct)
  clogSeq : Nat
  /-- flash copy in force (R442) and whether an image is in force -/
  copy : Nat
  inForce : Bool
  staging : Bool
  commitReq : Bool
  /-- the staged image has passed its check (R442) -/
  checked : Bool
  /-- this member's yes: Meridian of it; it votes no (R445) -/
  yesAt : Option Nat
  noVote : Bool
  /-- votes the coordinator has collected: slot identity, vote, ARG64 (R445) -/
  votes : List (Nat × Nat × Nat)
  /-- switch time T of the set (R445) -/
  switchT : Option Nat
  /-- the other flash copy is still to be overwritten (R442) -/
  settle : Bool
  /-- bits [31:0] of the fabric section hash of the staged image, once it has passed its check (R446) -/
  stagedFab : Option Nat
  /-- first 16 bytes of the hash of the staged image, once it has passed its check; the entry of its switch is in flash (R449) -/
  stagedHash : Nat
  logged : Bool
  /-- an ALM_REQ being answered: the asker's slot identity and the next offset (R447) -/
  almSend : Option (Nat × Nat)
  /-- an image being received by ALM_DATA: bytes applied in order so far, and its length (R447) -/
  almNext : Nat
  almLen : Nat
  /-- next offset of the image in force on its way to the buddy, which keeps it (R447; log 150) -/
  almOwn : Option Nat
  /-- service challenge; 0 = none (R437) -/
  svcChal : BitVec 128
  /-- pages whose block the committed configuration uses (R31, R32) -/
  used : List Nat
  /-- entries of the change log before this SEQ are unchained (R449) -/
  unchainedBefore : Nat
  /-- TRIM_OFF and TRIM_GAIN of the trims accepted since the module got its slot identity, held in flash (R311) -/
  trims : Tab (Option (Word × Word))
deriving DecidableEq, Repr

def Cfg.reset : Cfg where
  sess := []
  roles := []
  fails := []
  lockUntil := []
  queue := []
  clogSeq := 0
  copy := 0
  inForce := false
  staging := false
  commitReq := false
  checked := false
  yesAt := none
  noVote := false
  votes := []
  switchT := none
  settle := false
  stagedFab := none
  stagedHash := 0
  logged := false
  almSend := none
  almNext := 0
  almLen := 0
  almOwn := none
  svcChal := 0
  used := []
  unchainedBefore := 0
  trims := []

/-- Meridian and its synchronisation beyond the registers (R319 to R327). -/
structure Mer where
  now : BitVec 64
  /-- the second copy (R319) -/
  dup : BitVec 64
  /-- Nightglass count recorded at DORMANT entry (R326) -/
  n0 : Nat
  /-- superframes in a row with the offset within SYNC_LIM (R322) -/
  okRun : Nat
  /-- correction pending, ticks (R323) -/
  slew : Int
  /-- AUTOSTART timers restart at the next major-frame boundary (R325) -/
  rearm : Bool
  /-- Nightglass count was kept at the last wake; without it ACQUIRE waits for a source (R326) -/
  kept : Bool
  /-- Meridian of the last sync received (R322, R395) -/
  lastSync : Nat
  /-- Meridian since which |offset| exceeds SYNC_LIM in LOCKED (R322) -/
  offSince : Option Nat
  /-- MER_OFFSET_HIGH has been raised for the present excess (R322) -/
  offHigh : Bool
  /-- an offset has been measured since ACQUIRE was entered (R322) -/
  measured : Bool
deriving DecidableEq, Repr

def Mer.reset : Mer := ⟨0, 0, 0, 0, 0, false, true, 0, none, false, false⟩

/-- Run state of a timer channel (T_STAT.STATE, R330, R335). -/
inductive TimRun where
  | idle | running | done | frozen
deriving DecidableEq, Repr

/-- A timer channel beyond its registers. The counter at Meridian t is `cnt` advanced by the prescaled ticks since
`base`, the Meridian at which it starts or last changed (R329, R331). -/
structure TimSt where
  run : TimRun
  cnt : Nat
  base : Nat
  /-- capture queue, oldest first (R333) -/
  q : List Word
  /-- match triggers issued: banks and XFER queues take the next one after what they have seen (R334) -/
  fired : Nat
deriving DecidableEq, Repr

def TimSt.reset : TimSt := ⟨.idle, 0, 0, [], 0⟩

/-- OTP, lifecycle, self-test and random numbers beyond their registers (ch. 15). -/
structure Lcs where
  /-- the two copies of the OTP words; none: unburned (R404, R405) -/
  otp0 : Tab (Option Word)
  otp1 : Tab (Option Word)
  /-- the words established at the last sense; none: unburned, or no value (R405) -/
  est : Tab (Option Word)
  /-- words found weak, and words no value could be established for, at the last sense (R405) -/
  weak : List Nat
  noValue : List Nat
  /-- weak words whose weak copy is copy 1 (R426) -/
  weakHi : List Nat
  /-- a lifecycle change whose LC_CHANGE the start-up that follows has yet to raise (R410) -/
  lcChange : Bool
  /-- the restart at step 2 after a failed or late step waits for its 100 ms (R402) -/
  retry : Bool
  /-- VLOG was lost before local readiness (BOOT_CAUSE 3) -/
  starting : Bool
  /-- random draws made by the device (R418), and requests of the two instances since their last reseed: 0 internal, 1 host -/
  draws : Nat
  reqs : Tab Nat
  /-- Meridian of each instance's last reseed -/
  seeded : Tab Nat
  /-- Meridian of the health-test failures of the last hour, newest first (R421) -/
  htFails : List Nat
  /-- the boot counter could be incremented in flash, so early nonces may be issued (R420) -/
  nonceOk : Bool
  /-- sub-slices done in the pass in progress of each unit (R415) -/
  slices : Tab Nat
  /-- Meridian of each unit's last passing pass, plus one; 0 = none since start-up -/
  lastPass : Tab Nat
  /-- recode unit in service, and whether the other has passed since (R415) -/
  rcu : Nat
  rcuPassed : Bool
  /-- Meridian at which OPERATE was first entered since start-up, plus one: since when a unit can starve (R417); 0 = never -/
  proofFrom : Nat
  /-- the end of each unit's 24 h without a passing pass that PROOF_STARVED has reported last (R417) -/
  starved : Tab Nat
deriving DecidableEq, Repr

def Lcs.reset : Lcs := ⟨[], [], [], [], [], [], false, false, false, 0, [], [], [], false, [], [], 0, false, 0, []⟩

/-- A channel beyond its registers (ch. 10, ch. 11). -/
structure ChSt where
  /-- Meridian of the last sample and of the last output read, plus one; 0 = none (R256, R267) -/
  sampled : Nat
  readAt : Nat
  /-- counted samples in a row that show the other level (R259) -/
  run : Nat
  /-- Meridian since which the comparators disagree (R258) -/
  differ : Option Nat
  /-- live CH_WIRING and CH_FUNC kinds, oldest first, each with the Meridian since which its condition is absent -/
  wl : List (Nat × Option Nat)
  fl : List (Nat × Option Nat)
  /-- last sample before the mask window read on; a low sample was seen in it (R261, R262) -/
  before : Bool
  seen : Bool
  /-- frames in a row with a good test-pulse check; a condition failed in this frame (R261, R262) -/
  frames : Nat
  frameBad : Bool
  /-- Meridian since which FA reads against the switch, or a TP output not high (R261, R270) -/
  odd : Option Nat
  /-- Meridian since which the switch has been commanded on (R273) -/
  onSince : Option Nat
  /-- Meridian of a switch-off or pulse start whose proof is still open (R274) -/
  proof : Option Nat
  /-- Meridian of the start of the test pulse or off-pulse in progress -/
  pulse : Option Nat
  /-- the index holds its value until this Meridian (R255) -/
  idxHold : Nat
  /-- FA above 11 V at the last sample -/
  rb : Bool
  /-- mis-wired at the last sample; AO_V at its current limit at the last measurement (R285, R307) -/
  crossed : Bool
  limited : Bool
  /-- Meridian at which DO_STUCK_HIGH latched (R270); it failed a proof of R274; its condition is present (R293) -/
  stuckAt : Nat
  proofBad : Bool
  stuckNow : Bool
  /-- the word last written at the index -/
  word : Nat × Qual
  /-- Meridian since which the filtered level is on; last press: Meridian of its release and its length (R310) -/
  onFrom : Option Nat
  press : Option (Nat × Nat)
  /-- release of the press this channel last took as a trim request, plus one (R310) -/
  pressUsed : Nat
  /-- reading before trim of the last conversion, where it was a measurement (R309) -/
  x : Option Int
  /-- conversions in a row that disagree, and that agree (R302) -/
  xBad : Nat
  xGood : Nat
  /-- better band the readings fall in, and since when (R298) -/
  better : Option (Nat × Nat)
  /-- trim of the conversion in progress, where an operation has replaced it (R309) -/
  useTrim : Option (Int × Nat × Int)
  /-- Meridian of the last trim operation accepted whose conversion has not started (R310) -/
  trimAt : Option Nat
  /-- AO: measurement, DAC values at the last ten measurements newest first, Meridian since which they differ (R307) -/
  meas : Nat
  aoHist : List Nat
  aoDiff : Option Nat
  measAt : Nat
  /-- Meridian at which the loop supply folded back (R315) -/
  fold : Option Nat
deriving DecidableEq, Repr

def ChSt.reset : ChSt where
  sampled := 0
  readAt := 0
  run := 0
  differ := none
  wl := []
  fl := []
  before := false
  seen := false
  frames := 0
  frameBad := false
  odd := none
  onSince := none
  proof := none
  pulse := none
  idxHold := 0
  rb := false
  crossed := false
  limited := false
  stuckAt := 0
  proofBad := false
  stuckNow := false
  word := (0, .init)
  onFrom := none
  press := none
  pressUsed := 0
  x := none
  xBad := 0
  xGood := 0
  better := none
  useTrim := none
  trimAt := none
  meas := 0
  aoHist := []
  aoDiff := none
  measAt := 0
  fold := none

/-- A bank beyond its registers. -/
structure BankSt where
  /-- Meridian at which the Shutter closed and its rail has not risen yet; Meridian before which it is not tried again (R279) -/
  rising : Option Nat
  retryAt : Option Nat
  /-- Meridian of the start of the Shutter test in progress; a test asked for (R280, R294) -/
  testAt : Option Nat
  testReq : Bool
  /-- live BANK_HEALTH and BANK_SHUTTER kinds, each with the Meridian since which its condition is absent -/
  hl : List (Nat × Option Nat)
  sl : List (Nat × Option Nat)
  /-- match triggers taken (R299, R334) -/
  seen : Nat
  /-- conversion sequence: channels left to convert, and start of the slot in progress (R299) -/
  todo : List Nat
  slotAt : Nat
deriving DecidableEq, Repr

def BankSt.reset : BankSt := ⟨none, none, none, false, [], [], 0, [], 0⟩

/-- An edge in a capture queue (R235). -/
structure SpdCap where
  time : Nat
  idx : Bool
  b : Bool
  bad : Bool
deriving DecidableEq, Repr

/-- A speed unit beyond its registers (ch. 09). -/
structure SpdSt where
  /-- capture queue, oldest first, at most 4 (R235) -/
  q : List SpdCap
  /-- Meridian of the counted edges, newest first, at most 17 (R236) -/
  hist : List Nat
  /-- intervals counted in the present direction (R236) -/
  cnt : Nat
  /-- Meridian of the last edge, of the enable, or of leaving FAULT: T_STAND runs from it (R238) -/
  since : Nat
  /-- A edges so far, and the numbers of the illegal ones of the last 256 (R242) -/
  edges : Nat
  illegal : List Nat
  /-- INDEX_SLIP: the next word is zero (R246) -/
  slip : Bool
  /-- Meridian of the entry into FAULT (R239) -/
  faultAt : Nat
deriving DecidableEq, Repr

def SpdSt.reset : SpdSt := ⟨[], [], 0, 0, 0, [], false, 0⟩

/-- Field channels, banks and speed units beyond their registers. -/
structure Fld where
  ch : Tab ChSt
  bank : Tab BankSt
  spd : Tab SpdSt
deriving DecidableEq, Repr

def Fld.reset : Fld := ⟨[], [], []⟩

/-- A fabric port beyond its registers. -/
structure PortSt where
  /-- Meridian at which its state was entered (R346) -/
  since : Nat
  /-- passing HELLOs in a row (R352) -/
  hellos : Nat
  /-- Meridian before which no training attempt starts (R346) -/
  retryAt : Option Nat
  /-- UP since the last start-up or commit (R549) -/
  wasUp : Bool
  /-- Meridian of the last block received (R346, R376) -/
  lastRx : Nat
  /-- own SYNC frame of a superframe: its T1, 1/64 ticks, and superframe count; the one before it (R353) -/
  t1 : Nat
  t1Sf : Nat
  t1Old : Nat
  /-- arrival of the neighbour's last SYNC frame and its superframe count (R353) -/
  t4 : Nat
  t4Sf : Nat
  /-- link delays of the last 16 superframes, newest first (R364) -/
  delays : List Int
  /-- a LINK_NOTICE of this port is still to be sent on it: superframe count, bits [31:0], at the detection (R351, R359) -/
  notice : Option Nat
  /-- frames and control blocks tagged in this superframe (R373); 256-bit blocks sent in it (TX_PEAK) -/
  ord : Nat
  tx : Nat
  /-- Meridian of the last HEARTBEAT or HELLO the port sent of itself (R345, R352) -/
  beat : Nat
  /-- Meridian of the last uncorrectable codewords, newest first, at most 4 (R346) -/
  fecAt : List Nat
deriving DecidableEq, Repr

def PortSt.reset : PortSt := ⟨0, 0, none, false, 0, 0, 0, 0, 0, 0, [], none, 0, 0, 0, []⟩

/-- The token of a partition as this device knows it (R368). -/
structure Tok where
  epoch : Nat
  owner : Nat
  held : Bool
  /-- a HANDBACK waits for the next major-frame boundary (R372) -/
  back : Bool
deriving DecidableEq, Repr

def Tok.reset : Tok := ⟨0, 0, false, false⟩

/-- An IMAGE or SPINE frame that passed its checks in the present image class (R358). -/
structure RxFrame where
  spine : Bool
  plane : Nat
  /-- position, or ring number -/
  origin : Nat
  payload : List Byte
deriving DecidableEq, Repr

/-- The fabric block beyond its registers (ch. 13). -/
structure Fab where
  ports : Tab PortSt
  toks : Tab Tok
  /-- receive, export, spine export and ring import tables in their TBL_DATA layouts: key 16,384·table + entry; entry counts (R357, R375) -/
  tbl : Tab (BitVec 64)
  tblCnt : Tab Nat
  /-- frames of the present image class, in order of arrival; origins whose deadline has passed (spine, origin) (R358) -/
  frames : List RxFrame
  passed : List (Bool × Nat)
  /-- receive slots written in the present image class: 2·slot + spine -/
  written : List Nat
  /-- planes PLANE_SINGLE has been raised for, and superframe (R358) -/
  single : List (Nat × Nat)
  /-- image classes in a row with no lower position, ring and spine; spine master (R366) -/
  noLower : Nat
  noLowerSpine : Nat
  spineMaster : Nat
  /-- superframes in a row that each plane has been unusable, and whether its loss is live (R360) -/
  bad : Tab Nat
  loss : Tab Bool
  /-- LINK_NOTICEs received in the last superframes: position and port (R359, R371) -/
  notices : List (Nat × Nat)
  /-- Meridian of the entry into SYNC, and the sources of R367 raised since -/
  syncAt : Nat
  unformed : List Nat
  /-- words of the spine export and ring import tables, with their integrity bits, as the superframe that ended left them (R362) -/
  fwd : Tab (List (Csw × Bool))
  /-- payloads of BULK frames waiting for the events class (R354) -/
  bulk : List (List Byte)
  /-- next entry of the collect ring (R487) -/
  collect : Nat
  /-- integrity bit the word of a receive slot arrived with (R355) -/
  safeBits : Tab Bool
  /-- winning tokens seen, EPOCH and OWNER, by 16·(home position) + home partition (R368) -/
  seen : Tab (Nat × Nat)
deriving DecidableEq, Repr

def Fab.reset : Fab where
  ports := []
  toks := []
  tbl := []
  tblCnt := []
  frames := []
  passed := []
  written := []
  single := []
  noLower := 0
  noLowerSpine := 0
  spineMaster := 0
  bad := []
  loss := []
  notices := []
  syncAt := 0
  unformed := []
  fwd := []
  bulk := []
  collect := 0
  safeBits := []
  seen := []

/-- A key slot (R392). -/
structure KeySlot where
  present : Bool
  key : BitVec 128
  epoch : Nat
  start : Nat
  retire : Nat
deriving DecidableEq, Repr

def KeySlot.reset : KeySlot := ⟨false, 0, 0, 0, 0⟩

/-- A safe-frame connection (R380 to R389, R399). -/
structure Conn where
  cfg : Word
  id : Nat
  wd : Nat
  dstIp : Nat
  nextHop : Nat
  dstMac : Nat
  /-- 0 OFF, 1 WAIT, 2 RUN, 3 TIMEOUT, 4 SAFE (R389) -/
  st : Nat
  seqL : Nat
  tsL : Nat
  /-- bytes 32 to 39 + 8n of the accepted copy, and the epoch it was tagged under (R385) -/
  held : List Byte
  heldEpoch : Nat
  /-- the accepted copy was tagged (R385) -/
  heldTag : Bool
  lastEpoch : Nat
  gap : Nat
  dup : Nat
  old : Nat
  auth0 : Nat
  auth1 : Nat
  crc0 : Nat
  crc1 : Nat
  lastKsel : Bool
  lastPath : Bool
  /-- Meridian of the entry into WAIT (R389) -/
  waitAt : Nat
  /-- SEQ of the one new copy accepted in TIMEOUT (R389) -/
  first : Option Nat
  /-- a SEQ has been sent since POR, DORMANT or the commit that set it (R382) -/
  sent : Bool
  /-- the superframe after the last in which it sent (R382) -/
  nextSf : Nat
deriving DecidableEq, Repr

def Conn.reset : Conn where
  cfg := 0
  id := 0
  wd := 0
  dstIp := 0
  nextHop := 0
  dstMac := 0
  st := 0
  seqL := 0
  tsL := 0
  held := []
  heldEpoch := 0
  heldTag := false
  lastEpoch := 0
  gap := 0
  dup := 0
  old := 0
  auth0 := 0
  auth1 := 0
  crc0 := 0
  crc1 := 0
  lastKsel := false
  lastPath := false
  waitAt := 0
  first := none
  sent := false
  nextSf := 0

/-- What a PTP slave port has measured: t2 of a Sync whose Follow_Up is awaited; t2 − t1, once Delay_Req is out, and its t3 (R394). -/
structure PtpSt where
  t2 : Option Nat
  ms : Option Int
  t3 : Nat
deriving DecidableEq, Repr

def PtpSt.reset : PtpSt := ⟨none, none, 0⟩

/-- Ethernet, safe frames, keys and site time beyond their registers (ch. 14). -/
structure Net where
  conns : Tab Conn
  /-- receive table, and transmit table from key 8,192 on, in their TBL_DATA layouts; entry counts (R399) -/
  tbl : Tab (BitVec 64)
  tblCnt : Tab Nat
  /-- key 2·owner + slot (R392, R400) -/
  keys : Tab KeySlot
  /-- staged key words (R393) -/
  staged : Tab Word
  /-- Meridian of the last PTP message; PTP_LOSS live (R395) -/
  ptpAt : Nat
  ptpLost : Bool
  ptp : Tab PtpSt
  /-- the link has been up since the last start-up; held down for its speed (R549) -/
  linkUp : Tab Bool
  heldDown : Tab Bool
  /-- owners for which KEY_NONE, and whether KEY_IV_HOLD, has been raised and holds (R391, R392) -/
  keyNone : List Nat
  ivHold : Bool
  /-- wire time of this superframe, 10 ns, by port (TX_PEAK) -/
  wire : Tab Nat
deriving DecidableEq, Repr

def Net.reset : Net := ⟨[], [], [], [], [], 0, false, [], [], [], [], false, []⟩

/-- Vernier beyond its registers (ch. 19). Timing margins are held in half picoseconds, taken back to 800 MHz (R496). -/
structure Vern where
  /-- slack of the 24 canaries in the last second at 800 MHz; shifts of the 8 pairs, 0.1 % (R495) -/
  slack : List Int
  shift : List Nat
  /-- highest erase count of any flash sector -/
  erase : Nat
  /-- least margin of each sensor in the present day: key 256·code + index (R497) -/
  day : Tab (Option Int)
  /-- trend store, newest first, at most 9,200 records (R497) -/
  trend : List (Tab (Option Int))
  /-- least m_g of the hour in progress, and hourly evaluations in a row of at least H_UP, by grade (R499) -/
  hour : Tab (Option Int)
  up : Tab Nat
  /-- least margin of each sensor in the hour in progress and the 23 before it, newest first (SEL_MARGIN) -/
  hrs : List (Tab (Option Int))
  /-- condition sensors whose margin is 0 or less: keys (R503) -/
  limits : List Nat
  /-- margin exhausted (R500); MARGIN_SHORT live (R504); a least projection of at most 365 days, and of at most 91 (R503) -/
  exhausted : Bool
  short : Bool
  warn12 : Bool
  warn3 : Bool
  /-- VERN_MARGIN, the state of R503 -/
  margin : Nat
  /-- Meridian of the last daily record (R497) -/
  dayAt : Nat
deriving DecidableEq, Repr

def Vern.reset : Vern where
  slack := []
  shift := []
  erase := 0
  day := []
  trend := []
  hour := []
  up := []
  limits := []
  hrs := []
  exhausted := false
  short := false
  warn12 := false
  warn3 := false
  margin := 3
  dayAt := 0

/-- The Nightglass domain and power beyond their registers (ch. 20). -/
structure Ngl where
  /-- RTC count at the last event of the domain, and Meridian at that event (R520) -/
  cnt : BitVec 48
  base : Nat
  valid : Bool
  kept : Bool
  xtalOk : Bool
  /-- level and alarm of the vigil inputs, 1 = closed (R521, R522) -/
  level : BitVec 4
  alarm : BitVec 4
  /-- the RTC alarm is armed for this DORMANT (R514) -/
  armed : Bool
  /-- backup log: entries, next entry, entries held, overwritten, next entry not yet imported (R524) -/
  log : Tab (BitVec 64)
  head : Nat
  held : Nat
  overwr : Nat
  imp : Nat
  /-- entries not yet imported -/
  fresh : Nat
  /-- VBAK has been sampled since start-up (R510) -/
  vbakSeen : Bool
deriving DecidableEq, Repr

def Ngl.reset : Ngl where
  cnt := 0
  base := 0
  valid := false
  kept := false
  xtalOk := true
  level := 0
  alarm := 0
  armed := false
  log := []
  head := 0
  held := 0
  overwr := 0
  imp := 0
  fresh := 0
  vbakSeen := false

/-- The whole machine. -/
structure State where
  /-- commands waiting, first in, first out -/
  pending : List Instr
  /-- device mode, slot identity, clock grade (ch. 01) -/
  dev : Dev
  /-- the register space, by BAR0 offset; an unlisted register holds its reset value (R5, R29) -/
  regs : Tab Word
  /-- the memories -/
  mem : Mems
  /-- host interfaces (ch. 02) -/
  host : HostIf
  /-- evaluation engine, pairs and partitions (ch. 04 to 07) -/
  eng : Eng
  /-- fault collector (ch. 17) -/
  flt : Flt
  /-- Logbook (ch. 18) -/
  log : Log
  /-- host events (ch. 18) -/
  evt : Evt
  /-- configuration, sessions, change log (ch. 16) -/
  cfg : Cfg
  /-- Meridian (ch. 12) -/
  mer : Mer
  /-- timer channels (ch. 12) -/
  tim : Tab TimSt
  /-- start-up, OTP, lifecycle, self-test, random numbers (ch. 15) -/
  lcs : Lcs
  /-- field channels, banks and speed units (ch. 09 to 11) -/
  field : Fld
  /-- fabric (ch. 13) -/
  fab : Fab
  /-- Ethernet, safe frames, keys (ch. 14) -/
  net : Net
  /-- Vernier (ch. 19) -/
  vern : Vern
  /-- Nightglass and power (ch. 20) -/
  ngl : Ngl
  /-- the model's own counter of free values (log 6) -/
  free : Nat
deriving DecidableEq, Repr

/-- The machine right after reset. -/
def State.reset : State where
  pending := []
  dev := Dev.reset
  regs := []
  mem := Mems.reset
  host := HostIf.reset
  eng := Eng.reset
  flt := Flt.reset
  log := Log.reset
  evt := Evt.reset
  cfg := Cfg.reset
  mer := Mer.reset
  tim := []
  lcs := Lcs.reset
  field := Fld.reset
  fab := Fab.reset
  net := Net.reset
  vern := Vern.reset
  ngl := Ngl.reset
  free := 0

/-! Changing one group of the state. -/

def State.modPending (s : State) (f : List Instr → List Instr) : State := { s with pending := f s.pending }
def State.modDev (s : State) (f : Dev → Dev) : State := { s with dev := f s.dev }
def State.modRegs (s : State) (f : Tab Word → Tab Word) : State := { s with regs := f s.regs }
def State.modMem (s : State) (f : Mems → Mems) : State := { s with mem := f s.mem }
def State.modHost (s : State) (f : HostIf → HostIf) : State := { s with host := f s.host }
def State.modEng (s : State) (f : Eng → Eng) : State := { s with eng := f s.eng }
def State.modFlt (s : State) (f : Flt → Flt) : State := { s with flt := f s.flt }
def State.modLog (s : State) (f : Log → Log) : State := { s with log := f s.log }
def State.modEvt (s : State) (f : Evt → Evt) : State := { s with evt := f s.evt }
def State.modCfg (s : State) (f : Cfg → Cfg) : State := { s with cfg := f s.cfg }
def State.modMer (s : State) (f : Mer → Mer) : State := { s with mer := f s.mer }
def State.modTim (s : State) (f : Tab TimSt → Tab TimSt) : State := { s with tim := f s.tim }
def State.modLcs (s : State) (f : Lcs → Lcs) : State := { s with lcs := f s.lcs }
def State.modField (s : State) (f : Fld → Fld) : State := { s with field := f s.field }
def State.modFab (s : State) (f : Fab → Fab) : State := { s with fab := f s.fab }
def State.modNet (s : State) (f : Net → Net) : State := { s with net := f s.net }
def State.modVern (s : State) (f : Vern → Vern) : State := { s with vern := f s.vern }
def State.modNgl (s : State) (f : Ngl → Ngl) : State := { s with ngl := f s.ngl }
def State.modFree (s : State) (f : Nat → Nat) : State := { s with free := f s.free }

end Sys2Proof.Machine
end

