-- ==== Sys2Proof/Machine/Ops.lean ====
section
/-! DEFINITION. The named operations: reading and writing registers and memories, per-instance state, time, free values,
fault messages of the detectors (R452, R453), host events (R490, R491), the Logbook (R481 to R485) and the change log
(R448, R449). -/

namespace Sys2Proof.Machine

open Sys2Proof

/-! Registers -/

/-- The register at BAR0 offset `a`. -/
def State.rd (s : State) (a : Nat) : Word := Tab.get regReset s.regs a

/-- Set the register at BAR0 offset `a`. -/
def State.wr (s : State) (a : Nat) (v : Word) : State := s.modRegs fun t => Tab.set regReset t a v

/-- Bits [lo + n − 1 : lo] of a register. -/
def State.fld (s : State) (a lo n : Nat) : Nat := natBits (s.rd a).toNat lo n

/-- One bit of a register. -/
def State.bit (s : State) (a i : Nat) : Bool := natBit (s.rd a).toNat i

/-- Set bits [lo + n − 1 : lo] of a register. -/
def State.setFld (s : State) (a lo n v : Nat) : State := s.wr a (setBits (s.rd a) lo n v)

/-- Set or clear one bit of a register. -/
def State.setBit (s : State) (a i : Nat) (b : Bool) : State := s.setFld a i 1 (b2n b)

/-- Set a register to a number modulo 2^32. -/
def State.wrN (s : State) (a v : Nat) : State := s.wr a (BitVec.ofNat 32 v)

/-- Add to a 32-bit counter that saturates. -/
def State.bumpBy (s : State) (a n : Nat) : State := s.wrN a (satAdd 32 (s.rd a).toNat n)

/-- Count one event in a saturating counter. -/
def State.bump (s : State) (a : Nat) : State := s.bumpBy a 1

/-- Count one event in a saturating counter that is a field of a register. -/
def State.bumpFld (s : State) (a lo n : Nat) : State := s.setFld a lo n (satAdd n (s.fld a lo n) 1)

/-- A wide value in two registers, low half at `a`. -/
def State.rd64 (s : State) (a : Nat) : Nat := (s.rd a).toNat + 2 ^ 32 * (s.rd (a + 4)).toNat

/-- Set a wide value. -/
def State.wr64 (s : State) (a v : Nat) : State := (s.wrN a v).wrN (a + 4) (v / 2 ^ 32)

/-- Add one to a wide counter. -/
def State.bump64 (s : State) (a : Nat) : State := s.wr64 a (s.rd64 a + 1)

/-! Per-instance state -/

def State.core (s : State) (u : Nat) : CoreSt := Tab.get (fun _ => CoreSt.reset) s.eng.cores u
def State.modCore (s : State) (u : Nat) (f : CoreSt → CoreSt) : State :=
  s.modEng fun e => { e with cores := Tab.modify (fun _ => CoreSt.reset) e.cores u f }
def State.pair (s : State) (n : Nat) : PairSt := Tab.get (fun _ => PairSt.reset) s.eng.pairs n
def State.modPair (s : State) (n : Nat) (f : PairSt → PairSt) : State :=
  s.modEng fun e => { e with pairs := Tab.modify (fun _ => PairSt.reset) e.pairs n f }
def State.part (s : State) (p : Nat) : PartSt := Tab.get (fun _ => PartSt.reset) s.eng.parts p
def State.modPart (s : State) (p : Nat) (f : PartSt → PartSt) : State :=
  s.modEng fun e => { e with parts := Tab.modify (fun _ => PartSt.reset) e.parts p f }
def State.timer (s : State) (t : Nat) : TimSt := Tab.get (fun _ => TimSt.reset) s.tim t
def State.modTimer (s : State) (t : Nat) (f : TimSt → TimSt) : State :=
  s.modTim fun x => Tab.modify (fun _ => TimSt.reset) x t f

/-! Time -/

/-- Meridian (R319). -/
def State.now (s : State) : Nat := s.mer.now.toNat

/-- The superframe count (R69). -/
def State.sf (s : State) : Nat := s.now / 6250

/-- Meridian takes a value; the second copy moves by as much. -/
def State.setNow (s : State) (t : Nat) : State :=
  s.modMer fun m => { m with now := BitVec.ofNat 64 t, dup := m.dup + (BitVec.ofNat 64 t - m.now) }

/-- Let Meridian reach `t`; it never goes back (R324), and stands in DORMANT (R319). -/
def State.advanceTo (s : State) (t : Nat) : State := if s.now < t && s.dev.mode ≠ .dormant then s.setNow t else s

/-- The first multiple of `n` after Meridian. -/
def State.nextMultiple (s : State) (n : Nat) : Nat := (s.now / n + 1) * n

/-- One tick of CLK_TB with no command: both copies of Meridian count where Meridian runs (R319; log 4). -/
def State.tick (s : State) : State :=
  if s.dev.pllLocked && s.dev.mode ≠ .dormant then s.modMer fun m => { m with now := m.now + 1, dup := m.dup + 1 } else s

/-- A free value (log 6). -/
def State.freeVal (s : State) : BitVec 64 := Config.freeValue s.free

/-- The next free value is another one. -/
def State.useFree (s : State) : State := s.modFree (· + 1)

/-! Configuration facts -/

/-- Signal ID of a local index of this device (R54). -/
def State.selfId (s : State) (idx : Nat) : Nat := s.dev.slot.toNat * 512 + idx % 512

/-- A_p of a partition (R60). -/
def State.aP (s : State) (p : Nat) : Nat := s.fld (rPart_A_P p) 0 16

/-- PT_MODE.MODE: 0 STOP, 1 RUN, 2 MAINTENANCE, 3 SAFE_STATE, 4 LOCKED_OUT (R103). -/
def State.ptMode (s : State) (p : Nat) : Nat := s.fld (rPart_PT_MODE p) 0 3

/-- Is the partition in RUN or MAINTENANCE? -/
def State.ptLive (s : State) (p : Nat) : Bool := s.ptMode p = 1 || s.ptMode p = 2

/-- PT_CFG.CLASS = SAFE (R103). -/
def State.ptSafe (s : State) (p : Nat) : Bool := s.bit (rPart_PT_CFG p) 0

/-- PT_CFG.ESSENTIAL (R103). -/
def State.ptEssential (s : State) (p : Nat) : Bool := s.bit (rPart_PT_CFG p) 2

/-- PT_CFG.PAIR (R77). -/
def State.ptPair (s : State) (p : Nat) : Nat := s.fld (rPart_PT_CFG p) 4 2

/-- PT_CFG.TRAP_RX (R93). -/
def State.ptTrapRx (s : State) (p : Nat) : Nat := s.fld (rPart_PT_CFG p) 12 2

/-- CMODE of a pair (R162). -/
def State.cmode (s : State) (n : Nat) : Nat := s.fld (rPair_PR_STAT n) 0 3

/-- The partition that produces an index 256–511, if any (R55). -/
def State.producer (s : State) (idx : Nat) : Option Nat :=
  match Tab.get (fun _ => 0) s.eng.prod idx with
  | 0 => none
  | p + 1 => some p

/-- The constant a local index is stored under (R72). An index 256–511 with no producer is stored under A_t (log 9). -/
def State.localA (s : State) (idx : Nat) : Nat :=
  if idx < 256 then aT else match s.producer idx with
    | some p => s.aP p
    | none => aT

/-- Is the device mode one of those in which the device runs its applications? -/
def State.modeIs (s : State) (m : DevMode) : Bool := decide (s.dev.mode = m)

/-- MODE code of R15. -/
def DevMode.code : DevMode → Nat
  | .boot => 0 | .selftest => 1 | .sync => 2 | .operate => 3 | .harebell => 4 | .halted => 5 | .dormant => 6

/-- GRADE code of R100. -/
def Grade.code : Grade → Nat
  | .g800 => 0 | .g640 => 1 | .g533 => 2

/-- Master number 0 = PCIe host, 1 = SPI master (R45). -/
def masterNum : Master → Nat
  | .pcie => 0 | .spi => 1

/-! Image SRAM (R8, R75) -/

/-- Read a word of image SRAM whole. -/
def State.imgRd (s : State) (off : Nat) : Csw := Mem.w64 s.mem.img off

/-- Does an uncorrectable error stand in one of `n` bytes of image SRAM (R551)? -/
def State.imgFlawed (s : State) (off n : Nat) : Bool := s.eng.imgBad.any fun a => decide (off < a + 8) && decide (a < off + n)

/-- Read a coded word of image SRAM for its checks under `id`: one with an uncorrectable error fails them (R551). -/
def State.imgCsw (s : State) (off id : Nat) : Csw :=
  if s.imgFlawed off 8 then spoiled id (s.imgRd off) else s.imgRd off

/-- Write a word of image SRAM whole; the write counts for the sweep (R71) and ends an ECC error of the word (R551). -/
def State.imgWr (s : State) (off : Nat) (w : Csw) : State :=
  let s1 := s.modMem fun m => { m with img := Mem.setW64 m.img off w }
  s1.modEng fun e => { e with
    lastWr := Tab.set (fun _ => 0) e.lastWr off s.sf
    imgBad := e.imgBad.filter (· ≠ off)
    mapRep := e.mapRep.filter (· ≠ off) }

/-- Is a force held on a local index (R432)? -/
def State.forced (s : State) (idx : Nat) : Bool :=
  anyBelow 16 fun p => (s.part p).forces.any (·.1 = idx)

/-- The device writes a local index with a value and a quality, AGE current (R56, R68, R71). -/
def State.devWrite (s : State) (idx v : Nat) (q : Qual) : State :=
  s.imgWr (8 * idx) (mkCsw (s.localA idx) (s.selfId idx) v s.sf q)

/-- A producer writes its local index; a force suppresses it (R432). -/
def State.produce (s : State) (idx v : Nat) (q : Qual) : State :=
  if s.forced idx then s else s.devWrite idx v q

/-- Change every listed item in turn. -/
def State.each {α : Type} (s : State) (xs : List α) (f : State → α → State) : State := xs.foldl f s

/-- Apply a change when a condition holds. -/
def State.when (s : State) (b : Bool) (f : State → State) : State := if b then f s else s

/-! Fault messages (R452, R453) -/

def State.det (s : State) (src : Nat) : Det := Tab.get (fun _ => Det.reset) s.flt.det src

/-- The EV_RAW bit of a page that stands for a fault source or an operational event: page and bit (R250, R292, R294, R341,
R342, R376, R398). -/
def evBit (n : Nat) : Option (Nat × Nat) :=
  if 256 ≤ n ∧ n < 320 then match (n - 256) % 8 with
    | 0 => some (0x051 + (n - 256) / 8, 0)
    | 1 => some (0x051 + (n - 256) / 8, 1)
    | 4 => some (0x051 + (n - 256) / 8, 2)
    | 5 => some (0x051 + (n - 256) / 8, 3)
    | _ => none
  else if 352 ≤ n ∧ n < 360 then some (0x070 + (n - 352) / 4, (n - 352) % 4)
  else if 384 ≤ n ∧ n < 768 then some (0x100 + (n - 384) / 2, (n - 384) % 2)
  else if 768 ≤ n ∧ n < 816 then some (0x080 + (n - 768) / 2, 2 * ((n - 768) % 2))
  else if 816 ≤ n ∧ n < 880 then some (0x0A0 + (n - 816) / 2, (n - 816) % 2)
  else if 880 ≤ n ∧ n < 928 then some (0x019 + (n - 880) / 16, 16 + (n - 880) % 16)
  else if n = 928 then some (0x018, 0)
  else if n = 929 then some (0x018, 1)
  else if n = 932 then some (0x018, 2)
  else if n = 933 then some (0x018, 3)
  else if 1088 ≤ n ∧ n < 1120 then some (0x0A0 + (n - 1088), 2)
  else if 1120 ≤ n ∧ n < 1152 then some (0x0A0 + (n - 1120), 3)
  else if 1152 ≤ n ∧ n < 1200 then some (0x019 + (n - 1152) / 16, (n - 1152) % 16)
  else if 1200 ≤ n ∧ n < 1392 then some (0x100 + (n - 1200), 3)
  else if 1392 ≤ n ∧ n < 1416 then some (0x080 + (n - 1392), 1)
  else none

/-- Hardware sets bits of a page's EV_STICKY (R37, R39). -/
def State.evSet (s : State) (pg mask : Nat) : State :=
  s.wr (rPg_EV_STICKY pg) (s.rd (rPg_EV_STICKY pg) ||| BitVec.ofNat 32 mask)

/-- The sticky bit of the page event that a source or operational event is, if it is one. -/
def State.evMark (s : State) (n : Nat) : State :=
  match evBit n with
  | some (pg, b) => s.evSet pg (2 ^ b)
  | none => s

/-- A detector reports an event: it holds the message until the collector takes it (R453). -/
def State.raiseInj (s0 : State) (src kind addr : Nat) (inj : Bool) : State :=
  let s := s0.evMark src
  let d := s.det src
  if d.held then
    if d.rep < 15 then s.modFlt fun f => { f with det := Tab.set (fun _ => Det.reset) f.det src { d with rep := d.rep + 1 } }
    else s.bump rFlt0_BUS_SAT
  else s.modFlt fun f => { f with det := Tab.set (fun _ => Det.reset) f.det src ⟨true, kind, addr, 0, d.bad, inj, s.now⟩ }

/-- A detector reports a real event. -/
def State.raise (s : State) (src kind addr : Nat) : State := s.raiseInj src kind addr false

/-- A source without kind and address hint. -/
def State.raise0 (s : State) (src : Nat) : State := s.raise src 0 0

/-! Page events (R37, R39) -/

/-- Hardware sets or clears bits of a page's EV_RAW; a bit that begins sets its sticky bit. -/
def State.evRaw (s : State) (pg mask : Nat) (b : Bool) : State :=
  let m := BitVec.ofNat 32 mask
  if b then (s.wr (rPg_EV_RAW pg) (s.rd (rPg_EV_RAW pg) ||| m)).evSet pg mask
  else s.wr (rPg_EV_RAW pg) (s.rd (rPg_EV_RAW pg) &&& ~~~ m)

/-! Host events (R43, R490, R491) -/

/-- Routing entry of an event. -/
def State.route (s : State) (n : Nat) : BitVec 9 := Tab.get (fun _ => 0) s.evt.route n

/-- A pending bit (R490). -/
def State.pendBit (s : State) (n : Nat) : Bool := s.bit (rEvt_PEND (n / 32)) (n % 32)

/-- Bus Master Enable and MSI-X enable (R43). -/
def State.msixOn (s : State) : Bool := s.host.msixEn && s.bit rHost_LINK_STAT 8

/-- Is a vector in service (R491)? -/
def State.inService (s : State) (v : Nat) : Bool :=
  if v < 32 then s.bit rEvt_INSVC_LO v else s.bit rEvt_INSVC_HI (v - 32)

/-- Set or clear a vector's in-service bit. -/
def State.setInService (s : State) (v : Nat) (b : Bool) : State :=
  if v < 32 then s.setBit rEvt_INSVC_LO v b else s.setBit rEvt_INSVC_HI (v - 32) b

/-- Record an output of the block (log 8). -/
def State.emit (s : State) (o : Out) : State := s.modHost fun h => { h with out := h.out ++ [o] }

/-- Ask for the MSI-X message of a vector: none while it is in service; a masked vector sets its pending bit, also while Bus Master Enable
is clear (R43, R491). -/
def State.sendVec (s : State) (v : Nat) : State :=
  if s.inService v || !s.host.msixEn then s
  else if Tab.get (fun _ => true) s.host.vmask v then s.modHost fun h => { h with vpend := Tab.set (fun _ => false) h.vpend v true }
  else if !s.msixOn then s
  else (s.emit (.msix v (Tab.get (fun _ => 0) s.host.vaddr v) (Tab.get (fun _ => 0) s.host.vdata v))).setInService v true

/-- Is any pending bit with MSI = 1 routed to the vector? -/
def State.vecWanted (s : State) (v : Nat) : Bool :=
  s.evt.route.any fun e => s.pendBit e.1 && e.2.getLsbD 6 && decide (natBits e.2.toNat 0 6 = v)

/-- Does an event set its pending bit: it is routed to the host and, where it is a bit of a page's EV_RAW, enabled there (R490)? -/
def State.pendTakes (s : State) (n : Nat) : Bool :=
  ((s.route n).getLsbD 6 || (s.route n).getLsbD 7) && (match evBit n with
    | some (pg, b) => s.bit (rPg_EV_EN pg) b
    | none => true)

/-- An event occurs: its pending bit sets, and its vector's message is asked for (R490, R43). -/
def State.pendSet (s : State) (n : Nat) : State :=
  let r := s.route n
  if s.pendTakes n then
    let s1 := s.setBit (rEvt_PEND (n / 32)) (n % 32) true
    if r.getLsbD 6 then s1.sendVec (natBits r.toNat 0 6) else s1
  else s

/-- An event number occurs: an operational event also sets its page's sticky bit (R37, R490). -/
def State.event (s : State) (n : Nat) : State :=
  (if 1024 ≤ n then s.evMark n else s).pendSet n

/-- INT_N asserted: a pending bit with INT = 1 (R44, R491). -/
def State.intN (s : State) : Bool := s.evt.route.any fun e => s.pendBit e.1 && e.2.getLsbD 7

/-! The Logbook (R481 to R485) -/

/-- Record slots of the ring (R484). -/
def State.logN (s : State) : Nat := if s.bit rLog_LOG_CFG 7 then 122880 else 131072

/-- FREE (R484). -/
def State.logFree (s : State) : Nat := s.logN - s.log.fill

/-- Is a record of priority `k` admitted (R484, R471)? -/
def State.logAdmits (s : State) (k : Nat) : Bool :=
  if s.modeIs .harebell && k ≠ 0 then false
  else decide ((match k with
    | 0 => 0
    | 1 => s.logN / 4
    | 2 => 3 * s.logN / 8
    | _ => s.logN / 2) < s.logFree)

/-- The 32 bytes of a record (R481). -/
def logBytes (r : LogRec) (seq : Nat) : List Byte :=
  let body := natLe 8 r.time ++ natLe 4 seq ++ natLe 2 r.src ++ natLe 1 r.kind
    ++ natLe 1 (r.prio + (match r.part with | some p => 4 * p + 64 | none => 0) + 128 * b2n r.inj)
    ++ natLe 2 r.count ++ natLe 2 r.addr ++ natLe 8 r.data.toNat
  body ++ natLe 4 (crc32c body).toNat

/-- Slots of the ring between a consumer's pointer and WP, of those not yet released (R485). -/
def State.logPend (s : State) (rp : Nat) : Nat :=
  if rp = s.log.rel then s.log.fill else min s.log.fill ((s.fld rLog_WP 0 17 + s.logN - rp % s.logN) % s.logN)

/-- Slots that holding consumers have not yet passed (R485). -/
def State.logWanted (s : State) : Nat :=
  max (if s.bit rLog_LOG_CFG 0 then s.logPend (s.fld rLog_SPILL_RP 0 17) else 0)
    (if s.bit rLog_LOG_CFG 6 then s.logPend (s.fld rLog_HOST_RP 0 17) else 0)

/-- A record takes its SEQ, and its slot where it is admitted; else it is dropped (R484, R485). -/
def State.logPut (s : State) (r : LogRec) : State :=
  let seq := (s.rd rLog_SEQ_NEXT).toNat
  let s1 := s.wrN rLog_SEQ_NEXT (seq + 1)
  if s.logAdmits r.prio then
    let wp := s.fld rLog_WP 0 17
    let s2 := s1.modMem fun m => { m with logm := Mem.write m.logm (32 * wp) (logBytes r seq) }
    (s2.setFld rLog_WP 0 17 ((wp + 1) % s.logN)).modLog fun l => { l with fill := l.fill + 1 }
  else
    let s2 := s1.bump (rLog_DROP_P r.prio)
    if r.prio = 0 then s2.raise0 88
    else if s.log.dropBucket = some (s.now / 100000) then s2
    else (s2.modLog fun l => { l with dropBucket := some (s.now / 100000) }).raise0 89

/-- Do two records merge (R483)? -/
def LogRec.like (a b : LogRec) : Bool :=
  a.src = b.src && a.kind = b.kind && a.part = b.part && a.inj = b.inj && a.time / 100000 = b.time / 100000

/-- Two records merge: the count is both events', the rest the first one's, but for the class acted on and the priority where the later event
escalated (R482, R483; log 146). -/
def LogRec.merge (x r : LogRec) : LogRec := { x with
  count := satAdd 16 x.count r.count
  prio := min x.prio r.prio
  data := if r.prio < x.prio then r.data else x.data }

/-- Add a record to the first open record it merges with; none where there is none. -/
def mergeRec (r : LogRec) : List LogRec → Option (List LogRec)
  | [] => none
  | x :: xs => if x.like r then some (x.merge r :: xs)
    else (mergeRec r xs).map (x :: ·)

/-- A record of priority P0, P2 or P3 enters the coalescing buffer; with 16 entries open `put` commits it (R483). -/
def State.logOpen (s : State) (put : State → LogRec → State) (r : LogRec) : State :=
  match mergeRec r s.log.coal with
  | some l => (s.modLog fun g => { g with coal := l }).bumpBy rLog_COAL_CNT r.count
  | none =>
    if s.log.coal.length < 16 then s.modLog fun g => { g with coal := g.coal ++ [r] }
    else put s { r with count := 1 }

/-- An event of the Logbook itself: host event, and a P3 record where its routing has LOG = 1 (R489, R490). -/
def State.logEvent (s : State) (n data : Nat) : State :=
  (s.event n).when ((s.route n).getLsbD 8) fun x =>
    x.logOpen State.logPut ⟨x.now, n, 0, 3, none, false, 1, 0, BitVec.ofNat 64 data⟩

/-- Release `k` slots: a record the stream has not sent is skipped (R485, R487). -/
def State.logRelease : Nat → State → State
  | 0, s => s
  | k + 1, s =>
    let slot := s.log.rel
    let streamed := s.bit rLog_LOG_CFG 3 && decide (s.fld rLog_STREAM_RP 0 17 = slot)
    let prio := natBits (Mem.byte s.mem.logm (32 * slot + 15)).toNat 0 2
    let s1 := if streamed then s.setFld rLog_STREAM_RP 0 17 ((slot + 1) % s.logN) else s
    let s2 := if streamed && decide (prio ≤ s.fld rLog_LOG_CFG 4 2) then
        (s1.raise0 92).logEvent 1070 (Mem.w32 s.mem.logm (32 * slot + 8)).toNat else s1
    State.logRelease k (s2.modLog fun l => { l with fill := l.fill - 1, rel := (slot + 1) % s.logN })

/-- Release what every holding consumer has passed; a pointer whose consumer is off stands at WP. -/
def State.logTidy (s : State) : State :=
  let wp := s.fld rLog_WP 0 17
  let s1 := s.when (!s.bit rLog_LOG_CFG 0) fun x => x.setFld rLog_SPILL_RP 0 17 wp
  let s2 := s1.when (!s.bit rLog_LOG_CFG 3) fun x => x.setFld rLog_STREAM_RP 0 17 wp
  s2.logRelease (s2.log.fill - s2.logWanted)

/-- Commit a record (R484, R485, R489). -/
def State.logCommit (s : State) (r : LogRec) : State :=
  let s1 := (s.logPut r).logTidy
  let s2 := s1.when (s.logFree ≠ s1.logFree && s1.logFree = 3 * s1.logN / 8) fun x => x.logEvent 1068 0
  s2.when (s.bit rLog_LOG_CFG 0 && s.logPend (s.fld rLog_SPILL_RP 0 17) = s.logN / 2
    && s1.logPend (s1.fld rLog_SPILL_RP 0 17) = s.logN / 2 + 1) fun x => x.logEvent 1069 0

/-- A record: P1 is committed at once, the others are coalesced (R483). -/
def State.logAdd (s : State) (r : LogRec) : State :=
  if r.prio = 1 then s.logCommit r else s.logOpen State.logCommit r

/-- Commit every open record (R483). -/
def State.logFlush (s : State) : State :=
  s.log.coal.foldl State.logCommit (s.modLog fun g => { g with coal := [] })

/-- Operational events logged at P1 whatever their routing (R489). -/
def eventIsP1 (n : Nat) : Bool :=
  n = 1024 || n = 1025 || n = 1030 || (1032 ≤ n && n ≤ 1063) || n = 1072 || n = 1075

/-- An operational event: host event, and Logbook record at P1 or P3 (R489, R490). -/
def State.opEvent (s : State) (n : Nat) (part : Option Nat) (data : Nat) : State :=
  let s1 := s.event n
  let r : LogRec := ⟨s.now, n, 0, if eventIsP1 n then 1 else 3, part, false, 1, 0, BitVec.ofNat 64 data⟩
  if eventIsP1 n || (s.route n).getLsbD 8 then s1.logAdd r else s1

/-! The change log (R448, R449) -/

/-- The device's image hash in force, first 16 bytes as a number, byte 0 least significant. -/
def State.imgHash16 (s : State) : Nat :=
  (s.rd (rCfg_IMG_HASH 0)).toNat + 2 ^ 32 * (s.rd (rCfg_IMG_HASH 1)).toNat + 2 ^ 64 * (s.rd (rCfg_IMG_HASH 2)).toNat
    + 2 ^ 96 * (s.rd (rCfg_IMG_HASH 3)).toNat

/-- The bytes of a 256-bit hash, first byte first. -/
def hashBytes (h : BitVec 256) : List Byte := natBe 32 h.toNat

/-- Bytes 4 to 51 of an entry: everything but SEQ and LINK. -/
def clogBody (s : State) (role part master result action target : Nat) (detail : List Byte) : List Byte :=
  natLe 8 s.now ++ natLe 1 role ++ natLe 1 part ++ natLe 1 master ++ natLe 1 result ++ natLe 2 action ++ natLe 2 target
    ++ natLe 16 s.imgHash16 ++ (detail ++ List.replicate 16 (0 : Byte)).take 16

/-- An entry reaches flash: it takes its SEQ and its LINK to the entry before it (R448). -/
def State.clogWrite (s : State) (body : List Byte) : State :=
  let seq := s.cfg.clogSeq + 1
  let prev := Mem.bytes s.mem.clog (64 * (s.cfg.clogSeq % 4096)) 64
  let entry := natLe 4 seq ++ body ++ (hashBytes (Config.sha256 prev)).take 12
  let s1 := s.modMem fun m => { m with clog := Mem.write m.clog (64 * (seq % 4096)) entry }
  (s1.modCfg fun c => { c with clogSeq := seq }).wrN rCfg_CLOG_HEAD seq

/-- A master's session (R433). -/
def State.sess (s : State) (m : Master) : Session := Tab.get (fun _ => Session.reset) s.cfg.sess (masterNum m)
def State.modSess (s : State) (m : Master) (f : Session → Session) : State :=
  s.modCfg fun c => { c with sess := Tab.modify (fun _ => Session.reset) c.sess (masterNum m) f }

/-- ROLE byte of a change-log entry for a master (R448). -/
def State.clogRole (s : State) (m : Master) : Nat := (s.sess m).role

/-- An entry written without guarding an action: refusals, failed sessions and what R449 does not name. -/
def State.clogNote (s : State) (role part master result action target : Nat) (detail : List Byte) : State :=
  s.clogWrite (clogBody s role part master result action target detail)

/-- An action waits for its entry to reach flash (R449). -/
def State.clogGuard (s : State) (role part master action target : Nat) (detail : List Byte) (a : PendAct) : State :=
  s.modCfg fun c => { c with queue := c.queue ++ [(clogBody s role part master 0 action target detail, a)] }

/-- A gated block wakes for work (R32, R102). -/
def State.wakePage (s : State) (pg : Nat) : State := s.setFld (rPg_PM_STAT pg) 0 2 0

/-! Wrapping a meaning -/

/-! The RTC (R520) -/

/-- Does CLK_TB run: the count then follows Meridian? -/
def State.tbRuns (s : State) : Bool := s.dev.vlogValid && s.dev.pllLocked && !s.modeIs .dormant

/-- The RTC count now (R520; log 54). -/
def State.rtcNow (s : State) : Nat :=
  if s.tbRuns then (s.ngl.cnt.toNat + (s.now - s.ngl.base) * 32768 / 100000000) % 2 ^ 48 else s.ngl.cnt.toNat

/-- The count becomes `c` at the present Meridian. -/
def State.rtcSet (s : State) (c : Nat) : State := s.modNgl fun n => { n with cnt := BitVec.ofNat 48 c, base := s.now }

/-- Every command of the table has an effect: a next state. -/
def done (s : State) : Host.Outcome State Fault Refusal := .next s

end Sys2Proof.Machine
end

