-- ==== Sys2Proof/Machine/Flags.lean ====
section
/-! DEFINITION. FLAGS (R104), the conditions of BCC (R124) and CCMP (R118), and the cycle counts of instructions (R109). -/

namespace Sys2Proof.Machine

/-- FLAGS.FIRST, TAKEOVER, INLOOP, ITER (R104). -/
def flagFirst (f : Word) : Bool := f.getLsbD 0
def flagTakeover (f : Word) : Bool := f.getLsbD 1
def flagInLoop (f : Word) : Bool := f.getLsbD 2
def flagIter (f : Word) : Nat := natBits f.toNat 3 8

/-- FLAGS at slot start: FIRST and TAKEOVER as defined, INLOOP and ITER clear (R104). -/
def flagsStart (first takeover : Bool) : Word := BitVec.ofNat 32 (b2n first + 2 * b2n takeover)

/-- FLAGS with INLOOP and ITER (R125). -/
def flagsLoop (f : Word) (inLoop : Bool) (iter : Nat) : Word := setBits (setBits f 2 1 (b2n inLoop)) 3 8 iter

/-- BCC conditions; 6 and 7 and above are reserved (R124). -/
def bccHolds (cc : Nat) (a b : Word) : Bool :=
  match cc with
  | 0 => a == b
  | 1 => a != b
  | 2 => a.slt b
  | 3 => !(a.slt b)
  | 4 => a.ult b
  | 5 => !(a.ult b)
  | _ => false

/-- CCMP relations on 16-bit patterns; 6 and 7 are reserved (R118). -/
def ccmpHolds (cc : Nat) (a b : BitVec 16) : Bool :=
  match cc with
  | 0 => a == b
  | 1 => a != b
  | 2 => a.ult b
  | 3 => !(a.ult b)
  | 4 => a.slt b
  | 5 => !(a.slt b)
  | _ => false

/-- Fold 64 bits of compared outputs into a MISR: feedback polynomial x⁶⁴ + x⁴ + x³ + x + 1 (R164; log 18). -/
def misrStep (m w : BitVec 64) : BitVec 64 :=
  ((m <<< 1) ^^^ (if m.getLsbD 63 then 0x1B#64 else 0)) ^^^ w

/-- Core cycles of an instruction of c core cycles and s CLK_SYS cycles at a grade: c + ceil(s × f / 400 MHz), where
533 MHz is 3.2 GHz / 6 (R12, R109). -/
def cycles (g : Grade) (c s : Nat) : Nat :=
  c + match g with
    | .g800 => 2 * s
    | .g640 => (8 * s + 4) / 5
    | .g533 => (4 * s + 2) / 3

/-- Ticks of Meridian that `n` core cycles take, rounded up: 1.25, 1.5625 or 1.875 ns each (R79). -/
def cycleTicks (g : Grade) (n : Nat) : Nat :=
  match g with
  | .g800 => (n + 7) / 8
  | .g640 => (5 * n + 31) / 32
  | .g533 => (3 * n + 15) / 16

end Sys2Proof.Machine
end

