-- ==== Sys2Proof/Machine/Modes.lean ====
section
/-! DEFINITION. Shared operations over modes: the partition window's areas (R131), the start of a partition (R106),
partition modes (R429), the trap reaction (R93), the Shutters' requests (R277), device modes (R16), the safe state
(R470) and Harebell (R471). -/

namespace Sys2Proof.Machine

open Sys2Proof

/-! The partition window (R84, R131) -/

/-- Image SRAM offset of a partition's window. -/
def State.winBase (s : State) (p : Nat) : Nat := s.fld (rPart_WIN_BASE p) 12 20 * 4096

/-- Bytes of the window. -/
def State.winSize (s : State) (p : Nat) : Nat := s.fld (rPart_WIN_SIZE p) 12 9 * 4096

/-- A 32-bit word of the window header (R131). -/
def State.winHdr (s : State) (p byte : Nat) : Nat := (Mem.w32 s.mem.img (s.winBase p + byte)).toNat

/-- An area of the window (R131): its offset 8-aligned, at most `most` entries of `size` bytes, all inside the window. -/
def State.areaOk (s : State) (p byte size most : Nat) : Bool :=
  decide (s.winHdr p byte % 8 = 0) && decide (s.winHdr p (byte + 4) ≤ most)
  && decide (s.winHdr p byte + size * s.winHdr p (byte + 4) ≤ s.winSize p)

/-- Does the header check: identity, zero bytes, CRC, counts, and every area inside the window (R131)? -/
def State.winOk (s : State) (p : Nat) : Bool :=
  !s.imgFlawed (s.winBase p) 64 && decide (s.winHdr p 0 = p + 0x100)
  && decide (s.winHdr p 44 = 0) && decide (s.winHdr p 48 = 0) && decide (s.winHdr p 52 = 0) && decide (s.winHdr p 60 = 0)
  && decide (s.winHdr p 56 = (crc32c (Mem.bytes s.mem.img (s.winBase p) 56)).toNat)
  && decide (s.winHdr p 8 = s.fld (rPart_LIST_CNT p) 0 13) && decide (s.winHdr p 16 = s.fld (rPart_LIST_CNT p) 16 10)
  && s.areaOk p 4 8 4096 && s.areaOk p 12 8 512 && s.areaOk p 20 64 1024 && s.areaOk p 28 32 256 && s.areaOk p 36 8 1024

/-- Offsets in image SRAM of the window's entries and records. -/
def State.impAt (s : State) (p e : Nat) : Nat := s.winBase p + s.winHdr p 4 + 8 * e
def State.expAt (s : State) (p x : Nat) : Nat := s.winBase p + s.winHdr p 12 + 8 * x

/-- SAFE_INT of the export entry of a produced index (R133). -/
def State.exportSafe (s : State) (idx : Nat) : Bool :=
  match s.producer idx with
  | some p => (List.range (s.winHdr p 16)).any fun x =>
    let w := (Mem.w32 s.mem.img (s.expAt p x)).toNat
    natBits w 0 9 = idx && natBit w 10
  | none => false
def State.fbAt (s : State) (p i : Nat) : Nat := s.winBase p + s.winHdr p 20 + 64 * i
def State.tmrAt (s : State) (p t : Nat) : Nat := s.winBase p + s.winHdr p 28 + 32 * t
def State.varAt (s : State) (p k : Nat) : Nat := s.winBase p + s.winHdr p 36 + 8 * k

/-- Write bytes into image SRAM outside the CSW areas; a word written whole holds no ECC error any more (R551). -/
def State.imgBytes (s : State) (off : Nat) (bs : List Byte) : State :=
  (s.modMem fun m => { m with img := Mem.write m.img off bs }).modEng fun e => { e with
    imgBad := e.imgBad.filter fun a => a < off || off + bs.length < a + 8
    mapRep := e.mapRep.filter fun a => a < off || off + bs.length < a + 8 }

/-! Checkpoint records (R171, R172) -/

/-- The 1,024 bytes of a context record. -/
def ctxRecord (p half gen stime sfc : Nat) (c : Ctx) (idle swap : Bool) : List Byte :=
  let body := natLe 4 (p + 16 * half + 0x100 + 0x10000) ++ natLe 4 gen ++ natLe 8 stime ++ natLe 4 sfc
    ++ natLe 4 c.flags.toNat ++ natLe 4 (b2n idle + 2 * b2n swap) ++ natLe 4 0
    ++ ((List.range 32).flatMap fun n => natLe 8 (Tab.get (fun _ => (0 : Csw)) c.c n).toNat)
    ++ ((List.range 16).flatMap fun n => natLe 4 (Tab.get (fun _ => (0 : Word)) c.p n).toNat)
    ++ List.replicate 668 (0 : Byte)
  body ++ natLe 4 (crc32c body).toNat

/-- Ephemeris offset of the record of a partition in a half (R170). -/
def ephAt (p half : Nat) : Nat := 0x200000 * half + 0x400 * p

/-- Write a checkpoint record; the words written are good again (R174). -/
def State.ephWrite (s : State) (off : Nat) (bs : List Byte) : State :=
  let s1 := s.modMem fun m => { m with eph := Mem.write m.eph off bs }
  s1.modEng fun e => { e with
    ephBad := e.ephBad.filter (fun a => a < off || off + bs.length ≤ a)
    ephRep := e.ephRep.filter (fun a => a < off || off + bs.length ≤ a) }

/-- Write the record of GEN `gen` into its half and mark it in force (R172). -/
def State.ckptWrite (s : State) (p gen stime sfc : Nat) (c : Ctx) (idle swap : Bool) : State :=
  let s1 := s.ephWrite (ephAt p (gen % 2)) (ctxRecord p (gen % 2) gen stime sfc c idle swap)
  (s1.modPart p fun x => { x with gen := gen }).bump64 rEph_CKPT_CNT_LO

/-- A restore's choice: the record with VALID = 1 and the higher GEN, if its RCRC and ECC are good (R173). -/
def State.ephPick (s : State) (p : Nat) : Option Nat :=
  let ok h := natBit (Mem.w32 s.mem.eph (ephAt p h)).toNat 16
  let gen h := (Mem.w32 s.mem.eph (ephAt p h + 4)).toNat
  let good h := decide ((Mem.w32 s.mem.eph (ephAt p h + 1020)) = crc32c (Mem.bytes s.mem.eph (ephAt p h) 1020))
    && !(s.eng.ephBad.any fun a => decide (ephAt p h ≤ a) && decide (a < ephAt p h + 1024))
  let h := if ok 0 && ok 1 then (if gen 0 ≤ gen 1 then 1 else 0) else if ok 0 then 0 else 1
  if (ok 0 || ok 1) && good h then some h else none

/-- The context a record holds. -/
def State.ephCtx (s : State) (p h : Nat) : Ctx :=
  let a := ephAt p h
  ⟨(List.range 32).foldl (fun t n => Tab.set (fun _ => (0 : Csw)) t n (Mem.w64 s.mem.eph (a + 32 + 8 * n))) [],
   (List.range 16).foldl (fun t n => Tab.set (fun _ => (0 : Word)) t n (Mem.w32 s.mem.eph (a + 288 + 4 * n))) [],
   Mem.w32 s.mem.eph (a + 20)⟩

/-! Entering RUN or MAINTENANCE (R106) -/

/-- The initial context: every coded register v = 0, QUAL INIT; P and FLAGS zero. -/
def State.initCtx (s : State) (p : Nat) : Ctx :=
  ⟨(List.range 32).foldl (fun t n => Tab.set (fun _ => (0 : Csw)) t n (mkCsw (s.aP p) (tagReg n) 0 s.sf .init)) [], [], 0⟩

/-- A timer record returned to idle (R106, R134). -/
def idleTimer (rec : List Byte) : List Byte :=
  let w := leNat ((rec.drop 16).take 4) % 16
  let body := rec.take 8 ++ natLe 8 0 ++ natLe 4 w
  body ++ natLe 4 (crc32c body).toNat ++ natLe 8 0

/-- An instance record reset: configuration as committed, dynamic fields zero, LO_CNT kept (R106, R199; log 11). -/
def resetFb (committed present : List Byte) : List Byte :=
  let body := committed.take 2 ++ natLe 2 0 ++ natLe 16 0 ++ (committed.drop 20).take 2 ++ natLe 2 0
    ++ (committed.drop 24).take 24 ++ natLe 8 0 ++ natLe 2 0 ++ (present.drop 58).take 2
  body ++ natLe 4 (crc32c body).toNat

/-- The device's work when a partition enters RUN or MAINTENANCE from STOP, SAFE_STATE or LOCKED_OUT (R106, R172). No slot wrote
the initial record: its STIME and SFC are Meridian and the superframe count of the moment (log 115). A swap latched before waits on for its
boundary (R97). -/
def State.startPart (s : State) (p : Nat) : State :=
  let c := s.initCtx p
  let s1 := s.each (List.range (s.winHdr p 40)) fun x k =>
    x.imgBytes (x.varAt p k) (Mem.bytes x.mem.win (x.varAt p k) 8)
  let s2 := s1.each (List.range (s.winHdr p 32)) fun x t =>
    x.imgBytes (x.tmrAt p t) (idleTimer (Mem.bytes x.mem.win (x.tmrAt p t) 32))
  let s3 := s2.each (List.range (s.winHdr p 24)) fun x i =>
    x.imgBytes (x.fbAt p i) (resetFb (Mem.bytes x.mem.win (x.fbAt p i) 64) (Mem.bytes x.mem.img (x.fbAt p i) 64))
  let s4 := s3.modPart p fun x => { x with ctx := c, first := true, abandoned := false }
  let s5 := s4.ckptWrite p 0 s.now s.sf c false (s.part p).swapPend
  s5.ephWrite (ephAt p 1) (ctxRecord p 1 0 0 0 Ctx.reset false false |>.set 2 0)

/-! Partition modes (R429, R68) -/

/-- Are a SAFE partition's signals written as FAULT while its pair is under debug (R189, R191)? -/
def State.dbgFault (s : State) (p : Nat) : Bool :=
  let n := s.ptPair p
  s.ptSafe p && (s.bit (rPair_DBG_STAT n) 1 || (s.bit (rPair_DBG_STAT n) 2 && s.fld rLcs_LC_STAT 0 2 ≠ 1))

/-- The device writes a signal in a partition's name: a produced signal of a SAFE partition whose pair is under debug stays v = 0, QUAL
FAULT (R189). -/
def State.devShow (s : State) (p idx v : Nat) (q : Qual) : State :=
  if 256 ≤ idx && s.dbgFault p then s.devWrite idx 0 .fault else s.devWrite idx v q

/-- Write every produced signal of a partition as v = 0 with a quality (R68); FAULT while its pair is under debug (R189). -/
def State.writeProduced (s : State) (p : Nat) (q0 : Qual) : State :=
  let q := if s.dbgFault p then .fault else q0
  s.each ((List.range 256).filter fun i => s.producer (256 + i) = some p) fun x i => x.devWrite (256 + i) 0 q

/-- End the partition's forces: each forced signal becomes v = 0, QUAL INIT (R68). -/
def State.endForces (s : State) (p : Nat) : State :=
  let fs := (s.part p).forces
  (s.modPart p fun x => { x with forces := [] }).each fs fun x f => (x.devShow p f.1 0 .init).opEvent 1075 (some p) (f.1 + 65536 * p)

/-- After a re-execution the pair compares every cycle again: lockstep, or replay debug (R175, R190); a pair that debug has
taken out of lockstep stays unpaired (R189). -/
def State.rePair (s : State) (n : Nat) : State :=
  s.setFld (rPair_PR_STAT n) 0 3 (if s.bit (rPair_DBG_STAT n) 1 then 4 else if s.bit (rPair_DBG_STAT n) 2 then 5 else 0)

/-- A pair leaves lockstep for debug: CMODE debug, unpaired; the produced signals of every SAFE partition bound to it become
FAULT (R189). A rejoin asked for or in progress is over. Also a pair that is split or offline reads CMODE 4 then (log 153). -/
def State.unpair (s : State) (n : Nat) : State :=
  let s0 := ((s.modPair n fun x => { x with
    dbgPend := false
    rejoinReq := false
    loadDone := false
    verifyBad := false }).setBit (rPair_SPLIT_CTRL n) 1 false).setFld (rPair_SPLIT_CTRL n) 5 2 0
  let s1 := (s0.setFld (rPair_PR_STAT n) 0 3 4).setFld (rPair_DBG_STAT n) 1 2 1
  (s1.raise (96 + 24 * n + 18) 0 0).each ((List.range 16).filter fun p => s.ptSafe p && s.ptPair p = n)
    fun x p => x.writeProduced p .fault

/-- The slot of a core is over: nothing staged remains, the pair is out of its slot, cycles are recorded. On a split pair PR_STAT
shows the pair out of a slot also while the other core runs one (log 117). -/
def State.slotOver (s : State) (u : Nat) : State :=
  let c := s.core u
  let n := u / 2
  let s1 := s.modCore u fun c => { c with inSlot := false, staged := [], swapReq := false, reexec := false }
  let s2 := (s1.setBit (rPair_PR_STAT n) 3 false).setFld (rPair_SLOT_CYC n) 0 16 (min c.cyc 65535)
  let s2a := s2.modPair n fun x => { x with lastEnd := some s.now }
  let s3 := if (s.pair n).dbgPend then s2a.unpair n else s2a
  if s3.fld (rPart_CYC_MAX c.part) 0 16 < min c.cyc 65535 then
    (s3.setFld (rPart_CYC_MAX c.part) 0 16 (min c.cyc 65535)).setFld (rPart_CYC_MAX c.part) 16 2 c.seq
  else s3

/-- Discard the slot a partition is running (R92); a discarded re-execution leaves the pair in lockstep (R175). -/
def State.cutSlot (s : State) (p : Nat) : State :=
  s.each (List.range 8) fun x u =>
    let c := x.core u
    if c.inSlot && c.part = p then
      let y := x.slotOver u
      if c.reexec && !(x.pair (u / 2)).dbgPend then y.rePair (u / 2) else y
    else x

/-- Partition `p` changes to mode `m` (0 STOP, 1 RUN, 2 MAINTENANCE, 3 SAFE_STATE, 4 LOCKED_OUT). -/
def State.setPartMode (s : State) (p m : Nat) : State :=
  let old := s.ptMode p
  if old = m then s else
    let s1 := (s.setFld (rPart_PT_MODE p) 0 3 m).modPart p fun x => { x with impFresh := false }
    let s2 := if (old = 1 || old = 2) && m ≠ 1 && m ≠ 2 then
        (s1.cutSlot p).writeProduced p (if m = 0 then .init else .fault) else s1
    let s3 := if old = 2 then s2.endForces p else s2
    let s4 := if (m = 1 || m = 2) && old ≠ 1 && old ≠ 2 then s3.startPart p else s3
    let s5 := if m = 4 then s4.raise0 (216 + p) else s4
    s5.opEvent (1032 + p) (some p) (old + 256 * m)

/-- The trap reaction (R93), applied to a partition in RUN or MAINTENANCE. A SAFE partition has TRAP_RX 0 or 1 (R89). -/
def State.trapReaction (s : State) (p : Nat) : State :=
  if s.ptLive p then
    match s.ptTrapRx p with
    | 0 => s.setPartMode p 3
    | 1 => (s.setPartMode p 3).setPartMode p 4
    | 2 => s.setPartMode p 0
    | _ => s.cutSlot p
  else s

/-- Every partition but those in LOCKED_OUT enters STOP (R429, R442, R470). -/
def State.stopAll (s : State) : State :=
  s.each (List.range 16) fun x p => if x.ptMode p = 4 then x else x.setPartMode p 0

/-! Shutter requests (R277 to R279) -/

/-- CH_CFG.ROLE (R254, R295). -/
def State.role (s : State) (n : Nat) : Nat := s.fld (rCh_CH_CFG n) 0 4

/-- Is the channel an output of its bank: DO or DO_PAR? -/
def State.isDo (s : State) (n : Nat) : Bool := s.role n = 3 || s.role n = 4

/-- Restart hold of a channel (R267): CH_STAT.HOLD and its event. -/
def State.setHold (s : State) (n : Nat) (b : Bool) : State :=
  (s.setBit (rCh_CH_STAT n) 3 b).evRaw (0x100 + n) 4 b

/-- Set restart hold on every output of a bank (R267, R279). -/
def State.holdBank (s : State) (b : Nat) : State :=
  s.each (List.range 8) fun x c => if x.isDo (8 * b + c) then x.setHold (8 * b + c) true else x

/-- Failure level of an analogue output, v units (R305). -/
def State.aoFailLevel (s : State) (n : Nat) : Nat :=
  if s.role n = 13 && s.bit (rCh_AO_CFG n) 9 then (if s.bit (rCh_AO_CFG n) 10 then 22000 else 3200) else 0

/-- Is a bank without field supply: REVERSED, or UV with no voltage at its pin (R286, R306; log 165)? -/
def State.noSupply (s : State) (b : Nat) : Bool :=
  (Tab.get (fun _ => BankSt.reset) s.field.bank b).hl.any fun e => e.1 = 3 || (e.1 = 1 && decide (asSigned 16 (s.fld (rBank_V_BANK b) 0 16) ≤ 0))

/-- The DAC takes a value, 0 without field supply (R306); AN_STAT shows whether it is the substitute or the failure level (R305, R317). -/
def State.setDac (s : State) (n v : Nat) (subst fail : Bool) : State :=
  ((s.setFld (rCh_AO_CMD n) 0 16 (if s.noSupply (n / 8) then 0 else v)).setBit (rCh_AN_STAT n) 2 subst).setBit (rCh_AN_STAT n) 3 fail

/-- Every analogue output goes to its failure level: the safe-state line, or a mode other than SYNC, OPERATE and HAREBELL (R306). -/
def State.aoPreset (s : State) : State :=
  s.each (List.range 192) fun x n =>
    if x.role n = 13 || x.role n = 14 then x.setDac n (x.aoFailLevel n) false true else x

/-- The Shutter of a bank opens, for a cause other than its test: restart hold, the count and the event (R279, R489). -/
def State.shutDrop (s : State) (b : Nat) : State :=
  let s1 := s.holdBank b
  if s.bit (rBank_BK_STAT b) 0 then
    let s2 := ((s1.setBit (rBank_BK_STAT b) 0 false).bump (rBank_SHUT_CNT b)).evRaw (0x080 + b) 2 true
    s2.opEvent (1392 + b) none (s2.fld (rBank_BK_STAT b) 1 6)
  else s1

/-- A request opens the Shutter of a bank: `bit` is its place in BK_STAT [6:1] (R277, R279); 5 is the test. -/
def State.shutRequest (s : State) (b bit : Nat) : State :=
  let s1 := s.setBit (rBank_BK_STAT b) bit true
  if bit = 5 then s1.setBit (rBank_BK_STAT b) 0 false else s1.shutDrop b

/-- A request of a bank's Shutter ends. Closing is a step of its own (R279). -/
def State.shutRelease (s : State) (b bit : Nat) : State := s.setBit (rBank_BK_STAT b) bit false

/-- A request on every bank. -/
def State.shutAll (s : State) (bit : Nat) : State := s.each (List.range 24) fun x b => x.shutRequest b bit

/-! Ports and connections at a mode change (R346, R389) -/

/-- A connection (R399). -/
def State.conn (s : State) (c : Nat) : Conn := Tab.get (fun _ => Conn.reset) s.net.conns c
def State.modConn (s : State) (c : Nat) (f : Conn → Conn) : State :=
  s.modNet fun x => { x with conns := Tab.modify (fun _ => Conn.reset) x.conns c f }

/-- An entry of the safe-frame receive table, or of the transmit table from 8,192 on (R399). -/
def State.safeEntry (s : State) (e : Nat) : Nat := (Tab.get (fun _ => (0 : BitVec 64)) s.net.tbl e).toNat

/-- The receive entries of a connection: ID, REQ_SAFE, word position and slot (R399). -/
def State.connEntries (s : State) (c : Nat) : List (Nat × Bool × Nat × Nat) :=
  (List.range (Tab.get (fun _ => 0) s.net.tblCnt 0)).filterMap fun e =>
    let v := s.safeEntry e
    if natBit v 44 && natBits v 22 6 = c then some (natBits v 0 21, natBit v 21, natBits v 28 6, natBits v 34 10) else none

/-- Write every slot of a connection as v = 0 with a quality (R387, R389). -/
def State.connFill (s : State) (c : Nat) (q : Qual) : State :=
  s.each (s.connEntries c) fun x e => x.imgWr (0x21000 + 8 * e.2.2.2) (mkCsw aT e.1 0 x.sf q)

/-- Is the connection an enabled consumer (R399; log 45)? -/
def State.consumer (s : State) (c : Nat) : Bool := (s.conn c).cfg.getLsbD 0 && !(s.conn c).cfg.getLsbD 1

/-- A connection enters WAIT (R389). -/
def State.connWait (s : State) (c : Nat) : State := s.modConn c fun x => { x with st := 1, waitAt := s.now, first := none }

/-- Safe frames run in OPERATE, HAREBELL and HALTED: consumers leave OFF there, and every connection is OFF elsewhere (R389). -/
def State.connsMode (s : State) (on : Bool) : State :=
  s.each (List.range 64) fun x c =>
    if on then (if x.consumer c && (x.conn c).st = 0 then (x.connFill c .init).connWait c else x)
    else if (x.conn c).st = 0 then x
    else (x.modConn c fun y => { y with st := 0, first := none }).connFill c .init

/-- The lanes of a port (R343). -/
def portLanes (p : Nat) : List Nat := if 4 ≤ p then [p + 4] else [2 * p, 2 * p + 1]

/-- A port is held in DISABLED, its lanes with no signal; leaving UP is counted and raises LINK_DOWN (R346, R374, R376, R377). -/
def State.portOff (s : State) (p : Nat) : State :=
  let s1 := if s.fld (rPort_PT_STAT p) 0 3 = 5 then
      ((s.bump (rPort_DOWN_CNT p)).wr64 (rPort_DOWN_TIME_LO p) s.now).raise (256 + 8 * p) 0 p else s
  (s1.setFld (rPort_PT_STAT p) 0 4 0).each (portLanes p) fun x l => x.setFld (rLane_LN_STAT l) 0 4 0

/-- Ports train only in SYNC, OPERATE, HAREBELL and HALTED (R346); with the ports off no ring or spine is formed (R366). -/
def State.portsMode (s : State) (on : Bool) : State :=
  if on then s
  else ((s.each (List.range 8) State.portOff).setFld rFab_FAB_STAT 0 12 0).modFab fun x => { x with
    frames := []
    passed := []
    written := []
    noLower := 0
    noLowerSpine := 0 }

/-! Device modes (R16) -/

/-- May outputs and Shutters be closed in this mode (R277)? -/
def DevMode.fieldOn : DevMode → Bool
  | .sync => true | .operate => true | .harebell => true | _ => false

/-- The device enters a mode: the event of R489, the MODE request of R277, the partitions' STOP of R429. -/
def State.setMode (s : State) (m : DevMode) : State :=
  if s.dev.mode = m then s else
    let s1 := (s.modDev fun d => { d with mode := m }).opEvent 1024 none (DevMode.code s.dev.mode + 256 * DevMode.code m)
    let s2 := s1.when (m = .sync) fun x => x.modFab fun f => { f with syncAt := s1.now, unformed := [] }
    let s3 := s2.when (s.dev.mode = .harebell) fun x => x.evRaw 0x006 1 false
    let s4 := (s3.connsMode (m = .operate || m = .harebell || m = .halted)).portsMode
      (m = .sync || m = .operate || m = .harebell || m = .halted)
    let s5 := s4.when (s.dev.mode = .halted) fun x => x.each (List.range 24) fun y b => y.shutRelease b 1
    let s6 := if DevMode.fieldOn m then s5.each (List.range 24) fun x b => x.shutRelease b 2 else (s5.shutAll 2).aoPreset
    match m with
    | .halted => s6.stopAll
    | .dormant => s6.stopAll
    | .boot => s6.stopAll
    | _ => s6

/-- Record the source and cause of an entry into HAREBELL or HALTED (R466, R477). -/
def State.modeCause (s : State) (src cause : Nat) (halted : Bool) : State :=
  (s.wrN rFlt0_MODE_CAUSE (src + 1024 * cause + 65536 * b2n halted)).wr64 rFlt0_MODE_TIME_LO s.now

/-- The safe-state line is asserted: every Shutter opens, open Logbook records are committed, and from SYNC, OPERATE,
HAREBELL (and from SELFTEST as a failed self-test, R455; from DORMANT by R516) the device enters HALTED (R470). -/
def State.safeState (s : State) (src cause : Nat) : State :=
  if s.flt.safeLine then s else
    let s1 := ((s.modFlt fun f => { f with safeLine := true }).evRaw 0x006 2 true).shutAll 1 |>.aoPreset
    let s2 := s1.logFlush
    match s.dev.mode with
    | .boot => s2
    | .halted => s2
    | _ => (s2.modeCause src cause true).setMode .halted

/-- Entry into HAREBELL from OPERATE (R471). -/
def State.enterHarebell (s : State) (src cause : Nat) : State :=
  if s.dev.mode = .operate then
    let s1 := (s.modFlt fun f => { f with preGrade := s.dev.grade, degradePend := false }).modeCause src cause false
    let s2 := ((s1.setMode .harebell).evRaw 0x006 1 true).modDev fun d => { d with gradePend := some .g533 }
    s2.each (List.range 16) fun x p => if x.ptSafe p then x else x.setPartMode p 0
  else s

end Sys2Proof.Machine
end

