-- ==== Sys2Proof/Machine/Slot.lean ====
section
/-! DEFINITION. A running slot: exceptions (R141, R142), operand access (R110), program order and loops (R124, R125),
the cycle budget (R92, R109), and the end of a slot by trap or cut (R92, R177). -/

namespace Sys2Proof.Machine

open Sys2Proof

/-- Exceptions of a slot (R141). -/
inductive Exc where
  | codeCheck | age | quality | overrun | map | illegal | pgmWrite | window | trap (k : Nat) | fb | restore | signature
deriving DecidableEq, Repr

/-- TRAP_LAST.KIND (R141, R177). -/
def Exc.kind : Exc → Nat
  | .codeCheck => 1 | .age => 2 | .quality => 3 | .overrun => 4 | .map => 5 | .illegal => 6 | .pgmWrite => 7
  | .window => 8 | .trap _ => 9 | .fb => 10 | .restore => 1 | .signature => 1

/-- A result of work inside an instruction: the state, and the first exception met (R142). -/
abbrev Res := State × Option Exc

/-- Go on when no exception was met. -/
def Res.andThen (r : Res) (f : State → Res) : Res :=
  match r with
  | (s, none) => f s
  | (s, some e) => (s, some e)

/-- The pair of a core unit. -/
def pairOf (u : Nat) : Nat := u / 2

/-- Address hint of the pair sources: partition in [3:0], SEQ in [5:4] (R99). -/
def slotHint (c : CoreSt) : Nat := c.part + 16 * c.seq

/-- The fault source of an exception; a failed restore and a signature raise none here (R141, R177). -/
def State.raiseExc (s : State) (u : Nat) (e : Exc) : State :=
  let n := pairOf u
  let c := s.core u
  let at_ (o : Nat) : State := s.raise (96 + 24 * n + o) 0 (slotHint c)
  match e with
  | .codeCheck => at_ 6
  | .age => at_ 7
  | .quality => at_ 7
  | .overrun => (at_ 4 |>.bump (rPair_OVR_CNT n)).bump (rPart_OVR_CNT c.part)
  | .map => at_ 8
  | .illegal => at_ 9
  | .pgmWrite => at_ 10
  | .window => at_ 11
  | .trap k => s.raise0 (960 + 4 * c.part + k % 4)
  | .fb => at_ 16
  | .restore => s.raise0 202
  | .signature => s

/-- PART.TRAP_LAST (R103). -/
def State.trapLast (s : State) (p kind seq pc : Nat) : State :=
  s.wrN (rPart_TRAP_LAST p) (kind + 16 * (seq % 4) + 256 * (pc % 131072))

/-- A trapping exception ends the slot: stores discarded, context as at slot start, TRAP_LAST, sources, and the trap
reaction (R92, R93, R141). In a re-execution RECOV_FAIL is raised beside the exception's source (R177), and the pair
returns to lockstep. The failing slot of a SAFE partition whose last slot was abandoned counts as a skipped SAFE slot (R178). -/
def State.trapSlot (s : State) (u : Nat) (e : Exc) : State :=
  let c := s.core u
  let n := pairOf u
  let s1 := s.raiseExc u e
  let s2 := if c.reexec then (s1.raise (96 + 24 * n + 1) 0 (slotHint c)).rePair n else s1
  let again := (s.part c.part).abandoned && s.ptSafe c.part
  let s2a := if again then (s2.raise (96 + 24 * n + 5) 0 (slotHint c)).bump (rPair_SKIP_CNT n) else s2
  let s3 := (s2a.trapLast c.part (if again then 11 else Exc.kind e) c.seq c.pc).slotOver u
  (s3.modPart c.part fun x => { x with abandoned := false }).trapReaction c.part

/-! Registers of a running slot -/

/-- A coded source operand: its value and quality, checked under A_p and its tag (R110). -/
def State.readC (s : State) (u n : Nat) : Option (Nat × Qual) :=
  let c := s.core u
  let w := Tab.get (fun _ => (0 : Csw)) c.ctx.c n
  if cswValid (s.aP c.part) w (tagReg n) then some (cswVal (s.aP c.part) w (tagReg n), cswQual w) else none

/-- The word a coded result forms: v = 0 unless the quality is GOOD or FORCED; AGE of the slot's start (R110, R111). -/
def State.wordC (s : State) (u n v : Nat) (q : Qual) : Csw :=
  mkCsw (s.aP (s.core u).part) (tagReg n) (safeV v q) (s.core u).ssf q

/-- Put a word into a coded register. -/
def State.putC (s : State) (u n : Nat) (w : Csw) : State :=
  s.modCore u fun c => { c with ctx := { c.ctx with c := Tab.set (fun _ => (0 : Csw)) c.ctx.c n w } }

/-- A coded result: the check unit checks the word formed before the register is written; a failed check is a code-check
exception, and the destination is not written (R110, R142 item 8). -/
def State.writeC (s : State) (u n v : Nat) (q : Qual) : Res :=
  let w := s.wordC u n v q
  if cswValid (s.aP (s.core u).part) w (tagReg n) then (s.putC u n w, none) else (s, some .codeCheck)

/-- A plain register; P0 reads as zero (R104). -/
def State.readP (s : State) (u n : Nat) : Word :=
  if n = 0 then 0 else Tab.get (fun _ => (0 : Word)) (s.core u).ctx.p n

/-- Write a plain register; writes to P0 are discarded (R104). -/
def State.writeP (s : State) (u n : Nat) (v : Word) : State :=
  if n = 0 then s
  else s.modCore u fun c => { c with ctx := { c.ctx with p := Tab.set (fun _ => (0 : Word)) c.ctx.p n v } }

/-- Stage something for END (R117). -/
def State.stage (s : State) (u : Nat) (x : Staged) : State := s.modCore u fun c => { c with staged := c.staged ++ [x] }

/-! Program order -/

/-- Is an instruction index inside the partition's program window (R80, R81)? -/
def State.inPgm (s : State) (p i : Nat) : Bool :=
  decide (s.fld (rPart_PGM_BASE p) 0 17 ≤ i) && decide (i < s.fld (rPart_PGM_BASE p) 0 17 + s.fld (rPart_PGM_SIZE p) 0 18)

/-- PC after a sequential instruction, with the return of a LOOP from its last body instruction to its first (R125). -/
def seqPc (c : CoreSt) : CoreSt :=
  if flagInLoop c.ctx.flags && c.pc = c.loopHi then
    if 1 < flagIter c.ctx.flags then
      { c with pc := c.loopLo, ctx := { c.ctx with flags := flagsLoop c.ctx.flags true (flagIter c.ctx.flags - 1) } }
    else { c with pc := c.pc + 1, ctx := { c.ctx with flags := flagsLoop c.ctx.flags false 0 } }
  else { c with pc := c.pc + 1 }

/-- PC after a taken branch; a target beyond the body leaves the loop (R124, R125). -/
def branchPc (t : Nat) (c : CoreSt) : CoreSt :=
  if flagInLoop c.ctx.flags && decide (c.loopHi < t) then
    { c with pc := t, ctx := { c.ctx with flags := flagsLoop c.ctx.flags false 0 } }
  else { c with pc := t }

/-- Is Meridian past START + WIN of the core's slot? No slot runs on there but a re-execution (R94, R176). -/
def State.pastWin (s : State) (u : Nat) : Bool :=
  let c := s.core u
  !c.reexec && decide (c.stime + s.fld (rPair_SE_W1 (pairOf u) c.entry) 16 13 < s.now)

/-- May the core take an instruction: in a slot and inside its window, not halted by a debugger unless it steps (R94, R194)? -/
def State.canRun (s : State) (u : Nat) : Bool :=
  (s.core u).inSlot && (!s.bit (rPair_DBG_STAT (pairOf u)) 0 || (s.pair (pairOf u)).stepOk) && !s.pastWin u

/-- Count cycles, and use up a debugger's step. -/
def State.spend (s : State) (u n : Nat) : State :=
  (s.modCore u fun c => { c with cyc := c.cyc + n }).modPair (pairOf u) fun x => { x with stepOk := false }

/-- What an instruction writes through the compared outputs of R163, from the core before it and after it: registers, PC and FLAGS, what
it stages, the SWAP request, the cycle counter. -/
def comparedOuts (a b : CoreSt) : List Nat :=
  let changed {α : Type} [DecidableEq α] (f : Nat → α) (g : Nat → α) (n : Nat) (v : α → Nat) : List Nat :=
    (List.range n).flatMap fun i => if f i = g i then [] else [i, v (g i)]
  changed (Tab.get (fun _ => (0 : Csw)) a.ctx.c) (Tab.get (fun _ => (0 : Csw)) b.ctx.c) 32 BitVec.toNat
    ++ changed (Tab.get (fun _ => (0 : Word)) a.ctx.p) (Tab.get (fun _ => (0 : Word)) b.ctx.p) 16 BitVec.toNat
    ++ [b.pc, b.ctx.flags.toNat] ++ (b.staged.drop a.staged.length).flatMap Staged.outs ++ [b2n b.swapReq, b.cyc]

/-- In loose mode each core folds the compared outputs of its cycles into its own MISR (R164; log 18). Both cores run the same instructions
on the same values; a difference between them comes with END's operands. -/
def State.feed (s : State) (u : Nat) (a : CoreSt) : State :=
  if s.cmode (pairOf u) = 1 then s.modCore u fun c => { c with
    misr := misrStep c.misr (Config.compared (comparedOuts a c))
    misrChk := misrStep c.misrChk (Config.compared (comparedOuts a c)) }
  else s

/-- One instruction on a core. Outside a slot nothing happens (log 12). A fetch outside the window, or a word that is an
illegal opcode, takes one cycle and traps (R552). An instruction that would end after cycle BUDGET is cut; one that
ends in it and traps raises both sources (R142); one that ends in it and goes on is cut (R92). -/
def State.instr (s : State) (u : Nat) (legal : Bool) (c sc : Nat) (body : State → Res) : State :=
  if !s.canRun u then s else
    let k := s.core u
    let ok := legal && s.inPgm k.part k.pc
    let cost := if ok then cycles s.dev.grade c sc else 1
    let s1 := s.spend u (min cost (k.budget - k.cyc))
    if k.budget < k.cyc + cost then s1.trapSlot u .overrun
    else
      let r := if ok then body s1 else (s1, some .illegal)
      match r.2 with
      | some e => (if k.cyc + cost = k.budget then r.1.raiseExc u .overrun else r.1).trapSlot u e
      | none => if k.cyc + cost = k.budget then r.1.trapSlot u .overrun else (r.1.modCore u seqPc).feed u k

/-- Is the running partition of a core SAFE (R143)? -/
def State.runsSafe (s : State) (u : Nat) : Bool := s.ptSafe (s.core u).part

/-! List entries and records of the window -/

/-- ECHK of a list entry, which an uncorrectable error also fails (R551): CRC-12 over its first word, bit 31 first, then the entry index (R132, R133). -/
def echkOk (w0 w1 : Word) (n idx : Nat) : Bool :=
  decide (w1.toNat = (crc12Go n idx (crc12Go 32 w0.toNat 0xFFF#12)).toNat)

/-- The import entry e of a running partition: its ID and TRAP_AQ (R114, R131, R132). -/
def State.importEntry (s : State) (p e : Nat) : Except Exc (Nat × Bool) :=
  if s.winHdr p 8 ≤ e then .error .window
  else
    let w0 := Mem.w32 s.mem.img (s.impAt p e)
    let w1 := Mem.w32 s.mem.img (s.impAt p e + 4)
    if echkOk w0 w1 12 e && !s.imgFlawed (s.impAt p e) 8 then .ok (natBits w0.toNat 0 21, natBit w0.toNat 21) else .error .codeCheck

/-- The export entry x: index, FAB, SAFE_INT (R116, R133). -/
def State.exportEntry (s : State) (p x : Nat) : Except Exc (Nat × Bool × Bool) :=
  if s.winHdr p 16 ≤ x then .error .window
  else
    let w0 := Mem.w32 s.mem.img (s.expAt p x)
    let w1 := Mem.w32 s.mem.img (s.expAt p x + 4)
    if echkOk w0 w1 9 x && !s.imgFlawed (s.expAt p x) 8 then .ok (natBits w0.toNat 0 9, natBit w0.toNat 9, natBit w0.toNat 10) else .error .codeCheck

/-- The last staged word of a retained variable. -/
def stagedVar (k : Nat) (l : List Staged) : Option Csw :=
  l.foldl (fun a x => match x with | .var j w => if j = k then some w else a | _ => a) none

/-- The last staged timer record. -/
def stagedTimer (t : Nat) (l : List Staged) : Option (List Byte) :=
  l.foldl (fun a x => match x with | .timer j r => if j = t then some r else a | _ => a) none

/-- The last staged instance record. -/
def stagedFb (i : Nat) (l : List Staged) : Option (List Byte) :=
  l.foldl (fun a x => match x with | .fb j r => if j = i then some r else a | _ => a) none

end Sys2Proof.Machine
end

