-- ==== Sys2Proof/Machine/MapOps.lean ====
section
/-! DEFINITION. The signal map: entries and descriptors (R145, R146), the walk (R149), the caches (R153), locations (R147)
and the readable-as-signal port (R157). -/

namespace Sys2Proof.Machine

open Sys2Proof

/-- Image SRAM offset of level-1 entry j (R144). -/
def l1At (j : Nat) : Nat := 0x24000 + 8 * j

/-- Fields of a level-1 entry (R145). -/
def l1Ptr (e : Csw) : Nat := natBits e.toNat 0 32
def l1Valid (e : Csw) : Bool := natBit e.toNat 32
def l1Ok (e : Csw) (j : Nat) : Bool := decide (natBits e.toNat 56 8 = (mapChk e 12 j).toNat)

/-- Fields of a descriptor (R146). -/
def dType (d : Csw) : Nat := natBits d.toNat 0 3
def dSafe (d : Csw) : Bool := natBit d.toNat 3
def dOffset (d : Csw) : Nat := natBits d.toNat 4 14
def dPerm (d : Csw) (p : Nat) : Bool := natBit d.toNat (18 + p)
def dMaxAge (d : Csw) : Nat := natBits d.toNat 34 12
def dGen (d : Csw) : Nat := natBits d.toNat 46 8
def dOk (d : Csw) (id : Nat) : Bool := decide (natBits d.toNat 56 8 = (mapChk d 21 id).toNat)

/-- A descriptor's bits [55:0] with its DCHK (R146). -/
def dSeal (d : Csw) (id : Nat) : Csw :=
  BitVec.ofNat 64 (d.toNat % 2 ^ 56 + (mapChk d 21 id).toNat * 2 ^ 56)

/-- Is OFFSET inside the range of its TYPE (R147)? -/
def dInRange (d : Csw) : Bool :=
  match dType d with
  | 1 => dOffset d ≤ 255
  | 2 => 256 ≤ dOffset d && dOffset d ≤ 511
  | 3 => dOffset d ≤ 16383
  | 4 => dOffset d ≤ 1023
  | 5 => dOffset d ≤ 511
  | 6 => dOffset d ≤ 63
  | _ => false

/-- Map fault kinds: FLT_KIND 1 MISS, 2 WALK_ECC, 3 WALK_RANGE, 4 DESC_CHK, 5 PERM; sources 192 to 196 (R151, R159). -/
def mapSource : Nat → Nat
  | 1 => 192 | 2 => 193 | 3 => 194 | 4 => 195 | _ => 196

/-- A map fault of a running slot: specific source, FLT_ID, FLT_KIND; the slot traps with MAP_TRAP (R151). -/
def State.mapFault (s : State) (u id kind : Nat) : Res :=
  let c := s.core u
  let s1 := s.raise (mapSource kind) 0 (c.part + 16 * pairOf u)
  let s2 := s1.wrN rMap_FLT_ID (id + 2 ^ 24 * c.part + 2 ^ 28 * pairOf u)
  (s2.wrN rMap_FLT_KIND kind, some .map)

/-- A correctable error of image SRAM is corrected, counted and reported (R551, R149). -/
def State.imgCorrected (s : State) : State := (s.bump rMap_ECC_CORR).raise0 197

/-- Put a translation at the front of a pair's cache; the least recently used of 257 goes (R153). -/
def cachePut (id : Nat) (d : Csw) (l : List (Nat × Csw)) : List (Nat × Csw) :=
  ((id, d) :: l.filter (·.1 ≠ id)).take 256

/-- The checks a walk's descriptor and a cache hit share: DCHK, TYPE, PERM, OFFSET (R149, R153). None: good. -/
def dCheck (d : Csw) (id p : Nat) : Option Nat :=
  if !dOk d id then some 4
  else if dType d = 0 || dType d = 7 then some 1
  else if !dPerm d p then some 5
  else if !dInRange d then some 3
  else none

/-- The level-1 step of a walk: the descriptor's image SRAM offset, or the fault's kind (R149). -/
def State.walkL1 (s : State) (id : Nat) : Except Nat Nat :=
  let j := id / 512
  let a := l1At j
  let e := s.imgRd a
  if s.eng.imgBad.contains a then .error 2
  else if !l1Ok e j then .error 4
  else if !l1Valid e then .error 1
  else if l1Ptr e < 0x30000 || 0xFF000 < l1Ptr e || l1Ptr e % 4096 ≠ 0 then .error 3
  else .ok (l1Ptr e + 8 * (id % 512))

/-- A read of a word of image SRAM meets an ECC finding: a correctable one is corrected, counted and reported, an uncorrectable one
stays in the word (R551). -/
def State.imgMeets (s : State) (off : Nat) (ecc : EccFind) : State :=
  match ecc with
  | .clean => s
  | .corrected => s.imgCorrected
  | .uncorrectable => s.modEng fun e => { e with imgBad := off :: e.imgBad.filter (· ≠ off) }

/-- The walk (R149): the descriptor, installed in the pair's cache. A hit dropped for its parity counts as a miss (log 122). -/
def State.walk (s : State) (u id : Nat) (env : LoadEnv) : State × Except Nat Csw :=
  let n := pairOf u
  let s0 := (s.bump (rMap_MISS_CNT n)).imgMeets (l1At (id / 512)) env.l1
  match s0.walkL1 id with
  | .error k => (s0, .error k)
  | .ok a =>
    match env.ecc with
    | .uncorrectable => (s0.modEng fun e => { e with imgBad := a :: e.imgBad }, .error 2)
    | _ =>
      if s0.eng.imgBad.contains a then (s0, .error 2)
      else
        let s1 := s0.imgMeets a env.ecc
        let d := s1.imgRd a
        match dCheck d id (s1.core u).part with
        | some k => (s1, .error k)
        | none => (s1.modPair n fun x => { x with cache := cachePut id d x.cache }, .ok d)

/-- Translate a signal ID for a running slot: hit, or parity drop and walk, or walk (R149, R153). -/
def State.translate (s : State) (u id : Nat) (env : LoadEnv) : State × Except Nat Csw :=
  let n := pairOf u
  match (s.pair n).cache.find? (·.1 = id) with
  | some (_, d) =>
    if env.parity then
      ((s.modPair n fun x => { x with cache := x.cache.filter (·.1 ≠ id) }).raise0 198).walk u id env
    else match dCheck d id (s.core u).part with
      | some k => (s, .error k)
      | none => (s.modPair n fun x => { x with cache := cachePut id d x.cache }, .ok d)
  | none => s.walk u id env

/-- ENG_STAT (R100): pairs in lockstep, replay debug among them (R190; none in BOOT, where the cores are in reset, nor in SELFTEST, R162),
pairs split, pairs that
host a SAFE partition, the grade. -/
def State.engStat (s : State) : Nat :=
  bitMask 4 (fun n => (s.cmode n = 0 || s.cmode n = 5) && !(s.modeIs .boot || s.modeIs .selftest)) + 16 * bitMask 4 (fun n => s.cmode n = 2)
  + 256 * bitMask 4 (fun n => anyBelow 16 fun p => s.ptSafe p && s.ptPair p = n && s.fld (rPart_WIN_SIZE p) 12 9 ≠ 0)
  + 4096 * Grade.code s.dev.grade

/-- The minor frame number m (R87). -/
def State.minor (s : State) : Nat := s.sf % 2 ^ s.fld rEng_MF_CFG 0 4

/-- LINK_STAT, ENG_STAT and the other fields of the readable-as-signal list, entry by entry (R157). -/
def State.rslField (s : State) (i : Nat) : Option Nat :=
  if i = 0 then some (DevMode.code s.dev.mode)
  else if i = 1 then some s.engStat
  else if i = 2 then some (s.minor % 256)
  else if i = 3 then some (s.fld rEng_SCHED_GEN 0 16)
  else if i < 8 then some (s.fld (rPair_PR_STAT (i - 4)) 0 16)
  else if i < 24 then some (s.fld (rPart_PT_MODE (i - 8)) 0 5)
  else if i = 24 then some (s.fld rHost_LINK_STAT 0 9)
  else none

/-- The one partition a CONST's PERM names (R147); 0 where it names none. -/
def permPart (d : Csw) : Nat := ((List.range 16).find? (dPerm d)).getD 0

/-- Image SRAM offset of the stored word a descriptor names; none for a register reading (R147). -/
def wordAt (d : Csw) : Option Nat :=
  match dType d with
  | 1 | 2 => some (8 * dOffset d)
  | 3 => some (0x1000 + 8 * dOffset d)
  | 4 => some (0x21000 + 8 * dOffset d)
  | 5 => some (0x23000 + 8 * dOffset d)
  | _ => none

/-- The stored word a descriptor names, the constant it is stored under, and whether its age is taken as 0 (R147). A reserved entry
of the readable-as-signal list, which only a live edit can name, loads as v = 0, QUAL FAULT: a quality exception (log 123). -/
def State.located (s : State) (id : Nat) (d : Csw) : Csw × Nat × Bool :=
  match dType d with
  | 1 => (s.imgCsw (8 * dOffset d) id, aT, false)
  | 2 => (s.imgCsw (8 * dOffset d) id, s.localA (dOffset d), false)
  | 3 => (s.imgCsw (0x1000 + 8 * dOffset d) id, aT, false)
  | 4 => (s.imgCsw (0x21000 + 8 * dOffset d) id, aT, false)
  | 5 => (s.imgCsw (0x23000 + 8 * dOffset d) id, s.aP (permPart d), true)
  | _ => match s.rslField (dOffset d) with
    | some v => (mkCsw aT id v s.sf .good, aT, true)
    | none => (mkCsw aT id 0 s.sf .fault, aT, true)

/-- Is the signal of import entry e of a partition fresh: mapped, and of an age its descriptor admits (R69, R70, R149)? -/
def State.importFresh (s : State) (p e : Nat) : Bool :=
  match s.importEntry p e with
  | .error _ => false
  | .ok (id, _) => match s.walkL1 id with
    | .error _ => false
    | .ok a =>
      let d := s.imgRd a
      let l := s.located id d
      (dCheck d id p).isNone && (l.2.2 || decide (ageAt s.sf l.1 ≤ dMaxAge d))

/-- A superframe boundary finds every signal that a partition in RUN imports fresh: from then on its outputs may switch on (R19, R424;
log 157). -/
def State.markFresh (s : State) (p : Nat) : State :=
  if s.ptMode p = 1 && !(s.part p).impFresh && (List.range (s.winHdr p 8)).all (s.importFresh p) then
    s.modPart p fun x => { x with impFresh := true }
  else s

/-- The steps of R76 on a stored word: value, quality and the exception met. -/
def loadSteps (w : Csw) (a id : Nat) (age0 : Bool) (sf maxAge : Nat) : Nat × Qual × Option Exc :=
  if !chkOk w id then (0, .fault, some .codeCheck)
  else if !vcOk a w id then (0, .fault, some .codeCheck)
  else if 7 ≤ cswQualCode w then (0, .fault, some .quality)
  else if !age0 && decide (maxAge < ageAt sf w) then (0, .stale, some .age)
  else if !qualLive (cswQual w) then (0, cswQual w, some .quality)
  else (cswVal a w id, cswQual w, none)

/-- The Collimator's work for a load of entry 24: resamples, divergence (R168). -/
def State.collimate (s : State) (n : Nat) (coll : Fin 4) : State :=
  let s1 := s.each (List.range (min coll.val 2)) fun x _ =>
    (x.bumpFld (rPair_COLL_CNT n) 0 16).raise0 (212 + n)
  if coll.val = 3 then (s1.bumpFld (rPair_COLL_CNT n) 16 16).raise0 (208 + n) else s1

/-- LDS and LDS.X of entry e into Cd (R114, R76). -/
def State.loadEntry (s : State) (u d e : Nat) (env : LoadEnv) : Res :=
  let c := s.core u
  match s.importEntry c.part e with
  | .error x => (s, some x)
  | .ok (id, trapAq) =>
    match s.translate u id env with
    | (s1, .error k) => s1.mapFault u id k
    | (s1, .ok ds) =>
      let lnk := dType ds = 6 && dOffset ds = 24
      let s2 := if lnk then s1.collimate (pairOf u) env.coll else match wordAt ds with
        | some off => s1.imgMeets off env.word
        | none => s1
      let (w, a, age0) := s2.located id ds
      let r := if lnk && env.coll.val = 3 then (0, Qual.fault, some Exc.quality)
        else loadSteps w a id age0 c.ssf (dMaxAge ds)
      match r with
      | (_, _, some .codeCheck) => (s2, some .codeCheck)
      | (v, q, some x) => if trapAq then (s2, some x) else s2.writeC u d v q
      | (v, q, none) => s2.writeC u d v q

end Sys2Proof.Machine
end

