-- ==== Sys2Proof/Machine/Plain.lean ====
section
/-! DEFINITION. Meanings of the plain and system Sextant instructions (R124, R125, R127 to R130, R136, R140) but END. -/

namespace Sys2Proof.Machine

open Sys2Proof

/-- A plain instruction of two sources (R127). -/
def State.plain2 (s : State) (u d a b : Nat) (c : Nat) (f : Word → Word → Word) : State :=
  s.instr u true c 0 fun x => (x.writeP u d (f (x.readP u a) (x.readP u b)), none)

/-- A plain instruction of one source (R127). -/
def State.plain1 (s : State) (u d a : Nat) (f : Word → Word) : State :=
  s.instr u true 1 0 fun x => (x.writeP u d (f (x.readP u a)), none)

/-- Shift count Pb[4:0] (R113). -/
def shamt (b : Word) : Nat := natBits b.toNat 0 5

def execAdd (u : Fin 8) (d a b : Fin 16) (s : State) : Host.Outcome State Fault Refusal :=
  done (s.plain2 u.val d.val a.val b.val 1 fun x y => x + y)
def execSub (u : Fin 8) (d a b : Fin 16) (s : State) : Host.Outcome State Fault Refusal :=
  done (s.plain2 u.val d.val a.val b.val 1 fun x y => x - y)
def execAnd (u : Fin 8) (d a b : Fin 16) (s : State) : Host.Outcome State Fault Refusal :=
  done (s.plain2 u.val d.val a.val b.val 1 fun x y => x &&& y)
def execOr (u : Fin 8) (d a b : Fin 16) (s : State) : Host.Outcome State Fault Refusal :=
  done (s.plain2 u.val d.val a.val b.val 1 fun x y => x ||| y)
def execXor (u : Fin 8) (d a b : Fin 16) (s : State) : Host.Outcome State Fault Refusal :=
  done (s.plain2 u.val d.val a.val b.val 1 fun x y => x ^^^ y)
def execSll (u : Fin 8) (d a b : Fin 16) (s : State) : Host.Outcome State Fault Refusal :=
  done (s.plain2 u.val d.val a.val b.val 1 fun x y => x <<< shamt y)
def execSrl (u : Fin 8) (d a b : Fin 16) (s : State) : Host.Outcome State Fault Refusal :=
  done (s.plain2 u.val d.val a.val b.val 1 fun x y => x >>> shamt y)
def execSra (u : Fin 8) (d a b : Fin 16) (s : State) : Host.Outcome State Fault Refusal :=
  done (s.plain2 u.val d.val a.val b.val 1 fun x y => x.sshiftRight (shamt y))
def execMul (u : Fin 8) (d a b : Fin 16) (s : State) : Host.Outcome State Fault Refusal :=
  done (s.plain2 u.val d.val a.val b.val 3 fun x y => x * y)
def execSlt (u : Fin 8) (d a b : Fin 16) (s : State) : Host.Outcome State Fault Refusal :=
  done (s.plain2 u.val d.val a.val b.val 1 fun x y => if x.slt y then 1 else 0)
def execAddi (u : Fin 8) (d a : Fin 16) (imm : BitVec 16) (s : State) : Host.Outcome State Fault Refusal :=
  done (s.plain1 u.val d.val a.val fun x => x + imm.signExtend 32)
def execAndi (u : Fin 8) (d a : Fin 16) (imm : BitVec 16) (s : State) : Host.Outcome State Fault Refusal :=
  done (s.plain1 u.val d.val a.val fun x => x &&& imm.setWidth 32)
def execOri (u : Fin 8) (d a : Fin 16) (imm : BitVec 16) (s : State) : Host.Outcome State Fault Refusal :=
  done (s.plain1 u.val d.val a.val fun x => x ||| imm.setWidth 32)
def execMovi (u : Fin 8) (d : Fin 16) (imm : BitVec 16) (s : State) : Host.Outcome State Fault Refusal :=
  done (s.plain1 u.val d.val 0 fun _ => imm.setWidth 32)

/-- MOVHI leaves Pd[15:0] unchanged (R127). -/
def execMovhi (u : Fin 8) (d : Fin 16) (imm : BitVec 16) (s : State) : Host.Outcome State Fault Refusal :=
  done (s.plain1 u.val d.val d.val fun x => (imm.setWidth 32 <<< 16) ||| (x &&& 0xFFFF))

def execNop (u : Fin 8) (s : State) : Host.Outcome State Fault Refusal :=
  done (s.instr u.val true 1 0 fun x => (x, none))

/-- M of R87. -/
def State.mfLog2 (s : State) : Nat := s.fld rEng_MF_CFG 0 4

/-- A system value of MFS (R128). -/
def State.sysValue (s : State) (u sel : Nat) : Word :=
  let c := s.core u
  match sel with
  | 0 => BitVec.ofNat 32 c.slot
  | 1 => c.ctx.flags
  | 2 => BitVec.ofNat 32 c.part
  | 3 => BitVec.ofNat 32 (c.ssf % 2 ^ s.mfLog2)
  | 4 => BitVec.ofNat 32 c.stime
  | _ => BitVec.ofNat 32 (c.stime / 2 ^ 32)

/-- MFS Pd, s: selectors 6 and 7 are reserved (R128). -/
def execMfs (u : Fin 8) (d : Fin 16) (sel : BitVec 3) (s : State) : Host.Outcome State Fault Refusal :=
  done (s.instr u.val (sel.toNat < 6) 1 0 fun x => (x.writeP u.val d.val (x.sysValue u.val sel.toNat), none))

/-! Control flow -/

/-- A branch offset is legal when it is not zero and its target lies in the window (R108). -/
def State.branchOk (s : State) (u o : Nat) : Bool :=
  decide (0 < o) && s.inPgm (s.core u).part ((s.core u).pc + o)

/-- Take a branch: the sequential step that follows the instruction adds one. -/
def State.takeBranch (s : State) (u o : Nat) : State :=
  s.modCore u fun c => let c1 := branchPc (c.pc + o) c; { c1 with pc := c1.pc - 1 }

/-- BR o (R124). -/
def execBr (u : Fin 8) (o : BitVec 16) (s : State) : Host.Outcome State Fault Refusal :=
  done (s.instr u.val (s.branchOk u.val o.toNat) 2 0 fun x => (x.takeBranch u.val o.toNat, none))

/-- BCC cc, Pa, Pb, o (R124). -/
def execBcc (u : Fin 8) (cc : BitVec 5) (a b : Fin 16) (o : BitVec 12) (s : State) : Host.Outcome State Fault Refusal :=
  done (s.instr u.val (s.branchOk u.val o.toNat && decide (cc.toNat < 6)) 2 0 fun x =>
    if bccHolds cc.toNat (x.readP u.val a.val) (x.readP u.val b.val) then (x.takeBranch u.val o.toNat, none) else (x, none))

/-- LOOP Pa, N, L (R125): illegal with N or L zero, inside a body, or with a body past the window (R108, R552). -/
def execLoop (u : Fin 8) (a : Fin 16) (n l : BitVec 8) (s : State) : Host.Outcome State Fault Refusal :=
  let k := s.core u.val
  done (s.instr u.val (n ≠ 0 && l ≠ 0 && !flagInLoop k.ctx.flags && s.inPgm k.part (k.pc + l.toNat)) 2 0 fun x =>
    let count := if a.val = 0 then n.toNat else min (x.readP u.val a.val).toNat n.toNat
    if count = 0 then (x.modCore u.val fun c => { c with pc := c.pc + l.toNat }, none)
    else (x.modCore u.val fun c =>
      { c with loopLo := c.pc + 1, loopHi := c.pc + l.toNat, ctx := { c.ctx with flags := flagsLoop c.ctx.flags true count } }, none))

/-! System instructions -/

/-- MAPINV e: the issuing pair's cache alone; not undone by a trap (R129, R154). -/
def execMapinv (u : Fin 8) (e : BitVec 12) (s : State) : Host.Outcome State Fault Refusal :=
  done (s.instr u.val true 2 2 fun x =>
    match x.importEntry (x.core u.val).part e.toNat with
    | .error k => (x, some k)
    | .ok (id, _) => (x.modPair (pairOf u.val) fun p => { p with cache := p.cache.filter (·.1 ≠ id) }, none))

/-- FENCE: in this model an earlier MAPINV or ST.PGM has already taken effect (R129). -/
def execFence (u : Fin 8) (s : State) : Host.Outcome State Fault Refusal :=
  done (s.instr u.val true 2 8 fun x => (x, none))

/-- SWAP: a request latched at END (R140). -/
def execSwap (u : Fin 8) (s : State) : Host.Outcome State Fault Refusal :=
  done (s.instr u.val true 2 0 fun x => (x.modCore u.val fun c => { c with swapReq := true, swapStaged := c.swapStaged || s.cfg.staging }, none))

/-- Address of instruction `i` of a bank in core u's program SRAM (R79, log 7). -/
def pgmAt (u bank i : Nat) : Nat := u * 0x100000 + bank * 0x80000 + 4 * i

/-- ACT_BANK of a partition (R80). -/
def State.actBank (s : State) (p : Nat) : Nat := s.fld (rPart_PGM_STAT p) 0 1

/-- Does a program write reach one core only: split or unpaired, and no rejoin copy in progress (R137, R187)? -/
def State.oneCopy (s : State) (n : Nat) : Bool :=
  (s.cmode n = 2 || s.cmode n = 4) && s.fld (rPair_SPLIT_CTRL n) 5 2 ≠ 1

/-- Write an instruction word into program SRAM. -/
def State.pgmWr (s : State) (u bank i : Nat) (w : Word) : State :=
  s.modMem fun m => { m with pgm := Mem.setW32 m.pgm (pgmAt u bank i) w }

/-- A program write of a running core: both cores' copies in lockstep (R137). -/
def State.pgmWrite (s : State) (u bank i : Nat) (w : Word) : State :=
  if s.oneCopy (pairOf u) then s.pgmWr u bank i w
  else (s.pgmWr (2 * pairOf u) bank i w).pgmWr (2 * pairOf u + 1) bank i w

/-- ST.PGM Pd, Pa, imm (R136): while a commit is staged, discarded without exception (R98). -/
def execStPgm (u : Fin 8) (d a : Fin 16) (imm : BitVec 16) (s : State) : Host.Outcome State Fault Refusal :=
  done (s.instr u.val true 2 2 fun x =>
    let p := (x.core u.val).part
    let adr := ((x.readP u.val a.val).toNat + imm.toNat) % 2 ^ 18
    let bank := adr / 2 ^ 17
    let i := adr % 2 ^ 17
    if x.cfg.staging then (x, none)
    else if bank ≠ x.actBank p && x.inPgm p i then (x.pgmWrite u.val bank i (x.readP u.val d.val), none)
    else (x, some .pgmWrite))

/-- TRAP k (R130). -/
def execTrap (u : Fin 8) (k : BitVec 2) (s : State) : Host.Outcome State Fault Refusal :=
  done (s.instr u.val true 2 0 fun x => (x, some (.trap k.toNat)))

/-- RAISE Pa, k: at END, with Pa[15:0] as address hint (R130). -/
def execRaise (u : Fin 8) (a : Fin 16) (k : BitVec 2) (s : State) : Host.Outcome State Fault Refusal :=
  done (s.instr u.val true 2 0 fun x =>
    (x.stage u.val (.raise k.toNat (natBits (x.readP u.val a.val).toNat 0 16)), none))

/-- An illegal word, or a fetch outside the window: one core cycle, then the trap (R552). -/
def execIllegalOpcode (u : Fin 8) (s : State) : Host.Outcome State Fault Refusal :=
  done (s.instr u.val false 0 0 fun x => (x, none))

/-- The cycle counter reaches BUDGET before END: the slot is cut (R92). -/
def execSlotOverrun (u : Fin 8) (s : State) : Host.Outcome State Fault Refusal :=
  done (if (s.core u.val).inSlot then (s.modCore u.val fun c => { c with cyc := c.budget }).trapSlot u.val .overrun else s)

end Sys2Proof.Machine
end

