-- ==== Sys2Proof/Machine/Coelostat.lean ====
section
/-! DEFINITION. Slots and recovery: SLOT_START (R90, R94, R176), END (R165), the mismatch sequence (R175, R179), restores
(R173), and the scrubs of program SRAM, map and Ephemeris (R83, R152, R174). -/

namespace Sys2Proof.Machine

open Sys2Proof

/-! Schedule entries (R88) -/

def State.sePart (s : State) (n e : Nat) : Nat := s.fld (rPair_SE_W0 n e) 0 4
def State.sePhase (s : State) (n e : Nat) : Nat := s.fld (rPair_SE_W0 n e) 12 8
def State.sePer (s : State) (n e : Nat) : Nat := s.fld (rPair_SE_W0 n e) 8 4
def State.seStart (s : State) (n e : Nat) : Nat := s.fld (rPair_SE_W1 n e) 0 13

/-- VALID, with no uncorrectable error found (R99 SCHED_ECC). -/
def State.seValid (s : State) (n e : Nat) : Bool := s.bit (rPair_SE_W0 n e) 4 && !natBit (s.pair n).seBad e

/-- The token of a partition (R368). -/
def State.tok (s : State) (p : Nat) : Tok := Tab.get (fun _ => Tok.reset) s.fab.toks p
def State.modTok (s : State) (p : Nat) (f : Tok → Tok) : State :=
  s.modFab fun x => { x with toks := Tab.modify (fun _ => Tok.reset) x.toks p f }

/-- Does the entry run in the present minor frame (R87, R88), STANDBY, or an entry of a mobile partition whose token has been
released, only with the token (R95, R368)? -/
def State.seRuns (s : State) (n e : Nat) : Bool :=
  s.seValid n e && decide (s.sf % 2 ^ s.mfLog2 % 2 ^ s.sePer n e = s.sePhase n e)
  && (!(s.bit (rPair_SE_W0 n e) 5 || s.bit (rPart_PT_CFG (s.sePart n e)) 1) || (s.tok (s.sePart n e)).held)

/-- Has the START of the entry been taken in the present minor frame (R90)? -/
def State.seTaken (s : State) (n e : Nat) : Bool := (s.pair n).seSf = s.sf + 1 && natBit (s.pair n).seDone e

/-- The START of the entry is taken. -/
def State.seTake (s : State) (n e : Nat) : State :=
  s.modPair n fun x => { x with seSf := s.sf + 1, seDone := (if x.seSf = s.sf + 1 then x.seDone else 0) ||| 2 ^ e }

/-- The core that runs a partition's slots (R78). -/
def State.coreFor (s : State) (n p : Nat) : Nat :=
  2 * n + (if s.cmode n = 2 && s.bit (rPart_PT_CFG p) 6 then 1 else 0)

/-- SLOT_SKIPPED; of a SAFE slot a trap (R94). -/
def State.skipSlot (s : State) (n p seq pc : Nat) : State :=
  let s1 := ((s.raise (96 + 24 * n + 5) 0 (p + 16 * seq)).bump (rPair_SKIP_CNT n))
  if s.ptSafe p then (s1.trapLast p 11 seq pc).trapReaction p else s1

/-- A re-execution is abandoned at the START of another entry (R176); the second in a row of a SAFE partition is treated as a
skipped SAFE slot (R178). -/
def State.abandon (s : State) (u : Nat) : State :=
  let c := s.core u
  let n := pairOf u
  let s1 := (((s.raise (96 + 24 * n + 2) 0 (slotHint c)).bump (rPair_ABANDON_CNT n)).slotOver u).rePair n
  if (s.part c.part).abandoned && s.ptSafe c.part then
    (s1.modPart c.part fun x => { x with abandoned := false }).skipSlot n c.part c.seq c.pc
  else s1.modPart c.part fun x => { x with abandoned := true }

/-- What is still running on a core at another START ends there (R94). -/
def State.clearCore (s : State) (u : Nat) : State :=
  let c := s.core u
  if !c.inSlot then s else if c.reexec then s.abandon u else s.trapSlot u .overrun

/-- Can the pair run a slot of the partition: not halted, not offline, not split against its configuration, no SAFE slot and none on the
checker core of a pair that rejoins (R187 step 1; log 125), and in Harebell only for an essential partition (R94, R471)? -/
def State.pairCan (s : State) (n p : Nat) : Bool :=
  !(s.modeIs .harebell && !s.ptEssential p) && !s.bit (rPair_DBG_STAT n) 0 && s.cmode n ≠ 6 && s.cmode n ≠ 3 && !(s.cmode n = 2 && s.ptSafe p)
  && !(s.ptSafe p && s.fld (rPair_SPLIT_CTRL n) 5 2 = 1)
  && !(s.bit (rPart_PT_CFG p) 6 && (s.cmode n ≠ 2 || s.fld (rPair_SPLIT_CTRL n) 5 2 ≠ 0))

/-- The pair loads the context and begins the slot (R90, R91, R104, R120). -/
def State.beginSlot (s : State) (n e : Nat) : State :=
  let p := s.sePart n e
  let u := s.coreFor n p
  let x := s.part p
  let m := s.sf % 2 ^ s.mfLog2
  let seq := s.fld (rPair_SE_W0 n e) 20 2
  let c : CoreSt := { CoreSt.reset with
    inSlot := true, part := p, seq := seq, entry := e, pc := s.fld (rPair_SE_W3 n e) 0 17, slot := seq + 256 * (m % 256)
    ctx := { x.ctx with flags := flagsStart x.first x.takeover }
    budget := s.fld (rPair_SE_W2 n e) 0 16, stime := s.sf * 6250 + s.seStart n e, ssf := s.sf }
  let idle := match (s.pair n).lastEnd with
    | some t => min (s.now - t) 65535
    | none => 65535
  let s1 := s.modCore u fun _ => c
  let s2 := s1.setFld (rPair_PR_STAT n) 3 13 (1 + 2 * p + 32 * seq + 128 * e)
  let s3 := if idle < s.fld (rPair_IDLE_MIN n) 0 16 then s2.setFld (rPair_IDLE_MIN n) 0 16 idle else s2
  if s3.winOk p then s3 else s3.trapSlot u .window

/-- A schedule entry reaches its START tick; a START that is past, or taken already in this minor frame, is none (R90, R94). `ecc` is
what the read of the entry and its BUDGET found. -/
def State.slotStart (s0 : State) (n e : Nat) (ecc : EccFind) : State :=
  let s1 := if ecc = .uncorrectable && s0.seValid n e then
      (s0.modPair n fun x => { x with seBad := x.seBad ||| 2 ^ e }).raise (96 + 24 * n + 15) 0
        (s0.sePart n e + 16 * s0.fld (rPair_SE_W0 n e) 20 2) else s0
  if !s1.seRuns n e || s1.seTaken n e || s1.sf * 6250 + s1.seStart n e < s1.now then s1
  else
    let s := (s1.advanceTo (s1.sf * 6250 + s1.seStart n e)).seTake n e
    let p := s.sePart n e
    let u := s.coreFor n p
    let s2 := s.clearCore u
    if !s2.ptLive p then s2
    else if s2.pairCan n p then (s2.wakePage (0x021 + n)).beginSlot n e
    else s2.skipSlot n p (s2.fld (rPair_SE_W0 n e) 20 2) (s2.fld (rPair_SE_W3 n e) 0 17)

def execSlotStart (n : Fin 4) (e : Fin 64) (ecc : EccFind) (s : State) : Host.Outcome State Fault Refusal :=
  done (s.slotStart n.val e.val ecc)

/-! END (R92, R126, R165, R172, R181) -/

/-- Does END leave the partition's words unwritten: suspended for want of quorum (R370)? -/
def State.suspendedAt (s : State) (p : Nat) : Bool := (s.part p).suspended && s.eng.noQuorum

/-- Make one staged item visible (R116, R117). -/
def State.publish (p : Nat) (s : State) : Staged → State
  | .store idx w =>
    if s.suspendedAt p || s.forced idx then s
    else if s.dbgFault p then s.devWrite idx 0 .fault
    else s.imgWr (8 * idx) w
  | .var k w => s.imgBytes (s.varAt p k) (natLe 8 w.toNat)
  | .timer t b => s.imgBytes (s.tmrAt p t) b
  | .fb i b => s.imgBytes (s.fbAt p i) b
  | .raise k h => s.raise (960 + 4 * p + k) 0 h
  | .arm ch t =>
    (s.wr64 (rCh_ARM_LO ch) t).modEng fun e => { e with armWr := Tab.set (fun _ => 0) e.armWr ch (s.now + 1) }
  | .lockout i f d entered =>
    s.opEvent (1048 + p) (some p) (i + 2 ^ 16 * f + 2 ^ 24 * d + 2 ^ 40 * b2n entered)
  | .fnTaken i => s.modPart p fun x => { x with fnReset := x.fnReset.filter (·.1 ≠ i) }

/-- The lines of a window that differ between two memories: offset and the new 64 bytes (R181). -/
def changedLines (old new : Mem) (base size : Nat) : List (Nat × List Byte) :=
  (List.range (size / 64)).filterMap fun i =>
    let b := Mem.bytes new (base + 64 * i) 64
    if Mem.bytes old (base + 64 * i) 64 = b then none else some (64 * i, b)

/-- The bytes of a mirror set (R181). -/
def mirrorSet (p gen : Nat) (record : List Byte) (lines : List (Nat × List Byte)) : List Byte :=
  let body := natLe 4 (p + 0x100 + 2 ^ 16 * lines.length) ++ natLe 4 gen ++ record
    ++ lines.flatMap fun l => natLe 4 l.1 ++ l.2
  body ++ natLe 4 (crc32c body).toNat

/-- Ephemeris offset and size of the outgoing area of a half, and offset of its incoming area, which has 1 MB (R170). -/
def mirOutAt (half : Nat) : Nat := 0x200000 * half + 0x8000
def mirOutSize : Nat := 0xF8000
def mirInAt (half : Nat) : Nat := 0x200000 * half + 0x100000

/-- Where the next set of `n` bytes goes in the outgoing area of a half: behind the sets not yet sent, at the start where it would not
fit there (log 17). -/
def State.mirNext (s : State) (half n : Nat) : Nat :=
  let a := s.eng.mirOut.foldl (fun a x => if x.gen % 2 = half && x.resync.isNone then x.at_ + (x.len + 7) / 8 * 8 else a) 0
  if a + n ≤ mirOutSize then a else 0

/-- Write a mirror set to the outgoing area; MIR_TX_PEAK (R181). A set longer than the area, which R182 keeps from any commit, ends
with it. -/
def State.mirrorWrite (s : State) (p gen : Nat) (bs : List Byte) : State :=
  let a := s.mirNext (gen % 2) bs.length
  let s1 := (s.ephWrite (mirOutAt (gen % 2) + a) (bs.take mirOutSize)).modEng fun e => { e with
    mirOut := e.mirOut ++ [⟨p, gen, a, bs.length, 0, none⟩]
    mirTx := e.mirTx + bs.length }
  if s1.fld rEph_MIR_TX_PEAK 0 18 < s1.eng.mirTx then s1.setFld rEph_MIR_TX_PEAK 0 18 (min s1.eng.mirTx (2 ^ 18 - 1)) else s1

/-- A slot ends with END: checkpoint, staged stores visible together, mirror set, swap latch (R165, R172, R140). -/
def State.endSlotGood (s : State) (u : Nat) (f : Bool) : State :=
  let c := s.core u
  let p := c.part
  let n := pairOf u
  let gen := ((s.part p).gen + 1) % 2 ^ 32
  let swap := c.swapReq || (s.part p).swapPend
  let s1 := s.ckptWrite p gen c.stime c.ssf c.ctx f swap
  let s2 := s1.modPart p fun x => { x with
    ctx := c.ctx, first := false, takeover := false, abandoned := false, swapPend := swap
    swapBad := x.swapBad || (c.swapReq && c.swapStaged) }
  let s3 := c.staged.foldl (State.publish p) s2
  let s4 := (((s3.modPart p fun x => { x with suspended := x.suspended && s3.eng.noQuorum }).setBit (rPart_PT_MODE p) 3 f).setFld
    (rPart_LAST_END p) 0 16 c.ssf).setBit (rPart_PGM_STAT p) 1 swap
  let s5 := if s.bit (rPart_PT_CFG p) 1 then
      s4.mirrorWrite p gen (mirrorSet p gen (ctxRecord p (gen % 2) gen c.stime c.ssf c.ctx f swap)
        (changedLines s.mem.img s4.mem.img (s.winBase p) (s.winSize p))) else s4
  let s6 := if c.reexec then
      let d := min (s5.now - c.detected) 65535
      let y := ((s5.bump (rPair_RECOV_CNT n)).wrN (rPair_RECOV_LAST n) d).rePair n
      if y.fld (rPair_RECOV_MAX n) 0 16 < d then y.setFld (rPair_RECOV_MAX n) 0 16 d else y
    else s5
  s6.slotOver u

/-- END f. In loose mode the signatures are compared before anything becomes visible (R164): each core's MISR with what that core
folds in last, END's own compared outputs (log 18). A difference fails a re-execution (R177) and, in a rejoin's verification
frame, ends the rejoin at the next boundary (R188). -/
def State.endSlot (s : State) (u : Nat) (f : Bool) (lastMain lastChk : BitVec 64) : State :=
  let c := s.core u
  let n := pairOf u
  if !s.canRun u then s else
    let ok := s.inPgm c.part c.pc
    let cost := if ok then cycles s.dev.grade 2 2 else 1
    let s1 := s.spend u (min cost (c.budget - c.cyc))
    if c.budget < c.cyc + cost then s1.trapSlot u .overrun
    else if !ok then (if c.cyc + cost = c.budget then s1.raiseExc u .overrun else s1).trapSlot u .illegal
    else if s.cmode n = 1 then
      let sigMain := misrStep (s1.core u).misr lastMain
      let sigChk := misrStep (s1.core u).misrChk lastChk
      let s2 := (s1.wr64 (rPair_SIG_MAIN_LO n) sigMain.toNat).wr64 (rPair_SIG_CHK_LO n) sigChk.toNat
      if sigMain = sigChk then s2.endSlotGood u f
      else
        let s3 := (s2.bump (rPair_MM_CNT n)).wr64 (rPair_MM_TIME_LO n) s2.now
        if c.reexec then s3.trapSlot u .signature
        else (s3.modPair n fun x => { x with verifyBad := true }).slotOver u
    else s1.endSlotGood u f

def execEndSlot (u : Fin 8) (f : Bool) (lastMain lastChk : BitVec 64) (s : State) : Host.Outcome State Fault Refusal :=
  done (s.endSlot u.val f lastMain lastChk)

/-- A latched swap request is cleared (R97). -/
def State.swapDrop (s : State) (p : Nat) : State :=
  (s.modPart p fun x => { x with
    swapPend := false
    swapBad := false }).setBit (rPart_PGM_STAT p) 1 false

/-- A latched swap is refused (R97). -/
def State.swapRefuse (s : State) (p : Nat) : State :=
  ((s.swapDrop p).setBit (rPart_PGM_STAT p) 2 true).raise (96 + 24 * s.ptPair p + 12) 0 p

/-! Mismatch and recovery (R173, R175, R177, R179) -/

/-- A read of Ephemeris meets a word with an ECC finding (R174). -/
def State.ephRead (s : State) (off : Nat) (ecc : EccFind) : State :=
  match ecc with
  | .clean => s
  | .corrected => (s.bump rEph_ECC_CORR).raise0 200
  | .uncorrectable => (s.modEng fun e => { e with ephBad := off :: e.ephBad.filter (· ≠ off) }).raise0 201

/-- A read of bytes that hold a word with an uncorrectable error raises EPH_ECC_UNCORR at every such read (R174). -/
def State.ephMeets (s : State) (off n : Nat) : State :=
  if s.eng.ephBad.any fun a => decide (off < a + 8) && decide (a < off + n) then s.raise0 201 else s

/-- Bytes of Ephemeris as a reader gets them: those of a word with an uncorrectable error are open (R174; log 17). -/
def State.ephBytes (s : State) (off n : Nat) : List Byte :=
  (List.range n).map fun i =>
    let a := off + i
    let b := Mem.byte s.mem.eph a
    if s.eng.ephBad.any fun x => decide (x ≤ a) && decide (a < x + 8) then Config.ephFlawed a b else b

/-- Count and record a mismatch (R194). -/
def State.noteMismatch (s : State) (n site : Nat) : State :=
  let c := s.core (2 * n)
  ((s.bump (rPair_MM_CNT n)).wrN (rPair_MM_LAST n) (slotHint c + 256 * (c.pc % 131072) + 2 ^ 28 * site)).wr64
    (rPair_MM_TIME_LO n) s.now

/-- Steps 1 to 5 of R175 for the slot of a pair: discard, flush, both cores held in CMODE 3 while the record is restored, re-execute in
loose mode. The steps are one here: CMODE 3 is left again within it. A restore reads both records of the partition. -/
def State.recoverSlot (s : State) (n : Nat) (ecc : EccFind) : State :=
  let u := 2 * n
  let c := s.core u
  let s1 := s.raise (96 + 24 * n) 0 (slotHint c)
  let s2 := (s1.modPair n fun x => { x with cache := [] }).setFld (rPair_PR_STAT n) 0 3 3
  let s3 := s2.modCore u fun k => { k with
    staged := [], swapReq := false, swapStaged := false, reexec := true, detected := s.now, cyc := 0
    misr := misrInit, misrChk := misrInit }
  let h0 := ((s3.ephPick c.part).getD ((s3.part c.part).gen % 2))
  let s4 := ((s3.ephMeets (ephAt c.part 0) 1024).ephMeets (ephAt c.part 1) 1024).ephRead (ephAt c.part h0) ecc
  match s4.ephPick c.part with
  | none => s4.trapSlot u .restore
  | some h => (s4.setFld (rPair_PR_STAT n) 0 3 1).modCore u fun k => { k with
      pc := s.fld (rPair_SE_W3 n c.entry) 0 17
      ctx := { s4.ephCtx c.part h with flags := flagsStart (s.part c.part).first (s.part c.part).takeover } }

/-- The comparator detects a difference at `site`, a row of R163; `ecc` is what the restore's read of the record finds. -/
def State.mismatch (s : State) (n site : Nat) (ecc : EccFind) : State :=
  if s.cmode n = 0 || s.cmode n = 5 then
    let s1 := s.noteMismatch n site
    if (s.core (2 * n)).inSlot then s1.recoverSlot n ecc
    else (s1.modPair n fun x => { x with cache := [] }).raise (96 + 24 * n + 3) 0 0
  else s

def execLockstepMismatch (n : Fin 4) (site : Fin 8) (ecc : EccFind) (s : State) : Host.Outcome State Fault Refusal :=
  done (s.mismatch n.val site.val ecc)

/-! Scrubs -/

/-- Partitions of a pair whose program window holds an index (R80). -/
def State.pgmOwners (s : State) (n i : Nat) : List Nat :=
  (List.range 16).filter fun p => s.ptPair p = n && s.inPgm p i

/-- The scrubber reads a word of both cores' copies while the pair executes no slot (R83); the hint names the partition whose window
holds it; it is 0 for a word in no window (log 155). -/
def State.pgmScrub (s : State) (n bank i : Nat) (main chk : EccFind) : State :=
  if (s.core (2 * n)).inSlot || (s.core (2 * n + 1)).inSlot then s
  else
    let hint := (s.pgmOwners n i).headD 0
    let s1 := if main = .corrected || chk = .corrected then s.raise (96 + 24 * n + 13) 0 hint else s
    if main = .uncorrectable && chk = .uncorrectable then
      (s1.raise (96 + 24 * n + 14) 0 hint).each (s.pgmOwners n i) fun x p =>
        (x.modPart p fun y => { y with pgmBad := true }).trapReaction p
    else if main = .uncorrectable then
      (s1.raise (96 + 24 * n + 14) 0 hint).pgmWr (2 * n) bank i (Mem.w32 s.mem.pgm (pgmAt (2 * n + 1) bank i))
    else if chk = .uncorrectable then
      (s1.raise (96 + 24 * n + 14) 0 hint).pgmWr (2 * n + 1) bank i (Mem.w32 s.mem.pgm (pgmAt (2 * n) bank i))
    else s1

def execPgmScrub (n : Fin 4) (bank : Bool) (i : BitVec 17) (main chk : EccFind) (s : State) :
    Host.Outcome State Fault Refusal :=
  done (s.pgmScrub n.val (b2n bank) i.toNat main chk)

/-- Is an image SRAM offset in a map region (R75)? -/
def inMapRegion (off : Nat) : Bool := (0x24000 ≤ off && off < 0x2C000) || (0x30000 ≤ off && off < 0x100000)

/-- The map scrub visits the word with offset 8·i of image SRAM (R152, R551). Outside the map regions it stands for what a reader
without a row operand of its own meets there: a correctable error is corrected, counted and reported, an uncorrectable one stays
in the word and raises nothing (log 124). -/
def execMapScrub (i : BitVec 18) (ecc : EccFind) (s : State) : Host.Outcome State Fault Refusal :=
  let off := 8 * i.toNat
  done (if !inMapRegion off then s.imgMeets off ecc else match ecc with
    | .clean => s
    | .corrected => s.imgCorrected
    | .uncorrectable =>
      let s1 := s.modEng fun e => { e with imgBad := off :: e.imgBad.filter (· ≠ off), mapRep := off :: e.mapRep.filter (· ≠ off) }
      if s.eng.mapRep.contains off then s1 else s1.raise0 193)

/-- The Ephemeris scrub visits the word with offset 8·i (R174). -/
def execEphScrub (i : BitVec 19) (ecc : EccFind) (s : State) : Host.Outcome State Fault Refusal :=
  let off := 8 * i.toNat
  done (match ecc with
    | .clean => s
    | .corrected => s.ephRead off .corrected
    | .uncorrectable =>
      let s1 := s.modEng fun e => { e with ephBad := off :: e.ephBad.filter (· ≠ off), ephRep := off :: e.ephRep.filter (· ≠ off) }
      if s.eng.ephRep.contains off then s1 else s1.raise0 201)

end Sys2Proof.Machine
end

