-- ==== Sys2Proof/Machine/Access.lean ====
section
/-! DEFINITION. Who may write what (R21, R22, R31, R34, R35, R39, R42, R431, R433, R550): privilege, ownership, denials,
staging of wide values, the end of a session. -/

namespace Sys2Proof.Machine

open Sys2Proof

/-! Privilege (R433) -/

def State.holdsMaint (s : State) (m : Master) : Bool := (s.sess m).role = 1
def State.holdsAdmin (s : State) (m : Master) : Bool := (s.sess m).role = 2
def State.holdsMA (s : State) (m : Master) : Bool := s.holdsMaint m || s.holdsAdmin m
def State.holdsOwner (s : State) (m : Master) (p : Nat) : Bool := (s.sess m).role = 3 && (s.sess m).part = p
def State.holdsExpert (s : State) (m : Master) : Bool := (s.sess m).role ≠ 0 && (s.sess m).expert

/-- LC_STAT.STATE: 0 BLANK, 1 PROVISIONING, 2 DEPLOYED, 3 RETURNED (R428). -/
def State.lc (s : State) : Nat := s.fld rLcs_LC_STAT 0 2

/-- Lifecycle states 1 and 2 of R431. -/
def State.lcProvDep (s : State) : Bool := s.lc = 1 || s.lc = 2

/-- PTP state of an Ethernet port: disabled or, until a message says more, at least listening (R398). -/
def State.ptpState (s : State) (k : Nat) : Nat := if s.bit (rEth_ETH_CFG k) 7 then max 1 (s.fld (rEth_ETH_STAT k) 2 3) else 0

/-- Do fabric and Ethernet run: in PROVISIONING and DEPLOYED, not under the defaults after an OTP integrity failure (R407, R411)? -/
def State.linksOn (s : State) : Bool := s.lcProvDep && !s.bit rOtp_OTP_STAT 4

/-- Is the partition in MAINTENANCE or STOP? -/
def State.ptQuiet (s : State) (p : Nat) : Bool := s.ptMode p = 2 || s.ptMode p = 0

/-- Is every SAFE partition in MAINTENANCE or STOP (R431)? -/
def State.allSafeQuiet (s : State) : Bool := allBelow 16 fun p => !s.ptSafe p || s.ptQuiet p

/-! Ownership (R34, R328, R550) -/

/-- The partition that owns the register at BAR0 offset `a`: for a timer channel's registers T_CFG's, else the page's. -/
def State.ownerAt (s : State) (a : Nat) : Option Nat :=
  let pg := a / 0x1000
  if 0x019 ≤ pg ∧ pg ≤ 0x01B ∧ 0x100 ≤ a % 0x1000 then
    let t := 16 * (pg - 0x019) + (a % 0x1000 - 0x100) / 0x30
    if s.bit (rTmr_T_CFG t) 16 then some (s.fld (rTmr_T_CFG t) 12 4) else none
  else if 0x028 ≤ pg ∧ pg ≤ 0x037 then some (pg - 0x028)
  else if s.bit (rPg_OWNER pg) 7 then some (s.fld (rPg_OWNER pg) 0 4) else none

/-- OWNER.WR_ of the page for the master. -/
def State.wrBit (s : State) (m : Master) (a : Nat) : Bool := s.bit (rPg_OWNER (a / 0x1000)) (16 + masterNum m)

/-- Does R34's third item hold: an owning partition of class SAFE is in MAINTENANCE or STOP? -/
def State.safeGate (s : State) (a : Nat) : Bool :=
  match s.ownerAt a with
  | some p => !s.ptSafe p || s.ptQuiet p
  | none => true

/-- R34's second item: MAINT or ADMIN, or the owner of the register. -/
def State.privAt (s : State) (m : Master) (a : Nat) : Bool :=
  s.holdsMA m || (match s.ownerAt a with
    | some p => s.holdsOwner m p
    | none => false)

/-- PG_STAT.LOCKED (R31). -/
def State.locked (s : State) (a : Nat) : Bool := s.bit (rPg_PG_STAT (a / 0x1000)) 1

/-- May the master write the register, where `role` says whether its privilege admits it (R34)? -/
def State.mayWrite (s : State) (m : Master) (a : Nat) (role : Bool) : Bool := s.wrBit m a && role && s.safeGate a

/-- PG_CTRL.EXPERT of the page is 1 and the master holds expert privilege (R35). -/
def State.expertAt (s : State) (m : Master) (a : Nat) : Bool :=
  s.bit (rPg_PG_CTRL (a / 0x1000)) 1 && s.holdsExpert m

/-! Denials (R34, R35, R45) -/

def State.denyNote (s : State) (m : Master) (a : Nat) : State :=
  (s.wrN rHost_DENY_ADDR a).wrN rHost_DENY_MASTER (masterNum m)

/-- HOST_OWNER_DENIED. -/
def State.denied (s : State) (m : Master) (a : Nat) : State := (s.denyNote m a).raise0 949

/-- HOST_EXPERT_DENIED. -/
def State.expertDenied (s : State) (m : Master) (a : Nat) : State := (s.denyNote m a).raise0 944

/-! A master's write -/

def State.master (s : State) (m : Master) : MasterSt := Tab.get (fun _ => MasterSt.reset) s.host.masters (masterNum m)
def State.modMaster (s : State) (m : Master) (f : MasterSt → MasterSt) : State :=
  s.modHost fun h => { h with masters := Tab.modify (fun _ => MasterSt.reset) h.masters (masterNum m) f }

/-- The staged low half for a high half at `a`, if the master staged one (R42). -/
def State.stagedFor (s : State) (m : Master) (a : Nat) : Option Word :=
  match (s.master m).staged with
  | some (x, v) => if x + 4 = a then some v else none
  | none => none

/-- Every write of a master restarts its session's idle time (R435), wakes the page (R32), and discards a low half staged
for another offset (R42). -/
def State.noteWrite (s : State) (m : Master) (a : Nat) : State :=
  let s1 := s.modSess m fun x => { x with lastWr := s.now }
  let s2 := if (s.stagedFor m a).isSome then s1 else s1.modMaster m fun x => { x with staged := none }
  if (pageBlock (a / 0x1000)).isSome then s2.wakePage (a / 0x1000) else s2

/-- In DORMANT only SUP, NGL and the page logic of HOST and CFG are powered: a write elsewhere finds no block (R515). -/
def State.asleep (s : State) (a : Nat) : Bool :=
  s.modeIs .dormant && !([0x012, 0x013, 0x078, 0x07C].contains (a / 0x1000))

/-- A write by a master to a command register whose own rule admits the roles `role` gives (R34). -/
def State.cmdWrite (s : State) (m : Master) (a : Nat) (role : State → Bool) (f : State → State) : State :=
  if s.asleep a then s
  else
    let s1 := s.noteWrite m a
    if s1.mayWrite m a (role s1) then f s1 else s1.denied m a

/-- The same for a command register under R34's second item as it stands. -/
def State.regCmd (s : State) (m : Master) (a : Nat) (f : State → State) : State :=
  s.cmdWrite m a (fun x => x.privAt m a) f

/-- The same for an expert command register (R35). -/
def State.expertCmd (s : State) (m : Master) (a : Nat) (role : State → Bool) (f : State → State) : State :=
  if s.asleep a then s
  else
    let s1 := s.noteWrite m a
    if !s1.mayWrite m a (role s1) then s1.denied m a
    else if s1.expertAt m a then f s1 else s1.expertDenied m a

/-- A write that any master may make (R34, R36): event bits, INJ_KEY, session registers. -/
def State.freeWrite (s : State) (m : Master) (a : Nat) (f : State → State) : State :=
  if s.asleep a then s else f (s.noteWrite m a)

/-! Sessions end (R35, R435) -/

/-- The pages that exist (R29). -/
def allPages : List Nat := (List.range 0x1C0).filter fun p => (pageBlock p).isSome

/-- PRIV_PCIE, PRIV_SPI show the privilege a master holds (R45). -/
def State.showPriv (s : State) (m : Master) : State :=
  let x := s.sess m
  s.wrN (match m with
    | .pcie => rHost_PRIV_PCIE
    | .spi => rHost_PRIV_SPI)
    (1 + 2 * b2n (x.role = 1) + 4 * b2n (x.role = 2) + 8 * b2n (s.holdsExpert m) + (if x.role = 3 then 2 ^ (4 + x.part) else 0))

/-- The master's session ends; with the last expert privilege EXPERT clears on every page (R35). -/
def State.endSession (s : State) (m : Master) : State :=
  let had := s.holdsExpert m
  let s1 := (s.modSess m fun x => { x with role := 0, part := 0, expert := false }).showPriv m
  if had && !s1.holdsExpert .pcie && !s1.holdsExpert .spi then
    s1.each allPages fun x pg => x.setBit (rPg_PG_CTRL pg) 1 false
  else s1

/-- Every session ends: at a commit switch and on any start-up (R435). -/
def State.endSessions (s : State) : State := (s.endSession .pcie).endSession .spi

end Sys2Proof.Machine
end

