-- ==== Sys2Proof/Machine/Faults.lean ====
section
/-! DEFINITION. The fault collector (ch. 17): the numbering of the sources with their default classes and pages (R458), the
condition sources (R549), policies (R463, R476, R480), messages, counting and class actions (R452 to R467), alarm pairs
and the critical sources (R456, R457), the shadow sweep (R468). -/

namespace Sys2Proof.Machine

open Sys2Proof

/-! The sources -/

/-- Default class of a pair source by its offset (R99, R193); none: reserved. -/
def pairClass : Nat → Option Nat
  | 0 => some 1 | 1 => some 1 | 2 => some 0 | 3 => some 0 | 4 => some 1 | 5 => some 1 | 6 => some 1 | 7 => some 0
  | 8 => some 1 | 9 => some 1 | 10 => some 1 | 11 => some 1 | 12 => some 0 | 13 => some 0 | 14 => some 2 | 15 => some 2
  | 16 => some 1 | 17 => some 1 | 18 => some 0 | 19 => some 1 | 20 => some 4 | _ => none

/-- Default class of a source that the spec's tables list (R458): 0 NOTE, 1 WARN, 2 DEGRADE, 3 TRIP, 4 HALT; none: reserved. -/
def defClass (n : Nat) : Option Nat :=
  if n < 18 then some 4
  else if n < 96 then match n with
    | 32 => some 1 | 33 => some 0 | 34 => some 4 | 35 => some 1
    | 40 => some 4 | 41 => some 4 | 42 => some 2 | 43 => some 1 | 44 => some 0 | 45 => some 1
    | 48 => some 1 | 49 => some 1
    | 56 => some 0 | 57 => some 1 | 58 => some 1 | 59 => some 1 | 60 => some 4 | 61 => some 1 | 62 => some 0
    | 64 => some 1 | 65 => some 1 | 66 => some 1 | 67 => some 1 | 68 => some 1 | 69 => some 4 | 70 => some 0
    | 76 => some 1 | 77 => some 0 | 78 => some 1 | 79 => some 1
    | 88 => some 1 | 89 => some 0 | 90 => some 1 | 91 => some 1 | 92 => some 0
    | _ => none
  else if n < 192 then pairClass ((n - 96) % 24)
  else if n < 248 then match n with
    | 192 => some 1 | 193 => some 2 | 194 => some 1 | 195 => some 1 | 196 => some 1 | 197 => some 0 | 198 => some 0
    | 199 => some 0 | 200 => some 0 | 201 => some 2 | 202 => some 1 | 203 => some 0 | 204 => some 0
    | 205 => none | 206 => none | 207 => none
    | k => if k < 212 then some 1 else some 0
  else if n < 256 then none
  else if n < 320 then match (n - 256) % 8 with
    | 0 => some 1 | 3 => some 1 | 4 => some 1 | 5 => some 1 | _ => some 0
  else if n < 333 then some (if n = 323 ∨ n = 327 ∨ n = 329 then 0 else 1)
  else if n < 352 then none
  else if n < 360 then some (if (n - 352) % 4 = 1 ∨ (n - 352) % 4 = 2 then 0 else 1)
  else if n < 373 then some (if n = 361 ∨ n = 372 then 0 else 1)
  else if n < 384 then none
  else if n < 880 then some 1
  else if n < 928 then some 0
  else match n with
    | 928 => some 1 | 929 => some 1 | 930 => some 4 | 931 => some 1 | 932 => some 0 | 933 => some 1
    | 936 => some 0 | 937 => some 0 | 938 => some 1 | 939 => some 0
    | 944 => some 1 | 945 => some 0 | 946 => some 1 | 947 => some 1 | 948 => some 1 | 949 => some 1
    | 952 => some 0 | 953 => some 0 | 954 => some 1 | 955 => some 1 | 956 => some 1 | 957 => some 1 | 958 => some 1
    | 959 => some 1
    | k => if 960 ≤ k ∧ k < 1024 then some 0 else none

/-- Is the source a condition source, LIVE_CAP = 1 (R549)? -/
def liveCap (n : Nat) : Bool :=
  n < 18 || n = 32 || n = 34 || n = 49 || (56 ≤ n && n ≤ 59) || n = 61 || (64 ≤ n && n ≤ 68) || n = 76 || n = 78 || n = 79
  || (216 ≤ n && n < 248) || (256 ≤ n && n < 320 && ((n - 256) % 8 = 0 || (n - 256) % 8 = 5 || (n - 256) % 8 = 6))
  || n = 320 || n = 321 || n = 326 || n = 330 || n = 331 || n = 352 || n = 356 || n = 360 || n = 366
  || (369 ≤ n && n ≤ 371) || (384 ≤ n && n < 880) || n = 928 || n = 929 || n = 933 || n = 947

/-- The page of a source (R458). -/
def srcPage (n : Nat) : Nat :=
  if n < 32 then 0x006 else if n < 40 then 0x002 else if n < 48 then 0x003 else if n < 56 then 0x004
  else if n < 64 then 0x005 else if n < 76 then 0x013 else if n < 88 then 0x012 else if n < 96 then 0x010
  else if n < 192 then 0x021 + (n - 96) / 24 else if n < 200 then 0x040 else if n < 208 then 0x048
  else if n < 212 then 0x021 + (n - 208) else if n < 216 then 0x021 + (n - 212)
  else if n < 232 then 0x028 + (n - 216) else if n < 248 then 0x028 + (n - 232) else if n < 256 then 0x028
  else if n < 320 then 0x051 + (n - 256) / 8 else if n < 352 then 0x050
  else if n < 356 then 0x070 else if n < 360 then 0x071 else if n < 384 then 0x072
  else if n < 768 then 0x100 + (n - 384) / 2 else if n < 816 then 0x080 + (n - 768) / 2
  else if n < 880 then 0x0A0 + (n - 816) / 2 else if n < 928 then 0x019 + (n - 880) / 16
  else if n < 936 then 0x018 else if n < 944 then 0x014 else if n < 952 then 0x078 else if n < 960 then 0x07C
  else 0x028 + (n - 960) / 4

/-- Does the source's address hint carry a partition in [19:16] (R461)? -/
def hintHasPart (n : Nat) : Bool :=
  (96 ≤ n && n < 192 && ((n - 96) % 24 ≤ 2 || (4 ≤ (n - 96) % 24 && (n - 96) % 24 ≤ 16))) || (192 ≤ n && n ≤ 196)

/-- The pair of a pair source (R459). -/
def srcPair (n : Nat) : Option Nat :=
  if 96 ≤ n ∧ n < 192 then some ((n - 96) / 24) else if 208 ≤ n ∧ n < 212 then some (n - 208)
  else if 212 ≤ n ∧ n < 216 then some (n - 212) else none

/-- The partition that owns the page, or the timer channel in the hint, of a source (R461). -/
def State.srcOwner (s : State) (n addr : Nat) : Option Nat :=
  if 880 ≤ n ∧ n < 928 then s.ownerAt (rTmr_T_CFG addr) else s.ownerAt (page (srcPage n))

/-- PART of a fault record: the partition the hint carries, else the owner of the source's page (log 23). -/
def State.srcPart (s : State) (n addr : Nat) : Option Nat :=
  if hintHasPart n then some (addr % 16) else s.srcOwner n addr

/-! Policies (R463) -/

/-- The default policy of a source, POL_HI ‖ POL_LO; a reserved source's record is zero. -/
def defPol (n : Nat) : BitVec 64 :=
  match defClass n with
  | some c => BitVec.ofNat 64 (c + 8 * c + 2 ^ 6 + 2 ^ 32 + 2 ^ 59 * b2n (liveCap n))
  | none => 0

/-- The policy in force of a source. -/
def State.pol (s : State) (n : Nat) : BitVec 64 := Tab.get defPol s.flt.pol n

def polBase (v : BitVec 64) : Nat := natBits v.toNat 0 3
def polEsc (v : BitVec 64) : Nat := natBits v.toNat 3 3
def polN (v : BitVec 64) : Nat := natBits v.toNat 6 8
def polSel (v : BitVec 64) : Nat := natBits v.toNat 14 2
def polMask (v : BitVec 64) : Nat := natBits v.toNat 16 16
def polW (v : BitVec 64) : Nat := natBits v.toNat 32 27

/-- Is the partition configured: it has an SRAM window? -/
def State.ptConfigured (s : State) (p : Nat) : Bool := s.fld (rPart_WIN_SIZE p) 12 9 ≠ 0

/-- The partitions a TRIP of the source could reach, for the check of R476. -/
def State.tripSet (s : State) (n : Nat) (v : BitVec 64) : List Nat :=
  match polSel v with
  | 0 => (List.range 16).filter fun p => s.ptConfigured p && (match srcPair n with
      | some k => s.ptPair p = k
      | none => true)
  | 1 => if 880 ≤ n ∧ n < 928 then (s.ownerAt (rTmr_T_CFG (n - 880))).toList else (s.ownerAt (page (srcPage n))).toList
  | _ => (List.range 16).filter fun p => natBit (polMask v) p

/-- Does a STANDARD partition with TRAP_RX = SKIP have this number (R476)? -/
def State.ptSkips (s : State) (p : Nat) : Bool := !s.ptSafe p && s.ptTrapRx p = 3

/-- Is a policy record one that R476 accepts for the source? LIVE_CAP of the record is ignored. -/
def State.polOk (s : State) (n : Nat) (v : BitVec 64) : Bool :=
  match defClass n with
  | none => decide (v &&& (~~~ (1#64 <<< 59)) = 0)
  | some c =>
    let b := polBase v
    let e := polEsc v
    let trips := b = 3 || e = 3
    decide (b ≤ 4) && decide (e ≤ 4) && decide (b ≤ e) && decide (polN v ≠ 0)
    && decide (1 ≤ polW v) && decide (polW v ≤ 86400000) && decide (natBits v.toNat 60 4 = 0)
    && (!(n < 18) || decide (v ||| (1#64 <<< 59) = defPol n))
    && (!(c = 4 || c = 2) || decide (c ≤ b))
    && decide (polSel v ≠ 3) && (!(polSel v = 0 && trips) || hintHasPart n)
    && (!trips || (if polSel v = 0 then (s.tripSet n v).any fun p => !s.ptSkips p
        else !(s.tripSet n v).isEmpty && (s.tripSet n v).all fun p => !s.ptSkips p))

/-! Alarm pairs (R456, R457) -/

def State.alm (s : State) (k : Nat) : AlarmPair := Tab.get (fun _ => AlarmPair.normal) s.flt.alm k

/-- Set the state of an alarm pair; RAIL_STAT and RAIL_BROKEN show it (R477). -/
def State.setAlm (s : State) (k : Nat) (a : AlarmPair) : State :=
  let s1 := (s.modFlt fun f => { f with alm := Tab.set (fun _ => AlarmPair.normal) f.alm k a }).setBit rFlt0_RAIL_STAT k (a = .alarm)
  if a = .broken then (s1.setBit rFlt0_RAIL_BROKEN k true).evRaw 0x006 4 true else s1

/-- Does a pair assert the safe-state line in the present mode: in DORMANT only those of R516? -/
def State.almActs (s : State) (k : Nat) : Bool := !s.modeIs .dormant || k = 2 || k = 3 || k = 4

/-- A critical source drives its alarm pair; the safe-state line is asserted (R456, R470). -/
def State.alarmPair (s : State) (k : Nat) : State :=
  if s.almActs k then (s.setAlm k .alarm).safeState k 4 else s

/-- The condition of a critical source holds while its pair reads alarm or broken (R549): it begins where the pair leaves normal, with one
message (R453). The pairs of the reserved sources have none. -/
def State.almBegins (s : State) (k addr : Nat) : State := s.when (decide (k < 18) && s.alm k = .normal) fun x => x.raise k 0 addr

/-- A critical source trips: its message, and its alarm pair (R456, R457); suppressed in DORMANT but for those of R516. -/
def State.critical (s : State) (k addr : Nat) : State := s.when (s.almActs k) fun x => (x.almBegins k addr).alarmPair k

def execAlarmPairAssert (k : Fin 18) (s : State) : Host.Outcome State Fault Refusal := done (s.critical k.val 0)

/-- A pair reads equal for more than 4 CLK_SYS cycles (R456). -/
def execAlarmPairBroken (k : Fin 32) (s : State) : Host.Outcome State Fault Refusal :=
  done (if s.almActs k.val then ((s.almBegins k.val 0).setAlm k.val .broken).safeState k.val 5 else s)

/-- A monitor of R457 trips: sources 1 to 4, 7, 8 to 11 (a pair in CMODE recovering for more than 5 µs, which it then stays
in) and 12 (no superframe boundary seen). -/
def execCriticalMonitorTrip (k : Fin 18) (s : State) : Host.Outcome State Fault Refusal :=
  done (
    let n := k.val
    let stuck := 8 ≤ n && n ≤ 11 && (s.cmode (n - 8) = 3 || (s.core (2 * (n - 8))).reexec)
    let y := s.when ((1 ≤ n && n ≤ 4) || n = 7 || stuck || n = 12) fun x => x.critical n 0
    y.when stuck fun x => x.setFld (rPair_PR_STAT (n - 8)) 0 3 3)

/-- The root PLL loses lock (R14): source 0. -/
def execPllLockLoss (s : State) : Host.Outcome State Fault Refusal :=
  done (if s.dev.pllLocked then ((s.rtcSet s.rtcNow).modDev fun d => { d with pllLocked := false }).critical 0 0 else s)

/-- The sweep finds a word of the collector that differs from its copy, or none (R468). -/
def execFltShadowSweep (bad : Bool) (s : State) : Host.Outcome State Fault Refusal :=
  done (if s.flt.running && bad then (s.modFlt fun f => { f with shadowOk := false }).critical 5 0 else s)

/-! Counting (R464) -/

def State.fcnt (s : State) (n : Nat) : FltCnt := Tab.get (fun _ => FltCnt.reset) s.flt.cnt n

/-- Count one event of a policy at slot time `t`. -/
def fltCount (v : BitVec 64) (t : Nat) (c : FltCnt) : FltCnt :=
  let c1 := if c.wcnt = 0 ∨ c.ws + polW v * 100000 ≤ t then { c with ws := t, wcnt := 0, esc := false } else c
  let w := min (c1.wcnt + 1) 255
  ⟨c1.ws, w, c1.esc || decide (polN v ≤ w), satAdd 32 c1.total 1⟩

/-- The escalation flag as the ESC array shows it at time `t` (R464). -/
def escShown (v : BitVec 64) (t : Nat) (c : FltCnt) : Bool := c.esc && decide (t < c.ws + polW v * 100000)

/-! Class actions (R459 to R462) -/

/-- DEGRADE (R459, R460, R462). -/
def State.degrade (s : State) (n : Nat) : State :=
  let s1 := match srcPair n with
    | some k => (s.modFlt fun f => { f with pairOff := f.pairOff ||| (1#4 <<< k) }).modPair k fun x => { x with offlinePend := true }
    | none => s
  match s.dev.mode with
  | .operate => s1.enterHarebell n 1
  | .selftest => s1.modFlt fun f => { f with degradePend := true }
  | .sync => s1.modFlt fun f => { f with degradePend := true }
  | _ => s1

/-- The targets of a TRIP (R461). -/
def State.tripTargets (s : State) (n addr : Nat) (v : BitVec 64) : List Nat :=
  match polSel v with
  | 0 => if hintHasPart n then [addr % 16] else []
  | 1 => (s.srcOwner n addr).toList
  | 2 => (List.range 16).filter fun p => natBit (polMask v) p
  | _ => []

/-- TRIP: the targets in RUN or MAINTENANCE take a trap (R461). -/
def State.tripAct (s : State) (n addr : Nat) (v : BitVec 64) : State :=
  let ts := (s.tripTargets n addr v).filter s.ptLive
  (s.wrN rFlt0_TRIP_LAST (n + 2 ^ 16 * bitMask 16 fun p => ts.contains p)).each ts State.trapReaction

/-- The actions of one class, beyond the counters and the record that every class has. -/
def State.classAct (s : State) (n addr : Nat) (v : BitVec 64) (c : Nat) : State :=
  let s1 := s.bump (rFlt0_CLASS_CNT c)
  match c with
  | 2 => s1.degrade n
  | 3 => s1.tripAct n addr v
  | 4 => s1.safeState n 1
  | _ => s1

/-- One event of a source: count it, take the actions of its base class and, escalated, of its escalated class; the higher
first, as R17 resolves actions of one cycle. -/
def State.fltEvent (s : State) (n addr t : Nat) : State :=
  let v := s.pol n
  let c := fltCount v t (s.fcnt n)
  let s1 := s.modFlt fun f => { f with cnt := Tab.set (fun _ => FltCnt.reset) f.cnt n c }
  let s2 := if c.esc && polEsc v ≠ polBase v then s1.classAct n addr v (polEsc v) else s1
  s2.classAct n addr v (polBase v)

/-- The class acted on, as the record shows it (R481, R482). -/
def State.classOf (s : State) (n : Nat) : Nat := if (s.fcnt n).esc then polEsc (s.pol n) else polBase (s.pol n)

/-- The collector accepts the message a detector holds: it sets the sticky bit, counts its 1 + r events, acts, and makes the
record (R453, R459, R464, R481). `lat` is the time from event to classification in CLK_SYS cycles (R477). -/
def State.fltAccept (s : State) (n lat : Nat) : State :=
  let d := s.det n
  let s1 := s.modFlt fun f => { f with det := Tab.set (fun _ => Det.reset) f.det n Det.reset }
  let s2 := (s1.bump64 rFlt0_BUS_MSG_LO).setBit (rFlt1_STICKY (n / 32)) (n % 32) true
  let s3 := s2.setFld rFlt0_BUS_LAT_MAX 0 12 (max (s2.fld rFlt0_BUS_LAT_MAX 0 12) lat)
  let s4 := s3.each (List.range (1 + d.rep)) fun x _ => x.fltEvent n d.addr d.time
  let c := s4.classOf n
  let r : LogRec := ⟨d.time, n, d.kind, if 1 ≤ c then 0 else 2, s.srcPart n d.addr, d.inj, 1 + d.rep, d.addr,
    BitVec.ofNat 64 (c + 256 * b2n (s4.fcnt n).esc)⟩
  let s5 := (s4.logAdd r).pendSet n
  if s5.flt.safeLine && !s.flt.safeLine then s5.logFlush else s5

/-- A detector's turn on the fault bus: its message is accepted when the second word is the complement of the first; three
failed turns in a row raise FLT_BUS (R454). In DORMANT the collector has no clock: messages wait, and the alarm pairs of R516 alone
act (R16, R515, R516). -/
def execFaultMessage (src : Fin 1024) (good : Bool) (lat : BitVec 12) (s : State) : Host.Outcome State Fault Refusal :=
  let n := src.val
  done (
    if !s.flt.running || !(s.det n).held || s.modeIs .dormant then s
    else if good then s.fltAccept n lat.toNat
    else
      let b := (s.det n).bad + 1
      let s1 := (((s.modFlt fun f => { f with det := Tab.modify (fun _ => Det.reset) f.det n fun d => { d with bad := b % 3 } }).bump
        rFlt0_BUS_ERR).evSet 0x006 8)
      if b = 3 then s1.critical 6 0 else s1)

/-! CNT_CMD (R467) -/

/-- Clear WCNT, WS and ESC of a source. -/
def State.cntClear (s : State) (n : Nat) : State :=
  s.modFlt fun f => { f with cnt := Tab.modify (fun _ => FltCnt.reset) f.cnt n fun c => { c with ws := 0, wcnt := 0, esc := false } }

/-- Each use of CNT_CMD is recorded at P1 (R467, R482); the spec gives the record no event number: it carries the source
selected, or 0 (log 24). -/
def State.cntNote (s : State) (n : Nat) : State := s.logAdd ⟨s.now, n, 0, 1, none, false, 1, 0, 0⟩

/-- The action of a write of CNT_CMD. -/
def State.cntCmd (s : State) (v : Word) : State :=
  let n := s.fld rFlt2_CNT_SEL 0 10
  let s1 := if natBit v.toNat 0 then s.cntClear n else s
  let s2 := if natBit v.toNat 1 then s1.each (List.range 1024) State.cntClear else s1
  if natBit v.toNat 0 || natBit v.toNat 1 then s2.cntNote (if natBit v.toNat 1 then 0 else n) else s2

/-- CNT_CMD.CLEAR; `hit`: an event of the selected source comes in the same cycle and is counted in a new window (R467). -/
def execCntClear (m : Master) (hit : Bool) (s : State) : Host.Outcome State Fault Refusal :=
  done (s.cmdWrite m rFlt2_CNT_CMD (fun x => x.holdsMA m) fun x =>
    let y := x.cntCmd 1
    if hit then (y.raise0 (x.fld rFlt2_CNT_SEL 0 10)) else y)

def execCntClearAll (m : Master) (s : State) : Host.Outcome State Fault Refusal :=
  done (s.cmdWrite m rFlt2_CNT_CMD (fun x => x.holdsMA m) fun x => x.cntCmd 2)

/-! Policy registers (R480) -/

/-- Set the policy of a source; LIVE_CAP stays as the source has it. -/
def State.setPol (s : State) (n : Nat) (v : BitVec 64) : State :=
  s.modFlt fun f => { f with pol := Tab.set defPol f.pol n (setBits v 59 1 (b2n (liveCap n))) }

/-- A write of POL_LO (`hi` = false) or POL_HI of the selected source. -/
def State.polWrite (s : State) (m : Master) (hi : Bool) (v : Word) : State :=
  let a := if hi then rFlt3_POL_HI else rFlt3_POL_LO
  let n := s.fld rFlt3_POL_SEL 0 10
  let old := s.pol n
  let new := if hi then setBits old 32 27 (natBits v.toNat 0 27) else setBits old 0 32 v.toNat
  if s.locked a then (if new = old then s else s.denied m a)
  else if s.polOk n new then (s.setPol n new).wr a v else s.denied m a

def execPolicyWrite (m : Master) (hi : Bool) (v : BitVec 32) (s : State) : Host.Outcome State Fault Refusal :=
  done (s.regCmd m (if hi then rFlt3_POL_HI else rFlt3_POL_LO) fun x => x.polWrite m hi v)

/-! Injection arming (R473) -/

def State.inj (s : State) (pg : Nat) : Inj := Tab.get (fun _ => Inj.reset) s.flt.inj pg
def State.modInj (s : State) (pg : Nat) (f : Inj → Inj) : State :=
  s.modFlt fun x => { x with inj := Tab.modify (fun _ => Inj.reset) x.inj pg f }

/-- A write of INJ_KEY: the page's key arms it for 1 ms for the writing master, any other value disarms it. -/
def State.injKey (s : State) (m : Master) (pg : Nat) (v : Word) : State :=
  if v.toNat = 0x494E0000 + pg then s.modInj pg fun x => { x with armedBy := some m, armedUntil := s.now + 100000 }
  else s.modInj pg fun x => { x with armedBy := none }

def execInjKeyWrite (m : Master) (pg : Fin 448) (v : BitVec 32) (s : State) : Host.Outcome State Fault Refusal :=
  done (if (pageBlock pg.val).isSome then s.freeWrite m (rPg_INJ_KEY pg.val) fun x => x.injKey m pg.val v else s)

/-- An arming not used within 1 ms lapses. -/
def execInjArmExpire (pg : Fin 448) (s : State) : Host.Outcome State Fault Refusal :=
  done (if (s.inj pg.val).armedBy.isSome && !s.modeIs .dormant then
      (s.advanceTo (s.inj pg.val).armedUntil).modInj pg.val fun x => { x with armedBy := none }
    else s)

end Sys2Proof.Machine
end

