-- ==== Sys2Proof/Machine/Events.lean ====
section
/-! DEFINITION. The Logbook's consumers and buckets (R483 to R486), the routing of events to the host (R43, R490, R491),
and the clear-against-set race of event bits (R36 to R38). -/

namespace Sys2Proof.Machine

open Sys2Proof

/-! Logbook -/

/-- A 1 ms bucket ends: open records are committed (R483). -/
def execLogBucketEnd (s : State) : Host.Outcome State Fault Refusal :=
  done (s.when (!s.modeIs .dormant) fun x => (x.advanceTo (x.nextMultiple 100000)).logFlush)

/-- LOG.CMD.FLUSH_COAL. -/
def execFlushCoal (m : Master) (s : State) : Host.Outcome State Fault Refusal :=
  done (s.regCmd m rLog_CMD State.logFlush)

/-- A write of HOST_RP passes the records before it (R485). -/
def State.hostRp (s : State) (v : Word) : State := ((s.setFld rLog_HOST_RP 0 17 v.toNat).wr (rLog_HOST_RP + 0x20000000) (v &&& 0x1FFFF)).logTidy

def execLogHostRpWrite (m : Master) (v : BitVec 32) (s : State) : Host.Outcome State Fault Refusal :=
  done (s.regCmd m rLog_HOST_RP fun x => x.hostRp v)

/-- A record as a read of Logbook SRAM with an uncorrectable error gives it: it fails RCRC (R492; log 145). -/
def flawedRec (slot : Nat) (b : List Byte) : List Byte :=
  let d := natLe 28 (Config.logFlawed slot (leNat (b.take 28)))
  d ++ natLe 4 (~~~ (crc32c d)).toNat

/-- The spill's record goes to flash as `out`, in the place of its SEQ; the oldest record is erased when the area is full (R486). -/
def State.spillOne (s : State) (slot : Nat) (out : List Byte → List Byte) : State :=
  let b := Mem.bytes s.mem.logm (32 * slot) 32
  let seq := leNat ((b.drop 8).take 4)
  let s1 := (s.modMem fun m => { m with spill := Mem.write m.spill (32 * (seq % 1048576)) (out b) }).bump64 rLog_SPILL_LO
  let first := seq - 1048575
  if (s.rd rLog_FL_OLDEST).toNat < first then
    (s1.wrN rLog_FL_OLDEST first).when (s.log.flRead < first) fun x => x.logEvent 1071 (first - 1)
  else s1

/-- The spill writes its next record, or skips it: below SPILL_MIN, or when flash fails (R486, R492). -/
def execLogSpillWrite (e : SpillEnd) (s : State) : Host.Outcome State Fault Refusal :=
  let slot := s.fld rLog_SPILL_RP 0 17
  done (
    if !s.bit rLog_LOG_CFG 0 || s.logPend slot = 0 then s
    else
      let prio := natBits (Mem.byte s.mem.logm (32 * slot + 15)).toNat 0 2
      let s1 := if s.fld rLog_LOG_CFG 1 2 < prio then s else match e with
        | .written => s.spillOne slot id
        | .flashFail => s.raise0 91
        | .eccUncorr => (s.raise0 90).spillOne slot (flawedRec slot)
      (s1.setFld rLog_SPILL_RP 0 17 ((slot + 1) % s.logN)).logTidy)

/-- A write of FL_SEL fetches the record of that SEQ from flash; FL_STAT tells VALID, or ABSENT where its place is blank or holds the record of
another SEQ; a record that fails RCRC is neither (R486, R493). -/
def State.flRead (s : State) (v : Word) : State :=
  let a := 32 * (v.toNat % 1048576)
  let b := Mem.bytes s.mem.spill a 32
  let whole := decide (leNat (b.drop 28) = (crc32c (b.take 28)).toNat)
  let ok := whole && decide (leNat ((b.drop 8).take 4) = v.toNat)
  let absent := !ok && (whole || b.all (· = 0))
  let s1 := s.wr rLog_FL_SEL v
  let s2 := s1.each (List.range 8) fun x i => x.wr (rLog_FL_DATA i) (if absent then 0 else Mem.w32 s.mem.spill (a + 4 * i))
  (s2.wrN rLog_FL_STAT (if ok then 1 else if absent then 4 else 0)).modLog fun l => { l with
    flRead := if ok then max l.flRead (v.toNat + 1) else l.flRead }

def execLogFlRead (m : Master) (v : BitVec 32) (s : State) : Host.Outcome State Fault Refusal :=
  done (s.regCmd m rLog_FL_SEL fun x => x.flRead v)

/-! Routing -/

/-- Send the vector's message if a pending bit asks for it (R43, R491). -/
def State.vecServe (s : State) (v : Nat) : State := if s.vecWanted v then s.sendVec v else s

/-- A write of VEC_ACK ends the service of a vector (R491). -/
def State.vecAck (s : State) (v : Nat) : State := (s.setInService (v % 64) false).vecServe (v % 64)

def execVecAck (m : Master) (v : Fin 64) (s : State) : Host.Outcome State Fault Refusal :=
  done (s.regCmd m rEvt_VEC_ACK fun x => x.vecAck v.val)

/-- A write of RT_DATA: the entry of RT_SEL (R490, R491, R494). -/
def State.routeWrite (s : State) (v : Word) : State :=
  let n := s.fld rEvt_RT_SEL 0 11
  if 1536 ≤ n then s
  else
    let s1 := (s.modEvt fun e => { e with route := Tab.set (fun _ => 0) e.route n (v.setWidth 9) }).wr rEvt_RT_DATA v
    s1.when (s1.pendBit n && natBit v.toNat 6) fun x => x.vecServe (natBits v.toNat 0 6)

def execRoutingWrite (m : Master) (v : BitVec 32) (s : State) : Host.Outcome State Fault Refusal :=
  done (s.regCmd m rEvt_RT_DATA fun x => x.routeWrite v)

/-- A pending bit whose vector may send is cleared with its message (R43). -/
def State.vecFlush (s : State) (v : Nat) : State :=
  if Tab.get (fun _ => false) s.host.vpend v && !Tab.get (fun _ => true) s.host.vmask v && s.msixOn then
    (s.modHost fun h => { h with vpend := Tab.set (fun _ => false) h.vpend v false }).sendVec v
  else s

/-- The mask bit of a vector: unmasking it with its pending bit set sends the message (R43). -/
def State.vecMask (s : State) (v : Nat) (b : Bool) : State :=
  (s.modHost fun h => { h with vmask := Tab.set (fun _ => true) h.vmask v b }).vecFlush v

/-- A write of the 4-byte word at an offset of BAR4: a word of a table entry, which has address, data and vector control; the
pending-bit array is read-only, and the rest is reserved (R24). -/
def State.bar4Write (s : State) (off : Nat) (x : Word) : State :=
  let v := off / 16
  if 0x400 ≤ off then s
  else match off % 16 with
    | 0 => s.modHost fun h => { h with vaddr := Tab.modify (fun _ => 0) h.vaddr v fun a => BitVec.ofNat 64 (a.toNat / 2 ^ 32 * 2 ^ 32 + x.toNat) }
    | 4 => s.modHost fun h => { h with vaddr := Tab.modify (fun _ => 0) h.vaddr v fun a => BitVec.ofNat 64 (a.toNat % 2 ^ 32 + 2 ^ 32 * x.toNat) }
    | 8 => s.modHost fun h => { h with vdata := Tab.set (fun _ => 0) h.vdata v x }
    | 12 => s.vecMask v (x.getLsbD 0)
    | _ => s

/-- The 4-byte word at an offset of BAR4 (R24). -/
def State.bar4Read (s : State) (off : Nat) : Word :=
  let v := off / 16
  if 0x800 ≤ off ∧ off < 0x808 then BitVec.ofNat 32 (bitMask 32 fun i => Tab.get (fun _ => false) s.host.vpend (8 * (off - 0x800) + i))
  else if 0x400 ≤ off then 0
  else match off % 16 with
    | 0 => (Tab.get (fun _ => 0) s.host.vaddr v).setWidth 32
    | 4 => (Tab.get (fun _ => 0) s.host.vaddr v >>> 32).setWidth 32
    | 8 => Tab.get (fun _ => 0) s.host.vdata v
    | _ => BitVec.ofNat 32 (b2n (Tab.get (fun _ => true) s.host.vmask v))

/-- A vector is unmasked in its table entry. -/
def execMsixUnmask (v : Fin 64) (s : State) : Host.Outcome State Fault Refusal := done (s.bar4Write (16 * v.val + 12) 0)

/-- Bus Master Enable and MSI-X enable change in configuration space: messages stop, or those of pending bits are sent
(R43). Copies of XFER cease while Bus Master Enable is clear (R26). -/
def execBusMasterEnableChange (bme msix : Bool) (s : State) : Host.Outcome State Fault Refusal :=
  let s1 := (s.setBit rHost_LINK_STAT 8 bme).modHost fun h => { h with msixEn := msix }
  done (if s1.msixOn && !s.msixOn then s1.each (List.range 64) fun x v => (x.vecFlush v).vecServe v else s1)

/-! W1C bits (R36 to R38) -/

/-- The clear-against-set register of a W1C register: EV_AGAIN of a page, AGAIN_k of FLT and EVT (R37, R465, R490). -/
def againOf (a : Nat) : Option Nat :=
  if a % 0x1000 = 0x18 then some (a + 8)
  else if rFlt1_STICKY 0 ≤ a ∧ a ≤ rFlt1_STICKY 31 then some (a - rFlt1_STICKY 0 + rFlt1_AGAIN 0)
  else if rEvt_PEND 0 ≤ a ∧ a ≤ rEvt_PEND 47 then some (a - rEvt_PEND 0 + rEvt_AGAIN 0)
  else none

/-- A W1C write of `v` at `a`, in a cycle in which hardware sets the bits of `hw`: they stay set, and those the write clears
are noted. -/
def State.w1c (s : State) (a : Nat) (v hw : Word) : State :=
  match regSpecAt a with
  | none => s
  | some r =>
    let old := s.rd a
    let h := hw &&& r.w1c
    let s1 := s.wr a ((old &&& ~~~ (v &&& r.w1c)) ||| h)
    match againOf a with
    | some g => s1.wr g (s1.rd g ||| (h &&& v))
    | none => s1

/-- A W1C write of PEND_k, in a cycle in which the events of `hw` occur: one that sets its bit asks for its message (R37, R490). -/
def State.pendClear (s : State) (k : Nat) (v hw : Word) : State :=
  let set := BitVec.ofNat 32 (bitMask 32 fun i => natBit hw.toNat i && s.pendTakes (32 * k + i))
  (s.w1c (rEvt_PEND k) v set).each (List.range 32) fun y i =>
    let r := y.route (32 * k + i)
    if natBit set.toNat i && r.getLsbD 6 then y.sendVec (natBits r.toNat 0 6) else y

/-- W1C clear of the event bits at BAR0 offset 4·i; needs VIEW only (R36). -/
def execEvStickyClear (m : Master) (i : BitVec 19) (v hw : BitVec 32) (s : State) : Host.Outcome State Fault Refusal :=
  let a := 4 * i.toNat
  done (match regSpecAt a with
    | none => s
    | some r => if r.w1c = 0 then s else s.freeWrite m a fun x => x.w1c a v hw)

/-- W1C clear of PEND_k, against events that occur in the same cycle. -/
def execEvtPendClear (m : Master) (k : Fin 48) (v hw : BitVec 32) (s : State) : Host.Outcome State Fault Refusal :=
  done (s.freeWrite m (rEvt_PEND k.val) fun x => x.pendClear k.val v hw)

/-- Read and clear a clear-against-set register; a bit hardware sets in that cycle stays set (R38). -/
def execEvAgainRead (m : Master) (pg : Fin 448) (hw : BitVec 32) (s : State) : Host.Outcome State Fault Refusal :=
  let a := rPg_EV_AGAIN pg.val
  done (if (pageBlock pg.val).isSome then ((s.wakePage pg.val).emit (.rdata m ((s.rd a).setWidth 64))).wr a hw else s)

end Sys2Proof.Machine
end

