-- ==== Sys2Proof/Machine/Timers.lean ====
section
/-! DEFINITION. Timer channels (R328 to R339) and Meridian's synchronisation (R319 to R327). A running timer's counter
at Meridian t is its value at `base` advanced by the increase of floor(Meridian / 2^PSC) since (R329). -/

namespace Sys2Proof.Machine

open Sys2Proof

/-! The counter (R329, R330) -/

def State.tMode (s : State) (t : Nat) : Nat := s.fld (rTmr_T_CFG t) 0 2
def State.tChain (s : State) (t : Nat) : Bool := s.bit (rTmr_T_CFG t) 2
def State.tPsc (s : State) (t : Nat) : Nat := s.fld (rTmr_T_CFG t) 3 4
def State.tCmp (s : State) (t : Nat) : Nat := (s.rd (rTmr_CMP t)).toNat

/-- Prescaled ticks since `base`; a chained timer has none (R329, R332). -/
def State.tTicks (s : State) (t : Nat) : Nat :=
  if s.tChain t then 0 else s.now / 2 ^ s.tPsc t - (s.timer t).base / 2 ^ s.tPsc t

/-- The counter now (R329, R330): a wrap, like a ONE_SHOT's stop, is TIMER_MATCH's or TIMER_OVERFLOW's, so that until it the counter
stands before it, as its companion and its flags do (R336, R337; log 148). -/
def State.tValue (s : State) (t : Nat) : Nat :=
  let x := s.timer t
  if x.run = .running then
    min (x.cnt + s.tTicks t) (if (s.tMode t = 2 || s.tMode t = 3) && x.cnt ≤ s.tCmp t then s.tCmp t else 0xFFFFFFFF)
  else x.cnt

/-- The counter stands at its present value from now on; one that waits for its START boundary goes on waiting. -/
def State.tHold (s : State) (t : Nat) (r : TimRun) : State :=
  let v := s.tValue t
  s.modTimer t fun x => { x with cnt := v, base := max x.base s.now, run := r }

/-- Meridian at which a running, unchained timer's counter reaches `v` (R320, R329). -/
def State.tAt (s : State) (t v : Nat) : Nat :=
  ((s.timer t).base / 2 ^ s.tPsc t + (v - (s.timer t).cnt)) * 2 ^ s.tPsc t

/-- The counter at which a timer matches: a PERIODIC one at the tick that carries it past CMP, so that its period is CMP + 1 ticks; a
ONE_SHOT loaded with CMP when the next tick passes it; else the one that reaches CMP (R329, R330; log 143). -/
def State.tGoal (s : State) (t : Nat) : Nat :=
  if s.tMode t = 2 || (s.tMode t = 3 && (s.timer t).cnt = s.tCmp t) then s.tCmp t + 1 else s.tCmp t

/-! Arming (R331) -/

/-- Is a timer held by a debug halt of its owner (R335)? -/
def State.tHeld (s : State) (t : Nat) : Bool :=
  s.bit (rTmr_T_CFG t) 10 && s.bit (rTmr_T_CFG t) 16
    && anyBelow 4 fun n => s.bit (rPair_DBG_STAT n) 0 && s.fld (rPair_DBG_STAT n) 4 4 = s.fld (rTmr_T_CFG t) 12 4

/-- Meridian from which a timer armed in the cycle at Meridian `at_` counts: the alignment of START. -/
def State.tStartAt (s : State) (t at_ : Nat) : Nat :=
  match s.fld (rTmr_T_CFG t) 7 2 with
  | 1 => (at_ / 6250 + 1) * 6250
  | 2 => (at_ / (6250 * 2 ^ s.mfLog2) + 1) * (6250 * 2 ^ s.mfLog2)
  | _ => at_ + 1

/-- Arm a timer in the cycle at Meridian `at_`: the counter is loaded with PHASE and counts from the alignment of START. -/
def State.tArmAt (s : State) (t at_ : Nat) : State :=
  if s.tMode t = 0 then s
  else
    let run := if s.tHeld t then TimRun.frozen else TimRun.running
    (s.modTimer t fun x => { x with run := run, cnt := (s.rd (rTmr_PHASE t)).toNat, base := s.tStartAt t at_ }).setBit (rTmr_T_STAT t) 9
      false

def State.tArm (s : State) (t : Nat) : State := s.tArmAt t s.now

/-- The device arms every timer with AUTOSTART = 1 (R331). -/
def State.tAutostart (s : State) : State :=
  s.each (List.range 48) fun x t => if x.bit (rTmr_T_CFG t) 9 then x.tArm t else x

/-! Captures (R333) -/

/-- Take a capture: the counter or Meridian [31:0]; a full queue loses it. -/
def State.tCapture (s : State) (t : Nat) : State :=
  let v := if s.bit (rTmr_CAP_CFG t) 16 then s.now else s.tValue t
  if (s.timer t).q.length < 4 then s.modTimer t fun x => { x with q := x.q ++ [BitVec.ofNat 32 v] }
  else (s.setBit (rTmr_T_STAT t) 7 true).raise (880 + t) 1 t

/-- Captures of every timer whose CAP_CFG.SRC is `src` and, where it names one, whose SEL is `sel`. -/
def State.tCaptures (s : State) (src : Nat) (sel : Option Nat) : State :=
  s.each (List.range 48) fun x t =>
    if x.fld (rTmr_CAP_CFG t) 0 3 = src && (match sel with
      | some k => x.fld (rTmr_CAP_CFG t) 8 8 = k
      | none => true) then x.tCapture t else x

/-- An edge of a channel's filtered level (R333). -/
def State.tEdge (s : State) (ch : Nat) (rising : Bool) : State :=
  (s.tCaptures (if rising then 1 else 2) (some ch)).tCaptures 3 (some ch)

/-! Match, overflow, chain (R330, R332, R334) -/

/-- What can happen to a timer in a cycle. -/
inductive TimEv where
  | hit (t : Nat)
  | ovf (t : Nat)
  | adv (t : Nat)
deriving DecidableEq, Repr

/-- A match trigger: the banks whose SEQ_CFG names the timer and the queues of XFER that wait for it take it (R334). -/
def State.tTrigger (s : State) (t : Nat) : State := s.modTimer t fun x => { x with fired := x.fired + 1 }

/-- The start trigger of TRIG, which arms its target in the following cycle (R334). -/
def State.tStartTrig (s : State) (t bit : Nat) : State :=
  if s.bit (rTmr_TRIG t) bit && s.fld (rTmr_TRIG t) 0 6 < 48 then s.tArmAt (s.fld (rTmr_TRIG t) 0 6) (s.now + 1) else s

/-- One event of a timer in this cycle, with what it causes down the chain; `reload` false where a write of CNT_SET takes the
place of the reload or hold (R336). A capture of the match records the counter as the cycle leaves it (log 148). -/
def State.tFire : Nat → TimEv → Bool → State → State
  | 0, _, _, s => s
  | fuel + 1, .hit t, reload, s =>
    let s0 := if !reload then s else s.modTimer t fun y => { y with
      cnt := if s.tMode t = 2 then 0 else s.tCmp t
      run := if s.tMode t = 3 then .done else y.run }
    let s1 := (((s0.setBit (rTmr_T_STAT t) 4 true).bump (rTmr_MATCH_CNT t)).opEvent (1152 + t) none 0).tCaptures 4 (some t)
    let s2 := if reload && s.tMode t = 2 && t + 1 < 48 && s1.tChain (t + 1) then State.tFire fuel (.adv (t + 1)) true s1 else s1
    (s2.tTrigger t).tStartTrig t 6
  | fuel + 1, .ovf t, _, s =>
    let s1 := (s.setBit (rTmr_T_STAT t) 5 true).modTimer t fun y => { y with cnt := 0 }
    let s2 := if t + 1 < 48 && s1.tChain (t + 1) then State.tFire fuel (.adv (t + 1)) true s1 else s1
    let s3 := s2.tStartTrig t 7
    if s.tCmp t = 0 && s.tMode t ≠ 2 then State.tFire fuel (.hit t) true s3 else s3
  | fuel + 1, .adv t, _, s =>
    if (s.timer t).run = .running && s.tMode t ≠ 0 && (s.timer t).base ≤ s.now then
      let c := (s.timer t).cnt + 1
      let s1 := s.modTimer t fun y => { y with cnt := c }
      if c = s.tGoal t then State.tFire fuel (.hit t) true s1
      else if c = 2 ^ 32 then State.tFire fuel (.ovf t) true s1
      else s1
    else s

/-- A timer that counts prescaled ticks and has not reached `v`; in DORMANT none counts (R326). -/
def State.tCounting (s : State) (t v : Nat) : Bool :=
  !s.modeIs .dormant && (s.timer t).run = .running && s.tMode t ≠ 0 && !s.tChain t && (s.timer t).cnt < v

/-- Does a running timer of `n` or lower number reach `v` in this cycle: by its prescaled ticks, or, chained, by a wrap of the timer before
it, which is an overflow or a PERIODIC reload (R329, R330, R332)? -/
def State.tReaches (s : State) : Nat → Nat → Bool
  | 0, v => s.tCounting 0 v && s.tAt 0 v = s.now
  | t + 1, v =>
    if s.tChain (t + 1) then
      (s.timer (t + 1)).run = .running && s.tMode (t + 1) ≠ 0 && (s.timer (t + 1)).base ≤ s.now && (s.timer (t + 1)).cnt + 1 = v
        && (if s.tMode t = 2 && (s.timer t).cnt ≤ s.tCmp t then s.tReaches t (s.tCmp t + 1)
          else (s.tMode t = 1 || s.tCmp t < (s.timer t).cnt) && s.tReaches t (2 ^ 32))
    else s.tCounting (t + 1) v && s.tAt (t + 1) v = s.now

/-- Does a timer overflow in this cycle (R330)? -/
def State.tOverflows (s : State) (t : Nat) : Bool :=
  s.tReaches t (2 ^ 32) && (s.tMode t = 1 || s.tCmp t < (s.timer t).cnt)

/-- TMR_t matches (R329, R330). -/
def State.tMatch (s : State) (t : Nat) : State :=
  if s.tCounting t (s.tGoal t) then
    let at_ := s.tAt t (s.tGoal t)
    State.tFire 100 (.hit t) true ((s.advanceTo at_).modTimer t fun x => { x with base := at_ })
  else s

def execTimerMatch (t : Fin 48) (s : State) : Host.Outcome State Fault Refusal := done (s.tMatch t.val)

/-- TMR_t passes 0xFFFF_FFFF: it counts above CMP, or runs free, with the match on the way where CMP lies ahead (R330). -/
def State.tOverflow (s : State) (t : Nat) : State :=
  if s.tCounting t (2 ^ 32) && (s.tMode t = 1 || s.tCmp t < (s.timer t).cnt) then
    let s1 := if (s.timer t).cnt < s.tCmp t then s.tMatch t else s
    let at_ := s1.tAt t (2 ^ 32)
    State.tFire 100 (.ovf t) true ((s1.advanceTo at_).modTimer t fun x => { x with base := at_ })
  else s

def execTimerOverflow (t : Fin 48) (s : State) : Host.Outcome State Fault Refusal := done (s.tOverflow t.val)

/-! Commands (R336, R339) -/

/-- Is the timer named by a bank's SEQ_CFG.TMR (R339)? -/
def State.tSeq (s : State) (t : Nat) : Bool :=
  anyBelow 24 fun b => s.bit (rBank_SEQ_CFG b) 0 && s.fld (rBank_SEQ_CFG b) 1 6 = t

/-- A write of T_CMD: STOP wins over ARM; a POP and a capture both take effect (R333, R336). One with ARM or STOP to a timer that a bank
names is discarded whole (R339). -/
def State.tCmd (s : State) (m : Master) (t : Nat) (v : Word) : State :=
  let b i := natBit v.toNat i
  if (b 0 || b 1) && s.tSeq t then s.denied m (rTmr_T_CMD t)
  else
    let s1 := if b 1 then s.tHold t .idle else if b 0 then s.tArm t else s
    let s2 := if b 2 then s1.modTimer t fun x => { x with q := x.q.drop 1 } else s1
    if b 3 then s2.tCapture t else s2

def execTimerArm (m : Master) (t : Fin 48) (s : State) : Host.Outcome State Fault Refusal :=
  done (s.regCmd m (rTmr_T_CMD t.val) fun x => x.tCmd m t.val 1)
def execTimerStop (m : Master) (t : Fin 48) (s : State) : Host.Outcome State Fault Refusal :=
  done (s.regCmd m (rTmr_T_CMD t.val) fun x => x.tCmd m t.val 2)
def execTimerPop (m : Master) (t : Fin 48) (s : State) : Host.Outcome State Fault Refusal :=
  done (s.regCmd m (rTmr_T_CMD t.val) fun x => x.tCmd m t.val 4)
def execTimerCapture (m : Master) (t : Fin 48) (s : State) : Host.Outcome State Fault Refusal :=
  done (s.regCmd m (rTmr_T_CMD t.val) fun x => x.tCmd m t.val 8)

/-- A write of CNT_SET, with its races against an overflow, a match or, chained, an advance due in the same cycle (R336). -/
def State.tCntSet (s : State) (m : Master) (t : Nat) (v : Word) : State :=
  if s.tSeq t then s.denied m (rTmr_CNT_SET t)
  else
    let adv := s.tChain t && s.tReaches t ((s.timer t).cnt + 1)
    let s1 := if s.tOverflows t then (s.setBit (rTmr_T_STAT t) 6 true).raise (880 + t) 2 t else s
    let s2 := if s.tReaches t (s.tGoal t) then State.tFire 100 (.hit t) false s1 else s1
    s2.modTimer t fun x => { x with cnt := v.toNat, base := max x.base (s.now + b2n adv) }

def execTimerCntSet (m : Master) (t : Fin 48) (v : BitVec 32) (s : State) : Host.Outcome State Fault Refusal :=
  done (s.regCmd m (rTmr_CNT_SET t.val) fun x => x.tCntSet m t.val v)

/-! Debug freeze (R335) -/

/-- Timers with DBG_FREEZE = 1 freeze while their owner is the halted partition of a pair. -/
def State.tFreeze (s : State) (p : Nat) : State :=
  s.each (List.range 48) fun x t =>
    if x.bit (rTmr_T_CFG t) 10 && x.bit (rTmr_T_CFG t) 16 && x.fld (rTmr_T_CFG t) 12 4 = p && (x.timer t).run = .running
    then x.tHold t .frozen else x

/-- On release they continue from the held value, their alignment lost. -/
def State.tThaw (s : State) (p : Nat) : State :=
  s.each (List.range 48) fun x t =>
    if x.bit (rTmr_T_CFG t) 16 && x.fld (rTmr_T_CFG t) 12 4 = p && (x.timer t).run = .frozen
    then (x.tHold t .running).setBit (rTmr_T_STAT t) 9 true else x

/-! Make-up after DORMANT (R327) -/

/-- Where `n` ticks take a counter at `x` under CMP = `c`: its new value, the wraps it made, whether it passed CMP, and whether a ONE_SHOT
stopped there. `goal`: the count at which it first matches (R327, R330). -/
def tAdvance (mode x c goal n : Nat) : Nat × Nat × Bool × Bool :=
  let room := 2 ^ 32 - x
  if mode = 1 || (x + n < goal && x < goal) then
    ((x + n) % 2 ^ 32, (x + n) / 2 ^ 32, decide (goal ≤ x + n ∧ x < goal) || decide (goal + 2 ^ 32 ≤ x + n), false)
  else if x < goal then
    (if mode = 2 then ((x + n) % (c + 1), (x + n) / (c + 1), true, false) else (c, 0, true, true))
  else if n < room then (x + n, 0, false, false)
  else
    let r := n - room
    if mode = 2 then (r % (c + 1), 1 + r / (c + 1), decide (c < r), false)
    else if c ≤ r then (c, 1, true, true) else (r, 1, false, false)

/-- A timer advances by `n` of its own ticks with no trigger and no capture; answers the wraps it made. -/
def State.tMakeup (s : State) (t n : Nat) : State × Nat :=
  if (s.timer t).run ≠ .running then (s, 0)
  else
    let r := tAdvance (s.tMode t) (s.timer t).cnt (s.tCmp t) (s.tGoal t) n
    let s1 := if r.2.2.1 then s.setBit (rTmr_T_STAT t) 8 true else s
    (s1.modTimer t fun y => { y with
      cnt := r.1
      run := if r.2.2.2 then .done else y.run }, r.2.1)

/-- Every running timer advances by its ticks from `m0`, where DORMANT stopped it, or from its START boundary, to `m1`; chained ones by
their neighbour's wraps (R327). -/
def State.tMakeupAll (s : State) (m0 m1 : Nat) : State :=
  ((List.range 48).foldl (fun (acc : State × Nat) t =>
    let x := acc.1
    let from_ := max m0 (x.timer t).base
    let n := if m1 < from_ then 0 else if x.tChain t then acc.2 else m1 / 2 ^ x.tPsc t - from_ / 2 ^ x.tPsc t
    let r := x.tMakeup t n
    (r.1.modTimer t fun y => { y with base := max m1 y.base }, r.2)) (s, 0)).1

/-! Meridian (R319 to R325) -/

/-- SYNC_STAT.STATE: 0 FREE, 1 ACQUIRE, 2 LOCKED, 3 HOLDOVER, 4 MASTER. -/
def State.syncState (s : State) : Nat := s.fld rMer_SYNC_STAT 0 3

/-- Enter a state of R322. Only in LOCKED does a correction stay pending: in HOLDOVER Meridian runs free, and a MASTER has one only from a
higher level (R323). A device that follows no source shows LEVEL = 3, none (R341). -/
def State.setSync (s : State) (k : Nat) : State :=
  let s1 := s.modMer fun m => { m with
    okRun := 0
    offSince := none
    offHigh := false
    measured := false
    lastSync := s.now
    slew := if k = 2 then m.slew else 0 }
  (s1.setFld rMer_SYNC_STAT 0 3 k).when (k = 0 || k = 4) fun x => x.setFld rMer_SYNC_STAT 4 2 3

/-- SYNC_LIM in force, ns: the level's default, or the larger value the Almanac sets (R322). -/
def State.syncLim (s : State) : Nat :=
  max (s.fld rMer_SYNC_LIM 0 16) (match s.fld rMer_SYNC_STAT 4 2 with
    | 0 => 20
    | 1 => 50
    | _ => 1000)

/-- Is Meridian synchronised (R322)? -/
def State.synced (s : State) : Bool := s.syncState = 2 || s.syncState = 4

/-- Entry into OPERATE: timers with AUTOSTART are armed (R331); a pending DEGRADE takes the device to HAREBELL in the first
cycle (R462). R16's "partitions as configured" names no field that starts one and R429, R430 no start but a command's: no partition
starts here (log 116). -/
def State.enterOperate (s : State) : State :=
  let s1 := (s.setMode .operate).tAutostart.modLcs fun l => { l with proofFrom := if l.proofFrom = 0 then s.now + 1 else l.proofFrom }
  if s1.flt.degradePend then s1.enterHarebell ((List.range 1024).find? (fun n => s1.classOf n = 2 && decide (0 < (s1.fcnt n).total)) |>.getD 0) 1
  else s1

/-- SYNC ends: Meridian is synchronised, or the device is ring master, or no fabric is configured, and a verified Almanac is committed
(R16). -/
def State.tryOperate (s : State) : State :=
  if s.modeIs .sync && s.cfg.inForce && (s.synced || s.bit rFab_FAB_STAT 2 || s.rd rFab_CONF_MAP = 0) then s.enterOperate else s

/-- The values of a table of times, moved by `f`. -/
def moveTab (f : Nat → Nat) (t : Tab Nat) : Tab Nat := t.foldl (fun a e => Tab.set (fun _ => 0) a e.1 (f e.2)) t

/-- The times held as Meridian only to measure an interval move with a step by `d`, so that the interval goes on (log 147). -/
def State.moveTimes (s : State) (d : Int) : State :=
  let f (t : Nat) : Nat := ((t : Int) + d).toNat
  let s1 := (s.modSess .pcie fun x => { x with lastWr := f x.lastWr }).modSess .spi fun x => { x with lastWr := f x.lastWr }
  let s2 := (s1.modNgl fun n => { n with base := f n.base }).modVern fun v => { v with dayAt := f v.dayAt }
  let s3 := s2.modLcs fun l => { l with
    seeded := moveTab f l.seeded
    htFails := l.htFails.map f }
  let s4 := s3.modCfg fun c => { c with
    fails := c.fails.foldl (fun a e => Tab.set (fun _ => []) a e.1 (e.2.map f)) c.fails
    lockUntil := moveTab f c.lockUntil }
  s4.modFlt fun x => { x with
    inj := x.inj.foldl (fun a e => Tab.set (fun _ => Inj.reset) a e.1 { e.2 with
      armedUntil := f e.2.armedUntil
      hold := e.2.hold.map fun h => (h.1, h.2.1, f h.2.2) }) x.inj }

/-- Step Meridian by `d` ticks: in BOOT, SELFTEST and SYNC only (R324); counters keep their values (R325), and a timer that waits for its
START boundary waits for the first one after the step (log 148). -/
def State.merStep (s : State) (d : Int) : State :=
  if d ≠ 0 && (s.modeIs .boot || s.modeIs .selftest || s.modeIs .sync) then
    let s1 := s.each (List.range 48) fun x t => if (x.timer t).run = .running then x.tHold t .running else x
    let s2 := s1.setNow ((s.now : Int) + d).toNat
    let s3 := s2.each (List.range 48) fun x t =>
      if (x.timer t).run = .running then
        let waits := decide (s.now < (x.timer t).base)
        let y := x.modTimer t fun z => { z with base := if waits then x.tStartAt t x.now else x.now }
        if x.bit (rTmr_T_CFG t) 9 then y else y.setBit (rTmr_T_STAT t) 9 true
      else x
    let s4 := (s3.modMer fun m => { m with rearm := true }).moveTimes d
    ((s4.wr64 rMer_STEP_LAST_LO (ofSigned 64 d)).setBit rMer_SYNC_STAT 6 true).raise0 932
  else s

/-- The pending correction becomes `d` ticks; above 1,000 MER_SLEW_LIMIT begins (R323). -/
def State.setSlew (s : State) (d : Int) : State :=
  let big := decide (1000 < d.natAbs)
  let was := decide (1000 < s.mer.slew.natAbs)
  let s1 := (s.modMer fun m => { m with slew := d }).wrN rMer_SLEW_PEND (ofSigned 32 d)
  if big && !was then s1.raise0 933 else s1

/-- The first offset of an ACQUIRE: Meridian is stepped by it, where a step is allowed (R322, R324). -/
def State.merFirst (s : State) (off : Int) : State :=
  (s.merStep (-(off.tdiv 64))).modMer fun m => { m with measured := true }

/-- In LOCKED: how long |offset| has exceeded SYNC_LIM; the offset is corrected by slewing (R322, R323). -/
def State.merTrack (s : State) (off : Int) (ok : Bool) : State :=
  (s.modMer fun m => { m with
    offSince := if ok then none else some (m.offSince.getD s.now)
    offHigh := !ok && m.offHigh }).setSlew (-(off.tdiv 64))

/-- Superframes in a row whose offset was within SYNC_LIM, with this one (R322). -/
def State.okSuperframes (s : State) : Nat :=
  if s.now / 6250 = s.mer.lastSync / 6250 then max 1 s.mer.okRun
  else if s.now / 6250 = s.mer.lastSync / 6250 + 1 then s.mer.okRun + 1 else 1

/-- An offset from the source has been measured, in 1/64 ticks: positive where Meridian is ahead (R322 to R324). In FREE it shows a source
to be reachable, and is the first of the ACQUIRE that begins. -/
def State.merOffset (s : State) (off : Int) : State :=
  let ns : Int := (off * 10).tdiv 64
  let sat : Int := max (-(2 ^ 31)) (min ns (2 ^ 31 - 1))
  let s1 := (s.wrN rMer_OFFSET (ofSigned 32 sat)).wrN rMer_OFFSET_MAX (max (s.rd rMer_OFFSET_MAX).toNat sat.natAbs)
  let s2 := s1.modMer fun m => { m with lastSync := s.now }
  let ok := decide (ns.natAbs ≤ s.syncLim)
  match s.syncState with
  | 0 => (s2.setSync 1).merFirst off
  | 1 =>
    if !s.mer.measured then s2.merFirst off
    else
      let s3 := s2.modMer fun m => { m with okRun := if ok then s.okSuperframes else 0 }
      if 16 ≤ s3.mer.okRun then (s3.setSync 2).tryOperate else s3
  | 2 => s2.merTrack off ok
  | 3 => (s2.setSync 2).merTrack off ok
  | _ => s2.setSlew (-(off.tdiv 64))

/-- An adjustment cycle, Meridian mod 1,000 = 100, in LOCKED, and in MASTER steered by a higher level: a slip holds Meridian for one cycle,
a gain advances it by 2 (R323). -/
def execMeridianAdjust (s : State) : Host.Outcome State Fault Refusal :=
  let d := s.mer.slew
  done (
    if d = 0 || !s.synced || s.modeIs .dormant then s
    else
      let at_ := s.now + (1100 - s.now % 1000) % 1000
      let s1 := s.advanceTo at_
      if 0 < d then
        ((s1.setNow (at_ + 2)).setSlew (d - 1)).bumpFld rMer_ADJ_CNT 16 16
      else
        ((s1.setNow (at_ + 1)).setSlew (d + 1)).bumpFld rMer_ADJ_CNT 0 16)

/-- The two copies of Meridian differ, by `d` (R319). -/
def execMerDupMismatch (d : BitVec 64) (s : State) : Host.Outcome State Fault Refusal :=
  done (if d = 0 then s else (s.modMer fun m => { m with dup := m.now + d }).raise0 930)

/-- No sync for 4 superframes in LOCKED: HOLDOVER (R322). -/
def execSyncLossTimeout (s : State) : Host.Outcome State Fault Refusal :=
  done (if s.syncState = 2 && !s.modeIs .dormant then ((s.advanceTo (s.mer.lastSync + 4 * 6250)).setSync 3).raise0 928 else s)

/-- |offset| above SYNC_LIM for 1 ms in LOCKED (R322). -/
def execOffsetHighTimeout (s : State) : Host.Outcome State Fault Refusal :=
  done (match s.mer.offSince with
    | some t =>
      if s.syncState = 2 && !s.mer.offHigh && !s.modeIs .dormant then
        ((s.advanceTo (t + 100000)).modMer fun m => { m with offHigh := true }).raise0 929
      else s
    | none => s)

end Sys2Proof.Machine
end

