-- ==== Sys2Proof/Machine/Debug.lean ====
section
/-! DEFINITION. The MAP page's commands (R154 to R156, R159), requests to split and rejoin a pair (R185 to R188), and
debug (R189 to R192, R194). -/

namespace Sys2Proof.Machine

open Sys2Proof

/-! Live edits (R155, R159) -/

/-- Drop an ID from every pair's cache. -/
def State.invId (s : State) (id : Nat) : State :=
  s.each (List.range 4) fun x n => x.modPair n fun y => { y with cache := y.cache.filter (·.1 ≠ id) }

/-- Drop every entry of every cache (R154). -/
def State.flushCaches (s : State) : State := s.each (List.range 4) fun x n => x.modPair n fun y => { y with cache := [] }

/-- Image SRAM offset of the stored descriptor of an ID, where its level-1 entry is VALID. -/
def State.descAt (s : State) (id : Nat) : Option Nat :=
  let e := s.imgRd (l1At (id / 512))
  if l1Valid e && 0x30000 ≤ l1Ptr e && l1Ptr e ≤ 0xFF000 then some (l1Ptr e + 8 * (id % 512)) else none

/-- Does a new descriptor of an ID meet R147, R148 and the range of MAX_AGE? One of TYPE 0, which would unmap the ID, does not:
R155 does not say, and the edit is refused as a field error (log 141). -/
def State.descOk (s : State) (id : Nat) (d : Csw) : Bool :=
  let own := decide (id / 512 = s.dev.slot.toNat)
  let idx := id % 512
  natBits d.toNat 54 2 = 0 && 1 ≤ dMaxAge d && dInRange d && (match dType d with
    | 1 => own && dOffset d = idx
    | 2 => own && dOffset d = idx && (s.producer idx).isSome
    | 5 => own && 256 ≤ idx && (s.producer idx).isNone && ((List.range 16).filter (dPerm d)).length = 1
    | 6 => own && 256 ≤ idx && (s.producer idx).isNone
    | _ => true)

/-- Why a live edit is refused: DE_RESULT's code (R155, R159). Where several conditions hold, the order is 1, 6, 2, 3, 4 (log 139). -/
def State.editCode (s : State) (id : Nat) (d : Csw) : Option Nat :=
  let old := (s.descAt id).map s.imgRd
  if dSafe d || (match old with
    | some o => dSafe o
    | none => false) then some 1
  else if anyBelow 16 fun p => dPerm d p && s.ptSafe p then some 6
  else if old.isNone then some 2
  else if !s.descOk id d then some 3
  else if s.cfg.staging then some 4
  else none

/-- Is an edit in progress: accepted, and waiting for its change-log entry (R155, R449; log 89)? -/
def State.editBusy (s : State) : Bool := s.cfg.queue.any fun e => match e.2 with
  | .mapEdit .. => true
  | _ => false

/-- DE_RESULT. -/
def State.deResult (s : State) (code gen : Nat) : State := s.wrN rMap_DE_RESULT (code + 256 * gen)

/-- OP = WRITE (R155): accepted, it waits for its change-log entry (R449; log 89). A refusal outside the lifecycle and modes of R431 leaves
DE_RESULT (log 26). -/
def State.deWrite (s : State) (m : Master) (inv : Bool) : State :=
  let id := s.fld rMap_DE_ID 0 21
  let d0 : Csw := BitVec.ofNat 64 ((s.rd rMap_DE_LO).toNat + 2 ^ 32 * ((s.rd rMap_DE_HI).toNat % 2 ^ 24))
  let note (x : State) (code : Nat) : State := x.clogNote (x.clogRole m) 0 (masterNum m) code 0x60 (id % 65536) (natLe 8 d0.toNat)
  if !(s.lcProvDep && (s.modeIs .operate || s.modeIs .harebell)) then note (s.raise0 199) 7
  else
    let gen := match s.descAt id with
      | some a => dGen (s.imgRd a)
      | none => 0
    match if s.editBusy then some 5 else s.editCode id (setBits d0 46 8 0) with
    | some c => note ((s.raise0 199).deResult c gen) c
    | none => s.clogGuard (s.clogRole m) 0 (masterNum m) 0x60 (id % 65536) (natLe 8 d0.toNat) (.mapEdit id d0 inv)

/-- An accepted edit, its entry being in flash, is written in one cycle with GEN + 1 and its DCHK; what forbids it by now refuses it
(R155, R449). -/
def State.mapEdited (s : State) (id : Nat) (d0 : Csw) (inv : Bool) : State :=
  let gen := match s.descAt id with
    | some a => dGen (s.imgRd a)
    | none => 0
  match s.editCode id (setBits d0 46 8 0), s.descAt id with
  | none, some a =>
    let g := (gen + 1) % 256
    let s1 := s.imgWr a (dSeal (setBits d0 46 8 g) id)
    let s2 := (if inv then s1.invId id else s1).bumpFld rMap_EDIT_CNT 0 16
    s2.deResult 0 g
  | some c, _ => (s.raise0 199).deResult c gen
  | none, none => s

/-- OP = READ: the descriptor stored in image SRAM (R159). Where the ID has no level-2 page, GEN shows 0 (log 140). -/
def State.deRead (s : State) : State :=
  let id := s.fld rMap_DE_ID 0 21
  match s.descAt id with
  | some a =>
    let d := s.imgRd a
    ((s.wrN rMap_DE_LO d.toNat).wrN rMap_DE_HI (d.toNat / 2 ^ 32)).deResult 0 (dGen d)
  | none => s.deResult 2 0

/-- A write of DE_CMD. -/
def State.deCmd (s : State) (m : Master) (v : Word) : State :=
  match natBits v.toNat 0 2 with
  | 1 => s.deRead
  | 2 => s.deWrite m (natBit v.toNat 4)
  | _ => s.setFld rMap_DE_RESULT 0 3 3

def execMapDeWrite (m : Master) (inv : Bool) (s : State) : Host.Outcome State Fault Refusal :=
  done (s.regCmd m rMap_DE_CMD fun x => x.deCmd m (if inv then 0x12 else 2))
def execMapDeRead (m : Master) (s : State) : Host.Outcome State Fault Refusal :=
  done (s.regCmd m rMap_DE_CMD fun x => x.deCmd m 1)
def execMapDeReservedOp (m : Master) (three : Bool) (s : State) : Host.Outcome State Fault Refusal :=
  done (s.regCmd m rMap_DE_CMD fun x => x.deCmd m (if three then 3 else 0))

/-- A write of CQ_ID; the four results follow (R159). -/
def State.cqWrite (s : State) (v : Word) : State :=
  let id := natBits v.toNat 0 21
  (s.wrN rMap_CQ_ID id).each (List.range 4) fun x n =>
    x.wrN (rMap_CQ_PAIR n) (match (x.pair n).cache.find? (·.1 = id) with
      | some (_, d) => 1 + 256 * dGen d
      | none => 0)

def execMapCqQuery (m : Master) (v : BitVec 32) (s : State) : Host.Outcome State Fault Refusal :=
  done (s.regCmd m rMap_CQ_ID fun x => x.cqWrite v)
def execMapInvAll (m : Master) (s : State) : Host.Outcome State Fault Refusal :=
  done (s.regCmd m rMap_INV_ALL State.flushCaches)

/-! Split and rejoin (R185, R187) -/

/-- VALID entries of a pair whose partition has a property. -/
def State.anyEntry (s : State) (n : Nat) (f : Nat → Bool) : Bool := anyBelow 64 fun e => s.bit (rPair_SE_W0 n e) 4 && f e

/-- Is a split request refused (R185)? -/
def State.splitRefused (s : State) (n : Nat) : Bool :=
  s.anyEntry n (fun e => s.ptSafe (s.sePart n e) || s.bit (rPair_SE_W0 n e) 5) || s.cfg.staging

/-- Is a rejoin request refused (R185)? -/
def State.rejoinRefused (s : State) (n : Nat) : Bool :=
  s.anyEntry n (fun e => s.bit (rPart_PT_CFG (s.sePart n e)) 6) || s.cfg.staging

/-- A write of SPLIT_CTRL. -/
def State.splitCtrl (s : State) (n : Nat) (v : Word) : State :=
  let refuse (x : State) : State := (x.raise (96 + 24 * n + 17) 0 0).setBit (rPair_SPLIT_CTRL n) 4 true
  let s1 := if !natBit v.toNat 0 then s else if s.splitRefused n then refuse s
    else ((s.modPair n fun x => { x with splitReq := true }).setBit (rPair_SPLIT_CTRL n) 0 true).setBit (rPair_SPLIT_CTRL n) 4 false
  if !natBit v.toNat 1 then s1 else if s.rejoinRefused n then refuse s1
    else ((s1.modPair n fun x => { x with rejoinReq := true }).setBit (rPair_SPLIT_CTRL n) 1 true).setBit (rPair_SPLIT_CTRL n) 4 false

def execPairSplitReq (m : Master) (n : Fin 4) (s : State) : Host.Outcome State Fault Refusal :=
  done (s.cmdWrite m (rPair_SPLIT_CTRL n.val) (fun x => x.holdsAdmin m) fun x => x.splitCtrl n.val 1)
def execPairRejoinReq (m : Master) (n : Fin 4) (s : State) : Host.Outcome State Fault Refusal :=
  done (s.cmdWrite m (rPair_SPLIT_CTRL n.val) (fun x => x.holdsAdmin m) fun x => x.splitCtrl n.val 2)

/-- The checker core's program SRAM becomes a copy of the main core's, both banks. -/
def pgmCopy (n : Nat) (m : Mem) : Mem :=
  let a := 2 * n * 0x100000
  m.filter (fun e => decide (e.1 < a + 0x100000))
    ++ (m.filter fun e => decide (a ≤ e.1) && decide (e.1 < a + 0x100000)).map (fun e => (e.1 + 0x100000, e.2))
    ++ m.filter (fun e => decide (a + 0x200000 ≤ e.1))

/-- The copy of step 3 completes; verification begins at the next boundary (R187). -/
def execRejoinLoadDone (n : Fin 4) (s : State) : Host.Outcome State Fault Refusal :=
  done (if s.fld (rPair_SPLIT_CTRL n.val) 5 2 = 1 then
      (s.modMem fun m => { m with pgm := pgmCopy n.val m.pgm }).modPair n.val fun x => { x with loadDone := true }
    else s)

/-! Debug (R189 to R192) -/

/-- Does R431 permit debug of the pair? -/
def State.dbgAllowed (s : State) (n : Nat) : Bool :=
  let quiet := allBelow 16 fun p => !(s.ptSafe p && s.ptPair p = n) || s.ptQuiet p
  (s.lc = 1 || s.lc = 2 || s.lc = 3) && (s.modeIs .sync || s.modeIs .operate)
  && (if n = 0 then s.lc = 1 || quiet else s.lc ≠ 2 || quiet)

/-- Replay debug is left as PAIR_1..3 leave lockstep (R190). -/
def State.replayOver (s : State) (n : Nat) : State :=
  ((s.raise (96 + 24 * n + 19) 0 0).setFld (rPair_DBG_STAT n) 2 2 2).modPair n fun x => { x with replay := [], dbgPend := true }

/-- A debugger action in replay debug enters the queue; two cycles later the checker has applied those before it (R190). -/
def State.replayPush (s : State) (n : Nat) (a : DbgAct) : State :=
  if !s.bit (rPair_DBG_STAT n) 2 then s
  else
    let q := if (s.pair n).replayAt = s.now then (s.pair n).replay else []
    if q.length < 32 then s.modPair n fun x => { x with replay := q ++ [a], replayAt := s.now }
    else
      let s1 := s.replayOver n
      if (s.core (2 * n)).inSlot then s1 else s1.unpair n

/-- A write of DBG_CTRL sets DBG_EN: PAIR_0 enters replay debug, the others leave lockstep at the next slot boundary; a pair
that is split or offline goes to CMODE 4 as well (R189; log 153). -/
def State.dbgEnable (s : State) (m : Master) (n : Nat) : State :=
  let note (x : State) (r : Nat) : State := x.clogNote (x.clogRole m) 0 (masterNum m) r 0xB0 (0x021 + n) []
  if s.bit (rPair_DBG_CTRL n) 0 then s
  else if !s.dbgAllowed n then note s 1
  else
    let s1 := note (s.setBit (rPair_DBG_CTRL n) 0 true) 0
    if n = 0 then
      let s2 := s1.setBit (rPair_DBG_STAT n) 2 true
      let s3 := if s.cmode n = 0 then s2.setFld (rPair_PR_STAT n) 0 3 5 else s2
      if s.lc = 1 then s3
      else s3.each ((List.range 16).filter fun p => s.ptSafe p && s.ptPair p = n) fun x p => x.writeProduced p .fault
    else if (s.core (2 * n)).inSlot then s1.modPair n fun x => { x with dbgPend := true } else s1.unpair n

/-- Resume a halted pair; frozen timers continue (R194, R335). -/
def State.dbgResume (s : State) (n : Nat) : State :=
  if s.bit (rPair_DBG_STAT n) 0 then
    ((s.replayPush n .resume).setBit (rPair_DBG_STAT n) 0 false).tThaw (s.fld (rPair_DBG_STAT n) 4 4)
  else s

/-- Halt the pair under debug (R194, R335). -/
def State.dbgHalt (s : State) (n : Nat) (a : DbgAct) : State :=
  if s.bit (rPair_DBG_CTRL n) 0 && !s.bit (rPair_DBG_STAT n) 0 then
    let p := s.fld (rPair_PR_STAT n) 4 4
    ((((s.replayPush n a).setBit (rPair_DBG_STAT n) 0 true).setFld (rPair_DBG_STAT n) 4 4 p).tFreeze p)
  else s

/-- Clearing DBG_EN: replay debug ends in lockstep; an unpaired pair starts to rejoin at the next boundary (R189). -/
def State.dbgDisable (s : State) (n : Nat) : State :=
  if !s.bit (rPair_DBG_CTRL n) 0 then s
  else
    let s1 := (s.dbgResume n).setBit (rPair_DBG_CTRL n) 0 false
    if s1.bit (rPair_DBG_STAT n) 2 then
      let s2 := (s1.setBit (rPair_DBG_STAT n) 2 false).modPair n fun x => { x with replay := [] }
      if s2.cmode n = 5 then s2.setFld (rPair_PR_STAT n) 0 3 0 else s2
    else s1.modPair n fun x => { x with rejoinReq := true, dbgPend := false }

/-- The debugger lets one instruction run. -/
def State.dbgStep (s : State) (n : Nat) : State :=
  if s.bit (rPair_DBG_STAT n) 0 then (s.replayPush n .step).modPair n fun x => { x with stepOk := true } else s

/-- A debug request that reaches the cores through the Collimator: repeated samples, and at a third difference no request (R167, R168). -/
def State.dbgSampled (s : State) (n : Nat) (coll : Fin 4) (f : State → State) : State :=
  if coll.val = 3 then s.collimate n coll else f (s.collimate n coll)

/-- HALT, STEP and RESUME of a value of DBG_CTRL, in this order. Hardware clears each bit as it takes the request (log 128). -/
def State.dbgRequests (n : Nat) (v : Word) (s : State) : State :=
  let s1 := if natBit v.toNat 1 then s.dbgHalt n .halt else s
  let s2 := if natBit v.toNat 2 then s1.dbgStep n else s1
  if natBit v.toNat 3 then s2.dbgResume n else s2

/-- A write of DBG_CTRL: DBG_EN, then the requests, which come through the Collimator when PCIe writes them (R167). -/
def State.dbgCtrl (s : State) (m : Master) (n : Nat) (v : Word) (coll : Fin 4) : State :=
  let s1 := if natBit v.toNat 0 then s.dbgEnable m n else s.dbgDisable n
  if natBits v.toNat 1 3 = 0 then s1
  else if m = .pcie then s1.dbgSampled n coll (State.dbgRequests n v) else State.dbgRequests n v s1

/-- A request from the IEEE 1149.1 port on J5: the same debug lines, through the Collimator (R167, R194; log 97). -/
def State.dbgJ5 (s : State) (n : Nat) (v : Word) (coll : Fin 4) : State :=
  if s.bit (rPair_DBG_CTRL n) 0 then s.dbgSampled n coll (State.dbgRequests n v) else s

/-- DBG_CTRL admits ADMIN with expert privilege (R431). -/
def State.dbgCmd (s : State) (m : Master) (n : Nat) (f : State → State) : State :=
  s.expertCmd m (rPair_DBG_CTRL n) (fun x => x.holdsAdmin m) f

def execDbgEnable (m : Master) (n : Fin 4) (s : State) : Host.Outcome State Fault Refusal :=
  done (s.dbgCmd m n.val fun x => x.dbgCtrl m n.val 1 0)
def execDbgDisable (m : Master) (n : Fin 4) (s : State) : Host.Outcome State Fault Refusal :=
  done (s.dbgCmd m n.val fun x => x.dbgCtrl m n.val 0 0)

/-- HALT, STEP or RESUME, bit set in `v`: by a write of DBG_CTRL that leaves DBG_EN set, or from J5. -/
def State.dbgAsk (s : State) (q : DbgAsk) (n : Nat) (v : Word) : State :=
  if q.j5 then s.dbgJ5 n v q.coll else s.dbgCmd q.m n fun x => x.dbgCtrl q.m n (v ||| 1) q.coll

def execDbgHalt (q : DbgAsk) (n : Fin 4) (s : State) : Host.Outcome State Fault Refusal := done (s.dbgAsk q n.val 2)
def execDbgStep (q : DbgAsk) (n : Fin 4) (s : State) : Host.Outcome State Fault Refusal := done (s.dbgAsk q n.val 4)
def execDbgResume (q : DbgAsk) (n : Fin 4) (s : State) : Host.Outcome State Fault Refusal := done (s.dbgAsk q n.val 8)

/-- The main core of a running slot reaches an enabled breakpoint: the pair halts; with TRACE it is only recorded (R194). -/
def execBreakpointHit (n : Fin 4) (i : Fin 4) (s : State) : Host.Outcome State Fault Refusal :=
  let a := rPair_DBG_BP n.val i.val
  let c := s.core (2 * n.val)
  done (
    if s.bit (rPair_DBG_CTRL n.val) 0 && s.bit a 31 && c.inSlot && !s.bit (rPair_DBG_STAT n.val) 0
      && s.fld a 0 17 = c.pc && s.fld a 17 1 = s.actBank c.part && s.fld a 18 4 = c.part then
      if s.bit a 30 then s.replayPush n.val .breakpoint else s.dbgHalt n.val .breakpoint
    else s)

/-- A debugger writes the selected register while HALTED: 64 raw bits of a C register (R192, R194). The halves written stay as the
values last applied (R33); `low`: the low half is one of them. -/
def State.dbgRegWrite (s0 : State) (n v : Nat) (low : Bool) : State :=
  let s := if s0.bit (rPair_DBG_STAT n) 0 then
    (s0.when low fun x => x.wrN (rPair_DBG_DATA_LO n) v).wrN (rPair_DBG_DATA_HI n) (v / 2 ^ 32) else s0
  if !s.bit (rPair_DBG_STAT n) 0 then s
  else
    let u := 2 * n + (if s.cmode n = 4 && s.bit (rPair_DBG_SEL n) 8 then 1 else 0)
    let k := s.fld (rPair_DBG_SEL n) 0 6
    let s1 := s.replayPush n .regWrite
    if k < 32 then s1.modCore u fun c => { c with ctx := { c.ctx with c := Tab.set (fun _ => (0 : Csw)) c.ctx.c k (BitVec.ofNat 64 v) } }
    else if k < 48 then s1.writeP u (k - 32) (BitVec.ofNat 32 v)
    else if k = 48 then s1.modCore u fun c => { c with pc := v % 2 ^ 17 }
    else if k = 49 then s1.modCore u fun c => { c with ctx := { c.ctx with flags := BitVec.ofNat 32 v } }
    else s1

def execDbgRegWrite (m : Master) (n : Fin 4) (v : BitVec 64) (s : State) : Host.Outcome State Fault Refusal :=
  done (s.expertCmd m (rPair_DBG_DATA_HI n.val) (fun x => x.holdsAdmin m) fun x => x.dbgRegWrite n.val v.toNat true)

end Sys2Proof.Machine
end

