-- ==== Sys2Proof/Machine/SelfTest.lean ====
section
/-! DEFINITION. Random numbers (R418 to R422), OTP burns (R409), manual BIST (R414) and the rotating proof-test slices
(R415 to R417). -/

namespace Sys2Proof.Machine

open Sys2Proof

/-! Random numbers -/

def State.rngReady (s : State) : Bool := s.bit rRng_RNG_STAT 0

/-- A draw of a DRBG instance: 0 internal, 1 host (R418). -/
def State.rngDraw (s : State) (i : Nat) : State × BitVec 128 :=
  (s.modLcs fun l => { l with draws := l.draws + 1, reqs := Tab.modify (fun _ => 0) l.reqs i (· + 1) }, Config.drbg s.lcs.draws)

/-- The host instance fills RNG_DATA (R422). -/
def State.rngFill (s : State) : State :=
  let (s1, v) := s.rngDraw 1
  s1.wr rRng_RNG_DATA (v.setWidth 32)

/-- An early nonce for a requester's page (R420): the first 16 bytes of SHA-256 over DEV_ID, BOOT_CNT, Meridian and the page
number. -/
def State.earlyNonce (s : State) (pg : Nat) : BitVec 128 :=
  (Config.sha256 (natLe 8 (s.rd64 rOtp_DEV_ID_LO) ++ natLe 4 (s.rd rLcs_BOOT_CNT).toNat ++ natLe 8 s.now ++ natLe 2 pg)).extractLsb' 128 128

/-- A nonce: a draw of the internal instance, while it is not ready an early nonce; none where neither can be had (R420). -/
def State.nonce (s : State) (pg : Nat) : State × Option (BitVec 128) :=
  if s.rngReady then
    let r := s.rngDraw 0
    (r.1, some r.2)
  else if s.lcs.nonceOk then (s.setBit rRng_RNG_STAT 3 true, some (s.earlyNonce pg))
  else (s, none)

/-- A new service challenge (R437); none is shown as zero. -/
def State.newSvcChal (s : State) : State :=
  let r := s.nonce 0x07C
  let c := r.2.getD 0
  (r.1.modCfg fun x => { x with svcChal := c }).each (List.range 4) fun x i => x.wrN (rCfg_SVC_CHAL i) (natBits c.toNat (32 * i) 32)

/-- The start-up tests pass: READY (R419), both instances seeded (R418); after the third failure within 1 h not before the next start-up (R421). -/
def execRngReady (s : State) : Host.Outcome State Fault Refusal :=
  done (if s.rngReady || s.bit rRng_RNG_STAT 2 || s.modeIs .dormant then s
    else
      let s0 := s.modLcs fun l => { l with
        reqs := []
        seeded := Tab.set (fun _ => 0) (Tab.set (fun _ => 0) l.seeded 0 s.now) 1 s.now }
      let s1 := ((s0.setBit rRng_RNG_STAT 0 true).setBit rRng_RNG_STAT 1 false).rngFill
      if s.cfg.svcChal = 0 then s1.newSvcChal else s1)

/-- A health test fails: READY clears, what was buffered is discarded (R421). -/
def execRngHealth (s : State) : Host.Outcome State Fault Refusal :=
  let fs := (s.now :: s.lcs.htFails).filter fun t => decide (s.now < t + 360000000000)
  let s1 := ((s.setFld rRng_RNG_STAT 0 2 2).wr rRng_RNG_DATA 0).bump rRng_HT_FAIL_CNT
  let s2 := (s1.modLcs fun l => { l with htFails := fs }).raise0 48
  done (if 3 ≤ fs.length && !s.bit rRng_RNG_STAT 2 then (s2.setBit rRng_RNG_STAT 2 true).raise0 49 else s2)

/-- An instance is reseeded after 2^20 requests or 1 s (R418). -/
def execRngReseed (host : Bool) (s : State) : Host.Outcome State Fault Refusal :=
  let i := b2n host
  done (
    if !s.rngReady then s
    else
      let due := Tab.get (fun _ => 0) s.lcs.seeded i + 100000000
      let s1 := if 1048576 ≤ Tab.get (fun _ => 0) s.lcs.reqs i then s else s.advanceTo due
      (s1.modLcs fun l => { l with
        reqs := Tab.set (fun _ => 0) l.reqs i 0
        seeded := Tab.set (fun _ => 0) l.seeded i s1.now }).bump rRng_RESEED_CNT)

/-- A read of RNG_DATA: 32 random bits, refilled in the same cycle; zero while READY = 0 (R422). -/
def State.rngRead (s : State) : State × Word :=
  if s.rngReady then (s.rngFill, s.rd rRng_RNG_DATA) else (s, 0)

def execRngDataRead (m : Master) (s : State) : Host.Outcome State Fault Refusal :=
  let (s1, v) := (s.wakePage 0x004).rngRead
  done (s1.emit (.rdata m (v.setWidth 64)))

/-! OTP (R404, R409) -/

/-- A copy of the OTP as it stands: the word burned, or none. -/
def otpAt (t : Tab (Option Word)) (w : Nat) : Option Word := Tab.get (fun _ => none) t w

/-- The established value of a word; an unburned one reads 0. -/
def State.otpWord (s : State) (w : Nat) : Word := (otpAt s.lcs.est w).getD 0

/-- Is the word established and burned? -/
def State.otpHas (s : State) (w : Nat) : Bool := (otpAt s.lcs.est w).isSome

/-- Write a value into both copies of a word; it is then the word's value. -/
def State.otpSet (s : State) (w : Nat) (v : Word) : State :=
  s.modLcs fun l => { l with
    otp0 := Tab.set (fun _ => none) l.otp0 w (some v)
    otp1 := Tab.set (fun _ => none) l.otp1 w (some v)
    est := Tab.set (fun _ => none) l.est w (some v)
    weak := l.weak.filter (· ≠ w)
    weakHi := l.weakHi.filter (· ≠ w) }

/-- The registers of the OTP page that show words (R426). -/
def State.otpShow (s : State) : State :=
  let s1 := (s.wr rOtp_DEV_ID_LO (s.otpWord 0)).wr rOtp_DEV_ID_HI (s.otpWord 1)
  let s2 := s1.wrN rOtp_LC_RAW (((otpAt s.lcs.otp0 2).getD 0).toNat % 65536
    + 65536 * (((otpAt s.lcs.otp1 2).getD 0).toNat % 65536))
  let s3 := s2.wrN rOtp_BL_CEIL ((s.otpWord 3).toNat % 256)
  let s4 := s3.each (List.range 8) fun x i => x.wr (rOtp_ROOT_HASH i) (s.otpWord (12 + i))
  let s5 := s4.wrN rOtp_WEAK_ADDR (match s.lcs.weak with
    | w :: _ => w + 256 * b2n (s.lcs.weakHi.contains w) + 512
    | [] => 0)
  let s6 := s5.setFld rOtp_OTP_STAT 8 8 s.lcs.weak.length
  s6.setBit rOtp_OTP_STAT 1 (!s.lcs.weak.isEmpty)

/-- BURN_STAT: done, or refused with its reason. -/
def State.burnStat (s : State) (reason : Nat) : State := s.wrN rOtp_BURN_STAT (if reason = 0 then 2 else 3 + 16 * reason)

/-- May BURN name the word in the lifecycle state? ROOT_HASH in PROVISIONING; trims also in BLANK, where R404 burns them first;
DEV_ID, word 3 and the seeds in BLANK; LC only by LC_CMD. -/
def burnReason (lc w : Nat) : Nat :=
  if 28 ≤ w || w = 2 then 3
  else if 12 ≤ w && w < 20 then (if lc = 1 then 0 else 1)
  else if 20 ≤ w then (if lc ≤ 1 then 0 else 1)
  else if lc = 0 then 0 else 1

/-- A write of BURN_CMD; `ok`: the burn verifies at the tight threshold. -/
def State.burnCmd (s : State) (m : Master) (v : Word) (ok : Bool) : State :=
  let w := s.fld rOtp_BURN_ADDR 0 8
  let d := s.rd rOtp_BURN_DATA
  let note (x : State) (r : Nat) : State := (x.burnStat r).clogNote (x.clogRole m) 0 (masterNum m) r 0x90 w []
  if natBit v.toNat 0 then
    let r := burnReason s.lc w
    if r ≠ 0 then note s r
    else if s.otpWord w &&& ~~~ d ≠ 0 then note s 2
    else if !ok then note (s.raise0 35) 4
    else note ((s.otpSet w d).otpShow) 0
  else if natBit v.toNat 1 then
    if s.lc ≠ 1 then note s 1
    else if !s.lcs.weak.contains w then note s 3
    else if !ok then note (s.raise0 35) 4
    else note ((s.otpSet w (s.otpWord w)).otpShow) 0
  else s

/-- BURN_CMD admits ADMIN with expert privilege, in any mode but BOOT (R409, R431). -/
def State.burnWrite (s : State) (m : Master) (v : Word) (ok : Bool) : State :=
  if s.modeIs .boot then s
  else if !s.holdsAdmin m then s.expertCmd m rOtp_BURN_CMD (fun _ => false) id |>.when (!s.modeIs .dormant) fun x => x.burnStat 5
  else s.expertCmd m rOtp_BURN_CMD (fun x => x.holdsAdmin m) fun x => x.burnCmd m v ok

def execOtpBurn (m : Master) (ok : Bool) (s : State) : Host.Outcome State Fault Refusal := done (s.burnWrite m 1 ok)
def execOtpReburn (m : Master) (ok : Bool) (s : State) : Host.Outcome State Fault Refusal := done (s.burnWrite m 2 ok)

/-! Manual BIST (R414) -/

/-- A run on the block of MAN_SEL: pass or fail, and HALTED whatever its result. -/
def State.manBist (s : State) (pass : Bool) : State :=
  if (s.lc = 0 || s.lc = 1 || s.lc = 3) && (s.modeIs .sync || s.modeIs .halted) && (pageBlock (s.fld rLcs_MAN_SEL 0 9)).isSome then
    (s.wrN rLcs_MAN_STAT (if pass then 2 else 4)).setMode .halted
  else s.wrN rLcs_MAN_STAT 8

/-- Who may start a run: ADMIN with expert privilege; in BLANK the SPI master without a session, and no other (R414). -/
def State.manCmd (s : State) (m : Master) (pass : Bool) : State :=
  if s.lc = 0 then
    if s.modeIs .dormant then s
    else
      let s1 := s.noteWrite m rLcs_MAN_CMD
      if m = .spi && (s.sess m).role = 0 then s1.manBist pass else (s1.denied m rLcs_MAN_CMD).wrN rLcs_MAN_STAT 8
  else s.expertCmd m rLcs_MAN_CMD (fun x => x.holdsAdmin m) fun x => x.manBist pass

def execManBistLogic (m : Master) (pass : Bool) (s : State) : Host.Outcome State Fault Refusal := done (s.manCmd m pass)
def execManBistMemory (m : Master) (pass : Bool) (s : State) : Host.Outcome State Fault Refusal := done (s.manCmd m pass)

/-! Proof-test slices (R415 to R417) -/

/-- Ticks from now to the pair's next START, looking to the end of the next minor frame. -/
def State.nextStart (s : State) (n : Nat) : Nat :=
  let off := s.now % 6250
  let nxt := (s.sf + 1) % 2 ^ s.mfLog2
  (List.range 64).foldl (fun best e =>
    let st := s.seStart n e
    let a := if s.seRuns n e && off ≤ st then min best (st - off) else best
    if s.seValid n e && nxt % 2 ^ s.sePer n e = s.sePhase n e then min a (6250 - off + st) else a) 12500

/-- May a sub-slice run on the unit now (R415, R416)? -/
def State.sliceOk (s : State) (u : Nat) : Bool :=
  (s.modeIs .operate || s.modeIs .harebell) && s.lcProvDep && !s.bit rLcs_PROOF_STAT (16 + u)
  && (if u < 4 then
      (s.cmode u = 0 || (s.cmode u = 6 && !s.anyEntry u (fun _ => true) && !s.flt.pairOff.getLsbD u))
      && !(s.core (2 * u)).inSlot && 3000 ≤ s.nextStart u
    else s.lcs.rcu ≠ u - 4)

/-- A failed pass takes the unit out of service (R417); with both recode units out RECODE_BOTH trips (R457). -/
def State.proofFail (s : State) (u : Nat) : State :=
  let s1 := ((s.raise 42 0 u).setBit rLcs_PROOF_STAT (16 + u) true).setBit (rLcs_PROOF_AGE u) 31 true
  if u < 4 then s1.modPair u fun x => { x with offlinePend := true }
  else
    let s2 := s1.modLcs fun l => { l with rcuPassed := false }
    if s1.bit rLcs_PROOF_STAT 20 && s1.bit rLcs_PROOF_STAT 21 then s2.critical 13 0 else s2

/-- A sub-slice of a pair, or a pass of a recode unit, ends; `pass`: the pass it completes compares with its signature. -/
def State.proofSlice (s : State) (u : Nat) (pass : Bool) : State :=
  if !s.sliceOk u then s
  else
    let k := Tab.get (fun _ => 0) s.lcs.slices u + 1
    let s1 := if u < 4 then ((s.modPair u fun x => { x with cache := [] }).modCore (2 * u) fun _ => CoreSt.reset).modCore (2 * u + 1) fun _ =>
        CoreSt.reset
      else s
    let ends := decide (4 ≤ u) || decide (160 ≤ k)
    let s2 := s1.modLcs fun l => { l with slices := Tab.set (fun _ => 0) l.slices u (if ends then 0 else k) }
    let s3 := ((s2.setFld rLcs_PROOF_STAT 0 3 u).setBit rLcs_PROOF_STAT 3 (!ends)).setFld rLcs_PROOF_STAT 8 8 (if ends then 0 else k)
    if !ends then s3
    else if !pass then s3.proofFail u
    else s3.modLcs fun l => { l with
      lastPass := Tab.set (fun _ => 0) l.lastPass u (s.now + 1)
      rcuPassed := l.rcuPassed || decide (4 ≤ u) }

def execProofSubslice (u : Fin 6) (pass : Bool) (s : State) : Host.Outcome State Fault Refusal := done (s.proofSlice u.val pass)

/-- The end of the 24 h in which a unit has to pass: from its last passing pass, else from the first OPERATE (R417). -/
def State.starveAt (s : State) (u : Nat) : Nat := max (Tab.get (fun _ => 0) s.lcs.lastPass u) s.lcs.proofFrom - 1 + 8640000000000

/-- No passing pass within 24 h (R417): once for each such 24 h, and not of a unit out of service. -/
def execProofStarved (u : Fin 6) (s : State) : Host.Outcome State Fault Refusal :=
  let at_ := s.starveAt u.val
  done (if s.lcs.proofFrom = 0 || s.modeIs .dormant || s.bit rLcs_PROOF_STAT (16 + u.val) || Tab.get (fun _ => 0) s.lcs.starved u.val = at_ then s
    else ((s.advanceTo at_).modLcs fun l => { l with starved := Tab.set (fun _ => 0) l.starved u.val at_ }).raise 43 0 u.val)

end Sys2Proof.Machine
end

