-- ==== Sys2Proof/Machine/Session.lean ====
section
/-! DEFINITION. Sessions and passwords (R433 to R436), partition commands (R429, R430), FN_RESET (R207, R438) and
forces (R432), on the CFG page (R451). -/

namespace Sys2Proof.Machine

open Sys2Proof

/-- A CFG register of the banked range 0x080 to 0x10C, as master `m` sees it (R433, R451): the SPI master's bank is held
0x1000_0000 above the page. -/
def bk (m : Master) (a : Nat) : Nat :=
  match m with
  | .pcie => a
  | .spi => a + 0x10000000

/-- Is a BAR0 offset in the banked range? -/
def isBanked (a : Nat) : Bool := rCfg_SESS_REQ ≤ a && a ≤ rCfg_FRC_SEL

/-! Sessions (R433 to R435) -/

/-- Verifier of a role: key 16·role + partition for OWNER, 16·role otherwise. -/
def roleKey (role part : Nat) : Nat := 16 * role + (if role = 3 then part else 0)
def State.roleRec (s : State) (role part : Nat) : RoleRec := Tab.get (fun _ => RoleRec.reset) s.cfg.roles (roleKey role part)

def State.reqRole (s : State) (m : Master) : Nat := s.fld (bk m rCfg_SESS_REQ) 0 2
def State.reqPart (s : State) (m : Master) : Nat := s.fld (bk m rCfg_SESS_REQ) 4 4
def State.reqExpert (s : State) (m : Master) : Bool := s.bit (bk m rCfg_SESS_REQ) 8

/-- SESS_STAT: OPEN and the result of the last command. -/
def State.sessStat (s : State) (m : Master) (code : Nat) : State :=
  s.wrN (bk m rCfg_SESS_STAT) (b2n ((s.sess m).role ≠ 0) + 2 * code)

/-- A write of SESS_REQ: ROLE_ITER and ROLE_SALT show the requested role's record. -/
def State.sessReq (s : State) (m : Master) (v : Word) : State :=
  let s1 := s.wrN (bk m rCfg_SESS_REQ) (natBits v.toNat 0 2 + 16 * natBits v.toNat 4 4 + 256 * natBits v.toNat 8 1)
  let r := s1.roleRec (s1.reqRole m) (s1.reqPart m)
  (s1.wrN (bk m rCfg_ROLE_ITER) r.iter).each (List.range 4) fun x i =>
    x.wrN (bk m (rCfg_ROLE_SALT i)) (natBits r.salt.toNat (32 * i) 32)

/-- NEW_CHAL: a challenge of the internal RNG instance, refused while it is not ready (R434). -/
def State.newChal (s : State) (m : Master) : State :=
  if !s.rngReady then s.sessStat m 3
  else
    let (s1, c) := s.rngDraw 0
    let s2 := (s1.modSess m fun x => { x with chal := some c, chalUsed := false }).sessStat m 0
    s2.each (List.range 4) fun x i => x.wrN (bk m (rCfg_SESS_CHAL i)) (natBits c.toNat (32 * i) 32)

def execSessionNewChal (m : Master) (s : State) : Host.Outcome State Fault Refusal :=
  done (s.freeWrite m rCfg_SESS_CMD fun x => x.newChal m)

/-- The response the device expects: the first 16 bytes of HMAC-SHA-256(V, SESS_CHAL ‖ DEV_ID ‖ master ‖ role ‖ partition), as a
number with byte 0 least significant, as SESS_RESP_0..3 hold it (R434). -/
def State.expectedResp (s : State) (m : Master) (c : BitVec 128) : Nat :=
  let role := s.reqRole m
  let part := s.reqPart m
  let msg := natLe 16 c.toNat ++ natLe 8 (s.rd64 rOtp_DEV_ID_LO) ++ natLe 1 (masterNum m) ++ natLe 1 role ++ natLe 1 part
  leNat ((hashBytes (Config.hmacSha256 (natLe 32 (s.roleRec role part).v.toNat) msg)).take 16)

/-- The response the master wrote. -/
def State.givenResp (s : State) (m : Master) : Nat :=
  (List.range 4).foldl (fun acc i => acc + 2 ^ (32 * i) * (s.rd (bk m (rCfg_SESS_RESP i))).toNat) 0

/-- Failed OPENs of a role by a master, and the lock-out they bring: key 64·master + 16·role + partition (R435). -/
def State.failKey (s : State) (m : Master) : Nat := 64 * masterNum m + roleKey (s.reqRole m) (s.reqPart m)

/-- Count a failed OPEN: SESSION_FAIL; five within 10 min lock the role out for 10 min (R435). -/
def State.sessFail (s : State) (m : Master) : State :=
  let k := s.failKey m
  let fs := (s.now :: Tab.get (fun _ => ([] : List Nat)) s.cfg.fails k).filter fun t => decide (s.now < t + 60000000000)
  let s1 := s.modCfg fun c => { c with
    fails := Tab.set (fun _ => []) c.fails k (if 5 ≤ fs.length then [] else fs)
    lockUntil := if 5 ≤ fs.length then Tab.set (fun _ => 0) c.lockUntil k (s.now + 60000000000) else c.lockUntil }
  ((s1.raise0 955).sessStat m 1).clogNote (s.reqRole m) (s.reqPart m) (masterNum m) 1 0x02 0 []

/-- OPEN (R434, R435). Each refusal is logged (R449). A challenge serves one. A new session takes the place of the master's present one. With
R407's defaults in force every session is refused; in DORMANT none opens, the RNG not being ready (R514). -/
def State.sessOpen (s : State) (m : Master) : State :=
  let role := s.reqRole m
  let part := s.reqPart m
  let r := s.roleRec role part
  let s1 := s.modSess m fun x => { x with chal := none }
  let no (code : Nat) : State := (s1.sessStat m code).clogNote role part (masterNum m) code 0x02 0 []
  if role = 0 || !r.present || s.bit rOtp_OTP_STAT 4 then no 4
  else if s.now < Tab.get (fun _ => 0) s.cfg.lockUntil (s.failKey m) then no 2
  else if s.modeIs .dormant then no 3
  else match (s.sess m).chal.filter fun _ => !(s.sess m).chalUsed with
    | none => if s.rngReady then s1.sessFail m else no 3
    | some c =>
      if s.givenResp m = s.expectedResp m c then
        let s2 := s1.endSession m
        let s3 := (s2.modSess m fun x => { x with
          role := role
          part := if role = 3 then part else 0
          expert := s.reqExpert m && r.expertOk
          lastWr := s.now
          chal := some c
          chalUsed := true }).showPriv m
        let s4 := (s3.sessStat m 0).opEvent 1074 none (masterNum m + 256 * role)
        s4.clogNote role (if role = 3 then part else 0) (masterNum m) 0 0x01 0 []
      else s1.sessFail m

def execSessionOpen (m : Master) (s : State) : Host.Outcome State Fault Refusal :=
  done (s.freeWrite m rCfg_SESS_CMD fun x => x.sessOpen m)

/-- CLOSE (R435). -/
def State.sessClose (s : State) (m : Master) : State := (s.endSession m).sessStat m 0

def execSessionClose (m : Master) (s : State) : Host.Outcome State Fault Refusal :=
  done (s.freeWrite m rCfg_SESS_CMD fun x => x.sessClose m)

/-- 900 s without a write by the master (R435); idle timers do not run in DORMANT (R514). -/
def execSessionTimeout (m : Master) (s : State) : Host.Outcome State Fault Refusal :=
  done (if (s.sess m).role = 0 || s.modeIs .dormant then s
    else ((s.advanceTo ((s.sess m).lastWr + 90000000000)).endSession m).sessStat m 0)

/-- Word `i` of PW_DATA as the master wrote it. -/
def State.pwData (s : State) (m : Master) (lo n : Nat) : Nat :=
  (List.range n).foldl (fun acc i => acc + 2 ^ (32 * i) * (s.rd (bk m (rCfg_PW_DATA (lo + i)))).toNat) 0

/-- PW_CHANGE within a session of the same role, or of ADMIN: SALT, ITER and the masked V (R436); it waits for its change-log
entry (R449). Its role is the one of SESS_REQ. -/
def State.pwChange (s : State) (m : Master) : State :=
  let x := s.sess m
  let role := s.reqRole m
  let part := if role = 3 then s.reqPart m else 0
  let iter := s.pwData m 4 1
  let no (code : Nat) : State := (s.sessStat m code).clogNote x.role part (masterNum m) code 0x03 role []
  if role = 0 || !(s.roleRec role part).present then no 4
  else if !(x.role = 2 || (x.role = role && x.part = part)) then no 1
  else if iter < 10000 || 1000000 < iter then no 1
  else match x.chal with
    | none => no 1
    | some c =>
      let mask := leNat (hashBytes (Config.hmacSha256 (natLe 32 (s.roleRec x.role x.part).v.toNat) (natLe 16 c.toNat ++ [0x50, 0x57])))
      let v : BitVec 256 := BitVec.ofNat 256 (s.pwData m 5 8) ^^^ BitVec.ofNat 256 mask
      (s.sessStat m 0).clogGuard x.role part (masterNum m) 0x03 role []
        (.pwChange role part (BitVec.ofNat 128 (s.pwData m 0 4)) iter v)

def execPwChange (m : Master) (s : State) : Host.Outcome State Fault Refusal :=
  done (s.freeWrite m rCfg_SESS_CMD fun x => x.pwChange m)

/-- A write of SESS_CMD. -/
def State.sessCmd (s : State) (m : Master) (v : Word) : State :=
  let b i := natBit v.toNat i
  let s1 := if b 3 then s.newChal m else s
  let s2 := if b 0 then s1.sessOpen m else s1
  let s3 := if b 2 then s2.pwChange m else s2
  if b 1 then s3.sessClose m else s3

/-! Partition commands (R429, R430) -/

/-- The mode a command leads to, by R429's rows. -/
def partNext (mode : Nat) (c : PartCmd) : Option Nat :=
  match mode, c with
  | 0, .start => some 1
  | 0, .maint => some 2
  | 1, .stop => some 0
  | 1, .maint => some 2
  | 2, .start => some 1
  | 2, .stop => some 0
  | 3, .start => some 1
  | 3, .stop => some 0
  | 4, .reset => some 0
  | _, _ => none

/-- PART_CMD codes (R451). -/
def PartCmd.code : PartCmd → Nat
  | .start => 1 | .stop => 2 | .maint => 3 | .reset => 4

def partCmdOf : Nat → Option PartCmd
  | 1 => some .start | 2 => some .stop | 3 => some .maint | 4 => some .reset | _ => none

/-- PART_CMD_RES of a master. -/
def State.partRes (s : State) (m : Master) (p code res : Nat) : State :=
  s.wrN (bk m rCfg_PART_CMD_RES) (p + 16 * code + 256 * res)

/-- Every FN_REACT_WC_n at or below its FN_REACT_LIM_n (R429)? -/
def State.reactOk (s : State) (p : Nat) : Bool :=
  allBelow 32 fun i => s.fld (rPart_FN_REACT_WC p i) 0 24 ≤ s.fld (rPart_FN_REACT_LIM p i) 0 24

/-- Why a command is refused: 2 mode, 5 limit (R430, R451). The limit binds a START from STOP, the row that names it; START is also
refused from a member's yes on (R445), and from STOP for a partition whose program has failed (R83; log 156). -/
def State.partRefuse (s : State) (p : Nat) (c : PartCmd) : Option Nat :=
  if !s.lcProvDep then some 2
  else if !(s.modeIs .operate || (s.modeIs .harebell && s.ptEssential p)) then some 2
  else match partNext (s.ptMode p) c with
    | none => some 2
    | some k =>
      if c = .start && s.ptMode p = 0 && !s.reactOk p then some 5
      else if c = .start && s.cfg.yesAt.isSome then some 2
      else if s.ptMode p = 0 && k ≠ 0 && (s.part p).pgmBad then some 2
      else none

/-- A waiting command of the partition gives way to a later one (R22; log 144). -/
def State.partGiveWay (s : State) (p : Nat) : State :=
  match (s.part p).cmd with
  | some (c, m, _) => s.partRes m p (PartCmd.code c) 4
  | none => s

/-- A write of PART_CMD by master `m`: accepted, it waits for the superframe boundary (R430). -/
def State.partCmd (s : State) (m : Master) (p : Nat) (c : PartCmd) : State :=
  let note (x : State) (r : Nat) : State := x.clogNote (x.clogRole m) p (masterNum m) r 0x20 (PartCmd.code c) []
  match s.partRefuse p c with
  | some r => note (s.partRes m p (PartCmd.code c) r) r
  | none => note (((s.partGiveWay p).modPart p fun x => { x with cmd := some (c, m, s.ptMode p) }).partRes m p (PartCmd.code c) 1) 0

/-- Write PART_CMD with R34's rule for the CFG command registers. A write by another role reads 3 in PART_CMD_RES. -/
def State.partWrite (s : State) (m : Master) (v : Word) : State :=
  let p := natBits v.toNat 0 4
  let code := natBits v.toNat 4 4
  let ok (x : State) : Bool := x.holdsMA m || x.holdsOwner m p
  let no (r : Nat) (x : State) : State := (x.partRes m p code r).clogNote (x.clogRole m) p (masterNum m) r 0x20 code []
  let s1 := s.cmdWrite m rCfg_PART_CMD ok fun x => match partCmdOf code with
    | some c => x.partCmd m p c
    | none => no 2 x
  if ok s then s1 else no 3 s1

def execPartStart (m : Master) (p : Fin 16) (s : State) : Host.Outcome State Fault Refusal :=
  done (s.partWrite m (BitVec.ofNat 32 (p.val + 0x10)))
def execPartStop (m : Master) (p : Fin 16) (s : State) : Host.Outcome State Fault Refusal :=
  done (s.partWrite m (BitVec.ofNat 32 (p.val + 0x20)))
def execPartMaint (m : Master) (p : Fin 16) (s : State) : Host.Outcome State Fault Refusal :=
  done (s.partWrite m (BitVec.ofNat 32 (p.val + 0x30)))
def execPartReset (m : Master) (p : Fin 16) (s : State) : Host.Outcome State Fault Refusal :=
  done (s.partWrite m (BitVec.ofNat 32 (p.val + 0x40)))

/-- Apply a partition's accepted command, at a superframe boundary, and see whether its imports are fresh; where a trap or a change of
device mode has altered the partition's mode since, or R430 would no longer accept it, it is discarded: SUPERSEDED (R430; log 144). -/
def State.applyPartCmd (s : State) (p : Nat) : State :=
  match (s.part p).cmd with
  | none => s
  | some (c, m, mode) =>
    let s1 := s.modPart p fun x => { x with cmd := none }
    if s.ptMode p ≠ mode || (s.partRefuse p c).isSome then s1.partRes m p (PartCmd.code c) 4
    else match partNext mode c with
      | some k => ((s1.setPartMode p k).markFresh p).partRes m p (PartCmd.code c) 0
      | none => s1

/-- The superframe boundary applies partition p's command. -/
def execPartCmdApply (p : Fin 16) (s : State) : Host.Outcome State Fault Refusal :=
  done (if (s.part p.val).cmd.isSome && !s.modeIs .dormant then (s.advanceTo (s.nextMultiple 6250)).applyPartCmd p.val else s)

/-! FN_RESET (R207, R438) -/

/-- A write of FN_CMD with RESET: held for 1 s for the named instance's next invocation. -/
def State.fnCmd (s : State) (m : Master) (v : Word) : State :=
  let p := natBits v.toNat 0 4
  let i := natBits v.toNat 4 10
  if !natBit v.toNat 16 then s
  else
    let ok := s.lcProvDep && (s.modeIs .operate || s.modeIs .harebell) && s.ptMode p = 1 && (s.holdsMaint m || s.holdsOwner m p)
    let note (x : State) (r : Nat) : State := x.clogNote (x.clogRole m) p (masterNum m) r 0x21 i []
    if ok then note (s.modPart p fun x => { x with fnReset := x.fnReset.filter (·.1 ≠ i) ++ [(i, s.now)] }) 0 else note s 1

/-- FN_CMD admits OWNER_p, MAINT or ADMIN (R34); the action itself is OWNER_p's or MAINT's alone (R431). -/
def State.fnWrite (s : State) (m : Master) (v : Word) : State :=
  s.cmdWrite m rCfg_FN_CMD (fun x => x.holdsMA m || x.holdsOwner m (natBits v.toNat 0 4)) fun x => x.fnCmd m v

def execFnResetCmd (m : Master) (p : Fin 16) (i : BitVec 10) (s : State) : Host.Outcome State Fault Refusal :=
  done (s.fnWrite m (BitVec.ofNat 32 (p.val + 16 * i.toNat + 0x10000)))

/-- An FN_RESET not taken within 1 s is discarded (R207). -/
def execFnResetExpire (p : Fin 16) (i : BitVec 10) (s : State) : Host.Outcome State Fault Refusal :=
  done (match (s.part p.val).fnReset.find? (·.1 = i.toNat) with
    | some (_, t) => s.when (!s.modeIs .dormant) fun x =>
      (x.advanceTo (t + 100000000)).modPart p.val fun y => { y with fnReset := y.fnReset.filter (·.1 ≠ i.toNat) }
    | none => s)

/-! Forces (R432) -/

/-- May the partition force the index: its own produced indices, and those of the channels and speed units it owns? -/
def State.forceOwned (s : State) (p idx : Nat) : Bool :=
  if idx < 192 then s.ownerAt (page (0x100 + idx)) = some p
  else if idx < 224 then s.ownerAt (page (0x0A0 + (idx - 192))) = some p
  else if idx < 256 then false
  else s.producer idx = some p

/-- Does another partition in RUN hold the PERM bit in the descriptor of the index's ID? -/
def State.readerInRun (s : State) (p idx : Nat) : Bool :=
  match s.descAt (s.selfId idx) with
  | some a => anyBelow 16 fun q => q ≠ p && s.ptMode q = 1 && dPerm (s.imgRd a) q
  | none => false

/-- FRC_STAT: result and the forces held by the partition. -/
def State.frcStat (s : State) (p code : Nat) : State := s.wrN rCfg_FRC_STAT (code + 256 * (s.part p).forces.length)

/-- Why a SET is refused (R431, R432, R451). -/
def State.forceRefuse (s : State) (p idx : Nat) : Option Nat :=
  if !(s.lcProvDep && s.modeIs .operate && s.ptMode p = 2) then some 1
  else if !s.forceOwned p idx then some 3
  else if s.readerInRun p idx then some 2
  else if 32 ≤ (s.part p).forces.length && !((s.part p).forces.any (·.1 = idx)) then some 4
  else none

/-- A write of FRC_CMD: SET, CLEAR, CLEAR_ALL wait for their change-log entries (R449). -/
def State.frcCmd (s : State) (m : Master) (v : Word) : State :=
  let p := s.fld (bk m rCfg_FRC_SEL) 0 4
  let idx := s.fld (bk m rCfg_FRC_SEL) 16 9
  let val := s.fld rCfg_FRC_VAL 0 16
  let b i := natBit v.toNat i
  let role := s.clogRole m
  let s1 := if !b 0 then s else match s.forceRefuse p idx with
    | some r => (s.frcStat p r).clogNote role p (masterNum m) r 0x30 idx (natLe 2 val)
    | none => s.clogGuard role p (masterNum m) 0x30 idx (natLe 2 val) (.forceSet p idx (BitVec.ofNat 16 val))
  let s2 := if b 1 then s1.clogGuard role p (masterNum m) 0x31 idx [] (.forceClear p idx) else s1
  if b 2 then s2.clogGuard role p (masterNum m) 0x31 0xFFFF [] (.forceClearAll p) else s2

/-- FRC_CMD admits OWNER_p of the partition in FRC_SEL, MAINT or ADMIN (R34). -/
def State.frcWrite (s : State) (m : Master) (v : Word) : State :=
  s.cmdWrite m rCfg_FRC_CMD (fun x => x.holdsMA m || x.holdsOwner m (x.fld (bk m rCfg_FRC_SEL) 0 4)) fun x => x.frcCmd m v

def execForceSet (m : Master) (s : State) : Host.Outcome State Fault Refusal := done (s.frcWrite m 1)
def execForceClear (m : Master) (s : State) : Host.Outcome State Fault Refusal := done (s.frcWrite m 2)
def execForceClearAll (m : Master) (s : State) : Host.Outcome State Fault Refusal := done (s.frcWrite m 4)

/-- FORCE_CHANGE (R489): a force set or cleared. -/
def State.forceEvent (s : State) (p idx : Nat) : State := s.opEvent 1075 (some p) (idx + 65536 * p)

/-- A force takes effect: PART_FORCED begins with the first one; the slot is written at once and at every boundary (R432, R450). -/
def State.forceDo (s : State) (p idx : Nat) (v : BitVec 16) : State :=
  let s1 := if (s.part p).forces.isEmpty then s.raise0 (232 + p) else s
  let s2 := s1.modPart p fun x => { x with forces := x.forces.filter (·.1 ≠ idx) ++ [(idx, v)] }
  ((s2.devShow p idx v.toNat .forced).frcStat p 0).forceEvent p idx

/-- A force ends: its signal becomes v = 0, QUAL INIT (R68). -/
def State.forceEnd (s : State) (p idx : Nat) : State :=
  if (s.part p).forces.any (·.1 = idx) then
    (((s.modPart p fun x => { x with forces := x.forces.filter (·.1 ≠ idx) }).devShow p idx 0 .init).frcStat p 0).forceEvent p idx
  else s.frcStat p 0

end Sys2Proof.Machine
end

