-- ==== Sys2Proof/Machine/Channels.lean ====
section
/-! DEFINITION. Field channels and banks: live kinds, the value at an index (R254 to R256), samples (R257 to R264, R281 to
R285), bank supply and Shutter (R277 to R280, R286, R287), latches (R293). A monitor whose time the spec gives raises its
kind by a command of its own; the sample keeps since when its condition holds. -/

namespace Sys2Proof.Machine

open Sys2Proof

/-! Per-instance state -/

def State.ch (s : State) (n : Nat) : ChSt := Tab.get (fun _ => ChSt.reset) s.field.ch n
def State.modCh (s : State) (n : Nat) (f : ChSt → ChSt) : State :=
  s.modField fun x => { x with ch := Tab.modify (fun _ => ChSt.reset) x.ch n f }
def State.bank (s : State) (b : Nat) : BankSt := Tab.get (fun _ => BankSt.reset) s.field.bank b
def State.modBank (s : State) (b : Nat) (f : BankSt → BankSt) : State :=
  s.modField fun x => { x with bank := Tab.modify (fun _ => BankSt.reset) x.bank b f }

/-- Ticks of a millisecond (R319). -/
def ms (n : Nat) : Nat := n * 100000

/-- Does the field side work: a mode after field self-test (R256)? -/
def State.fieldLive (s : State) : Bool :=
  s.modeIs .sync || s.modeIs .operate || s.modeIs .harebell || s.modeIs .halted

/-- Is a kind live? -/
def hasKind (l : List (Nat × Option Nat)) (k : Nat) : Bool := l.any (·.1 = k)

/-- A kind's condition is absent from `t` on, where it was present. -/
def markGone (l : List (Nat × Option Nat)) (k t : Nat) : List (Nat × Option Nat) :=
  l.map fun e => if e.1 = k && e.2 = none then (k, some t) else e

/-- A live kind's condition is present again. -/
def markBack (l : List (Nat × Option Nat)) (k : Nat) : List (Nat × Option Nat) :=
  l.map fun e => if e.1 = k then (k, none) else e

/-- A kind's condition is present. -/
def markHere (l : List (Nat × Option Nat)) (k : Nat) : List (Nat × Option Nat) :=
  if hasKind l k then markBack l k else l ++ [(k, none)]

/-- A live BANK_HEALTH kind UV, OV or REVERSED (R286). -/
def State.supplyBad (s : State) (b : Nat) : Bool := (s.bank b).hl.any fun e => 1 ≤ e.1 && e.1 ≤ 3

/-- A live converter condition (R301). -/
def State.convBad (s : State) (b : Nat) : Bool := (s.bank b).hl.any fun e => 16 ≤ e.1 && e.1 ≤ 18

/-- A live fault of the channel. -/
def State.chFault (s : State) (n : Nat) : Bool := !(s.ch n).wl.isEmpty || !(s.ch n).fl.isEmpty

/-- The TP channel that feeds an input (R262). -/
def State.tpSrc (s : State) (n : Nat) : Option Nat :=
  let k := s.fld (rCh_DI_CFG n) 16 8
  if s.role n = 1 && k < 192 && s.role k = 2 then some k else none

/-- Value faulted by its TP source or the bank supply (R264, R286). -/
def State.srcFault (s : State) (n : Nat) : Bool :=
  s.supplyBad (n / 8) || (match s.tpSrc n with
    | some k => s.chFault k
    | none => false)

/-- The even channel of a paralleled pair, for either of its channels (R269). -/
def State.pairOf (s : State) (n : Nat) : Option Nat :=
  let e := n / 2 * 2
  if s.role e = 3 && s.bit (rCh_DO_CFG e) 9 && s.role (e + 1) = 4 then some e else none

/-- The word a channel's index holds (R255, R286, R296, R307); an analogue input's is the one its slot wrote (R300). -/
def State.chWord (s : State) (n : Nat) : Nat × Qual :=
  let c := s.ch n
  let r := s.role n
  if s.srcFault n || (s.chFault n && !(8 ≤ r && r ≤ 12)) then (0, .fault)
  else if r = 1 || r = 5 || r = 6 then (b2n (s.bit (rCh_CH_STAT n) 1), .good)
  else if r = 2 then (1, .good)
  else if r = 3 || r = 4 then
    if s.now < c.idxHold then c.word
    else if s.pairOf n = some n then (b2n (c.rb && (s.ch (n + 1)).rb), .good)
    else (b2n c.rb, .good)
  else if 8 ≤ r && r ≤ 11 then c.word
  else if r = 13 || r = 14 then (c.meas, .good)
  else (0, .init)

/-- Write the index word of a channel; before the end of field self-test it stays INIT (R256). -/
def State.chWrite (s : State) (n : Nat) : State :=
  if s.fieldLive then
    let w := s.chWord n
    (s.produce n w.1 w.2).modCh n fun c => { c with word := w }
  else s

/-- Write the word where its value or quality has changed (R256). CH_STAT.SRC_FAULT follows. -/
def State.chRefresh (s : State) (n : Nat) : State :=
  let s1 := s.setBit (rCh_CH_STAT n) 6 (s.srcFault n)
  if s1.chWord n = (s.ch n).word then s1 else s1.chWrite n

/-- The superframe write of R256: every channel but the analogue inputs (R300). -/
def State.chSuperframe (s : State) (n : Nat) : State :=
  let r := s.role n
  if 8 ≤ r && r ≤ 11 then s else (s.setBit (rCh_CH_STAT n) 6 (s.srcFault n)).chWrite n

/-- The inputs fed by a TP channel, with the channel itself. -/
def State.chGroup (s : State) (n : Nat) : List Nat :=
  n :: ((List.range 192).filter fun k => s.tpSrc k = some n)

/-- WCAUSE, FCAUSE and the events show the oldest live kinds; what the kinds decide about words is written. -/
def State.chShow (s : State) (n : Nat) : State :=
  let first (l : List (Nat × Option Nat)) : Nat := match l with
    | e :: _ => e.1
    | [] => 0
  let c := s.ch n
  let s1 := (s.setFld (rCh_CH_STAT n) 16 8 (first c.wl)).setFld (rCh_CH_STAT n) 24 8 (first c.fl)
  let raw (x : State) (bit : Nat) (b : Bool) : State :=
    if x.bit (rPg_EV_RAW (0x100 + n)) bit = b then x else x.evRaw (0x100 + n) (2 ^ bit) b
  let s2 := raw (raw s1 0 (!c.wl.isEmpty)) 1 (!c.fl.isEmpty)
  s2.each (s2.chGroup n) State.chRefresh

/-- Raise CH_WIRING (`f` false) or CH_FUNC with a kind, and count it (R290, R292). -/
def State.chRaise (s : State) (n k : Nat) (f : Bool) : State :=
  (s.bumpFld (rCh_FLT_CNT n) (if f then 16 else 0) 16).raise (384 + 2 * n + b2n f) k n

/-- A kind of CH_WIRING or CH_FUNC is present: it begins, or goes on. -/
def State.chHere (s : State) (n k : Nat) (f : Bool) : State :=
  if hasKind (if f then (s.ch n).fl else (s.ch n).wl) k then
    s.modCh n fun c => if f then { c with fl := markHere c.fl k } else { c with wl := markHere c.wl k }
  else
    let s1 := s.modCh n fun c => if f then { c with fl := markHere c.fl k } else { c with wl := markHere c.wl k }
    (s1.chRaise n k f).chShow n

/-- A latched kind whose condition returns raises its source again (R293). -/
def State.chBack (s : State) (n k : Nat) (f : Bool) : State :=
  if (if f then (s.ch n).fl else (s.ch n).wl).any fun e => e.1 = k && e.2.isSome then (s.chHere n k f).chRaise n k f else s.chHere n k f

/-- A kind's condition is absent from now on. -/
def State.chGone (s : State) (n k : Nat) (f : Bool) : State :=
  s.modCh n fun c => if f then { c with fl := markGone c.fl k s.now } else { c with wl := markGone c.wl k s.now }

/-- Present or absent. -/
def State.chCond (s : State) (n k : Nat) (f b : Bool) : State := if b then s.chHere n k f else s.chGone n k f

/-- A kind ends. -/
def State.chEnd (s : State) (n k : Nat) (f : Bool) : State :=
  if hasKind (if f then (s.ch n).fl else (s.ch n).wl) k then
    (s.modCh n fun c => if f then { c with fl := c.fl.filter (·.1 ≠ k) } else { c with wl := c.wl.filter (·.1 ≠ k) }).chShow n
  else s

/-! Banks -/

/-- The events of a bank's page follow its live kinds; HEALTHY follows R291. -/
def State.bankShow (s : State) (b : Nat) : State :=
  let x := s.bank b
  let latched := anyBelow 8 fun c => s.bit (rCh_CH_STAT (8 * b + c)) 7
  let raw (y : State) (bit : Nat) (v : Bool) : State :=
    if y.bit (rPg_EV_RAW (0x080 + b)) bit = v then y else y.evRaw (0x080 + b) (2 ^ bit) v
  (raw (raw s 0 (!x.hl.isEmpty)) 2 (!x.sl.isEmpty)).setBit (rBank_BK_STAT b) 8 (x.hl.isEmpty && x.sl.isEmpty && !latched)

/-- A BANK_HEALTH kind is present; the words of the bank's channels follow. -/
def State.healthHere (s : State) (b k : Nat) : State :=
  let had := hasKind (s.bank b).hl k
  let s1 := s.modBank b fun x => { x with hl := markHere x.hl k }
  if had then s1
  else ((s1.raise (768 + 2 * b) k b).bankShow b).each (List.range 8) fun x c => x.chRefresh (8 * b + c)

/-- A BANK_HEALTH kind ends. -/
def State.healthEnd (s : State) (b k : Nat) : State :=
  ((s.modBank b fun x => { x with hl := x.hl.filter (·.1 ≠ k) }).bankShow b).each (List.range 8) fun x c =>
    x.chRefresh (8 * b + c)

/-- A request of R277 present on a bank. -/
def State.shutAsked (s : State) (b : Nat) : Bool := s.fld (rBank_BK_STAT b) 1 6 ≠ 0

/-- The Shutter is closed and has no request (R267). -/
def State.shutOk (s : State) (b : Nat) : Bool := s.bit (rBank_BK_STAT b) 0 && !s.shutAsked b

/-- BANK_OK of R56: healthy and the Shutter closed. -/
def State.bankOk (s : State) (b : Nat) : Bool := s.bit (rBank_BK_STAT b) 8 && s.bit (rBank_BK_STAT b) 0

/-- Every channel switch of the bank is off (R279). -/
def State.bankOff (s : State) (b : Nat) : Bool := s.fld (rBank_BK_STAT b) 24 8 = 0

/-- The Shutter closes where R279 lets it; the rail then must rise. -/
def State.shutClose (s : State) (b : Nat) : State :=
  if !s.shutAsked b && s.bankOff b && !s.bit (rBank_BK_STAT b) 0 then
    ((s.setBit (rBank_BK_STAT b) 0 true).evRaw (0x080 + b) 2 false).modBank b fun x =>
      { x with rising := some s.now, retryAt := none }
  else s

/-! Switching (R267, R271, R273, R274) -/

/-- A switch is commanded off: its proof opens. R276 measures the on-resistance where the current is 50 mA or more. -/
def State.swOff (s : State) (n : Nat) (ron : BitVec 16) : State :=
  let s1 := if 500 ≤ asSigned 16 (s.fld (rCh_I_MEAS n) 0 16) then s.setFld (rCh_RON n) 0 16 ron.toNat else s
  ((s1.setBit (rCh_CH_STAT n) 2 false).setBit (rBank_BK_STAT (n / 8)) (24 + n % 8) false).modCh n fun c =>
    { c with onSince := none, proof := some s.now, odd := none }

/-- A switch is commanded on. -/
def State.swOn (s : State) (n : Nat) : State :=
  ((s.setBit (rCh_CH_STAT n) 2 true).setBit (rBank_BK_STAT (n / 8)) (24 + n % 8) true).modCh n fun c =>
    { c with onSince := some s.now, proof := none, odd := none }

/-- Is the switch commanded on? -/
def State.swIsOn (s : State) (n : Nat) : Bool := s.bit (rCh_CH_STAT n) 2

/-- FA below 5 V within 60 µs of a switch-off or pulse start: the proof passes (R274). -/
def State.proofPass (s : State) (n : Nat) (v : Int) : State :=
  match (s.ch n).proof with
  | some t =>
    if v < 500 && s.now ≤ t + 6000 then
      ((s.bump (rCh_PULSE_CNT n)).setFld (rCh_PULSE_LAST n) 0 16 (min ((s.now - t) / 10) 65535)).modCh n fun c => { c with proof := none }
    else s
  | none => s

/-- A proof is still open at 60 µs (R274). -/
def State.proofLate (s : State) (n : Nat) : Bool :=
  match (s.ch n).proof with
  | some t => decide (t + 6000 ≤ s.now)
  | none => false

/-! Samples (R256 to R264, R281 to R285) -/

/-- The instant of a channel's next sample or read: a multiple of 1,000 ticks, not one it has had (R256). -/
def State.sampleTime (s : State) (last : Nat) : Nat :=
  let t := (s.now + 999) / 1000 * 1000
  if t < last then t + 1000 else t

/-- First sample of the mask window, and first sample after it, in samples of the frame (R260, R262). -/
def State.maskLo (s : State) (tp : Nat) : Nat := 125 * s.fld (rCh_TP_CFG tp) 0 3
def State.maskHi (s : State) (n tp : Nat) : Nat := s.maskLo tp + 56 + 2 * s.fld (rCh_X_TPMASK n) 0 5

/-- The filtered level changes (R259): captures (R333), the LEVEL event, the press of a trim button (R310). -/
def State.setLevel (s : State) (n : Nat) (l : Bool) : State :=
  let s1 := (((s.setBit (rCh_CH_STAT n) 1 l).evRaw (0x100 + n) 8 l).opEvent (1200 + n) none (b2n l)).tEdge n l
  s1.modCh n fun c =>
    if l then { c with onFrom := some s.now, run := 0 }
    else { c with press := c.onFrom.map fun t => (s.now, s.now - t), onFrom := none, run := 0 }

/-- FILT counted samples in a row of the other level change the filtered level (R259). -/
def State.filterStep (s : State) (n : Nat) (raw : Bool) : State :=
  if raw = s.bit (rCh_CH_STAT n) 1 then s.modCh n fun c => { c with run := 0 }
  else if s.fld (rCh_DI_CFG n) 0 13 ≤ (s.ch n).run + 1 then s.setLevel n raw
  else s.modCh n fun c => { c with run := c.run + 1 }

/-- The mask window of an input fed by a TP channel (R262, R264), at sample `j` of the frame; `prev` is the sample before. -/
def State.maskStep (s : State) (n tp j : Nat) (raw prev : Bool) : State :=
  let lo := s.maskLo tp
  let hi := s.maskHi n tp
  let s1 := if j = lo then s.modCh n fun c => { c with before := prev, seen := false } else s
  let s2 := if lo + 6 ≤ j && j ≤ lo + 50 && !raw then s1.modCh n fun c => { c with seen := true } else s1
  let s3 := s2.setBit (rCh_CH_STAT n) 5 (lo ≤ j && j < hi)
  if j = hi && (s3.ch n).before && raw && !s3.chFault tp then
    if (s3.ch n).seen then s3.modCh n fun c => { c with frames := c.frames + 1 }
    else ((s3.modCh n fun c => { c with frames := 0 }).bump (rCh_TP_MISS_CNT n)).chHere n 1 false
  else s3

/-- MISWIRE is present while a sample finds the terminals mis-wired, AO_V is at its current limit, or a loop supply has folded back (R285,
R307, R315). -/
def State.miswire (s : State) (n : Nat) : State :=
  let c := s.ch n
  s.chCond n 8 false (c.crossed || c.limited || c.fold.isSome)

/-- Conditions of the sensor supply and of the terminals (R282, R283, R285). Currents in 10 µA. -/
def State.wireStep (s : State) (n : Nat) (x : Terminal) : State :=
  let r := s.role n
  let iA := asSigned 24 x.iFA.toNat
  let iB := asSigned 24 x.iFB.toNat
  let e i := s.bit (rCh_EDGE_CFG n) i
  let s1 := if r = 5 && e 16 then s.chCond n 12 false (iB < 35) else s
  let s2 := if r = 6 then
      let y := if e 17 then s1.chCond n 9 false (iA < 35) else s1
      if e 18 then y.chCond n 10 false (600 < iA) else y
    else s1
  let s3 := if r = 1 || r = 5 then
      (if s.bit (rCh_DI_CFG n) 14 || (r = 5 && e 16) then s2.chCond n 11 false (5000 < iB || x.limit) else s2.chGone n 11 false)
    else s2
  if r = 0 then s3 else (s3.modCh n fun c => { c with crossed := x.miswired }).miswire n

/-- What the two comparators report: on and off by the thresholds of DI_CFG.TYPE, of type 3 for SPD_HTL, of the sensor current for NAMUR;
between them, and where one has failed, what `k` shows (R257, R282, R283; log 134). -/
def State.levels (s : State) (n : Nat) (k : Comp) (x : Terminal) : Bool × Bool :=
  let r := s.role n
  let q := if r = 6 then asSigned 24 x.iFA.toNat else asSigned 16 x.vFA.toNat
  let on : Int := if r = 6 then 210 else if r = 1 && !s.bit (rCh_DI_CFG n) 13 then 1500 else 1100
  let off : Int := if r = 6 then 120 else 500
  if !k.failed && on ≤ q then (true, true) else if !k.failed && q ≤ off then (false, false) else (k.one, k.two)

/-- A sample of an input: DI, SPD_HTL or NAMUR (R256 to R259, R262). -/
def State.inputSample (s : State) (n j : Nat) (k : Bool × Bool) : State :=
  let raw := k.1 && k.2
  let prev := s.bit (rCh_CH_STAT n) 0
  let s1 := s.setBit (rCh_CH_STAT n) 0 raw
  let s2 := if k.1 = k.2 then
      let y := s1.modCh n fun c => { c with differ := none }
      if s1.convBad (n / 8) then y else y.chGone n 1 true
    else if (s1.ch n).differ.isSome then s1
    else s1.modCh n fun c => { c with differ := some s.now, fl := markBack c.fl 1 }
  match s2.tpSrc n with
  | some tp =>
    let s3 := s2.maskStep n tp j raw prev
    if s3.maskLo tp ≤ j && j < s3.maskHi n tp then s3 else s3.filterStep n raw
  | none => s2.filterStep n raw

/-- A sample of a TP channel (R261): low during the pulse, high outside the mask window, which IN_PULSE shows (R292); ten good frames in
a row. -/
def State.tpSample (s : State) (n j : Nat) (v : Int) : State :=
  let lo := s.maskLo n
  let hi := s.maskHi n n
  let s1 := (s.setBit (rCh_CH_STAT n) 0 (1100 ≤ v)).setBit (rCh_CH_STAT n) 5 (lo ≤ j && j < hi)
  let s2 := if lo + 6 ≤ j && j ≤ lo + 50 && v ≤ 500 then s1.modCh n fun c => { c with seen := true } else s1
  let s3 := if (lo ≤ j && j < hi) || 1100 ≤ v then s2.modCh n fun c => { c with odd := none }
    else match (s2.ch n).odd with
      | none => s2.modCh n fun c => { c with odd := some s.now }
      | some t => if t + 6000 < s.now then (s2.modCh n fun c => { c with frameBad := true, frames := 0 }).chHere n 3 false else s2
  if j = 999 then s3.modCh n fun c => { c with frames := if c.frameBad then 0 else c.frames + 1, frameBad := false } else s3

/-- DO_STUCK_HIGH latches, writes FAULT and requests the Shutter; an off-pulse in progress lasts its time (R270, R272, R274). -/
def State.stuckHigh (s : State) (n : Nat) (hi : Bool) : State :=
  let s1 := s.modCh n fun y => { y with
    proof := none
    odd := none
    stuckAt := s.now
    proofBad := y.proof.isSome
    stuckNow := true
    rb := hi
    idxHold := 0 }
  (((s1.setBit (rCh_CH_STAT n) 7 true).chHere n 4 false).shutRequest (n / 8) 3).bankShow (n / 8)

/-- A sample of an output's read-back (R255, R270, R274): a proof that has not passed at 60 µs is DO_STUCK_HIGH; the condition of a latched
channel, FA not below 5 V after a failed proof and else above 11 V, raises its source again where it returns (R293). -/
def State.outSample (s : State) (n : Nat) (v : Int) : State :=
  let hi : Bool := 1100 < v
  let s1 := (s.setBit (rCh_CH_STAT n) 0 hi).proofPass n v
  if s1.proofLate n then s1.stuckHigh n hi
  else
    let cond := s1.bit (rCh_CH_STAT n) 7 && !s1.swIsOn n && (if (s1.ch n).proofBad then decide (500 ≤ v) else hi)
    let s2 := s1.when (cond && !(s1.ch n).stuckNow) fun x => x.chRaise n (if hasKind (x.ch n).wl 5 then 5 else 4) false
    let inPulse := (s2.ch n).pulse.isSome
    s2.modCh n fun c => { c with
      rb := hi
      stuckNow := cond
      odd := if inPulse || hi = s2.swIsOn n then none else some (c.odd.getD s.now) }

/-- The current of a bank's rail, 1 mA: what its outputs carry (R276, R294; log 135). -/
def State.railShow (s : State) (b : Nat) : State :=
  let i := (List.range 8).foldl (fun (t : Int) c =>
    if s.isDo (8 * b + c) then t + asSigned 16 (s.fld (rCh_I_MEAS (8 * b + c)) 0 16) else t) 0
  s.setFld (rBank_I_RAIL b) 0 16 (min (i.toNat / 10) 65535)

/-- One sample of a channel (R256). -/
def State.chSample (s0 : State) (n : Nat) (k : Comp) (x : Terminal) : State :=
  if !s0.fieldLive then s0
  else
    let t := s0.sampleTime (s0.ch n).sampled
    let s := (s0.advanceTo t).modCh n fun c => { c with sampled := t + 1 }
    let j := t % 1000000 / 1000
    let v := asSigned 16 x.vFA.toNat
    let r := s.role n
    let cur (i : BitVec 24) : Nat := ofSigned 16 (asSigned 24 i.toNat / 10)
    let s1 := (s.wrN (rCh_I_MEAS n) (cur x.iFA + 65536 * cur x.iFB)).setFld (rCh_V_FA n) 0 16 x.vFA.toNat
    let s2 := s1.wireStep n x
    let s3 := if r = 1 || r = 5 || r = 6 then s2.inputSample n j (s2.levels n k x)
      else if r = 2 then s2.tpSample n j v
      else if r = 3 || r = 4 then (s2.railShow (n / 8)).outSample n v
      else s2.setBit (rCh_CH_STAT n) 0 (k.one && k.two)
    let s4 := if r ≤ 6 then s3.chRefresh n else s3
    match s4.pairOf n with
    | some e => s4.chRefresh e
    | none => s4

def execChannelSample (n : Fin 192) (k : Comp) (x : Terminal) (s : State) : Host.Outcome State Fault Refusal :=
  done (s.chSample n.val k x)

/-- The comparators have disagreed for 10 ms (R258). -/
def execDiCompTimeout (n : Fin 192) (s : State) : Host.Outcome State Fault Refusal :=
  done (match (s.ch n.val).differ with
    | some t => if s.fieldLive then (s.advanceTo (t + ms 10)).chHere n.val 1 true else s
    | none => s)

/-- Healthy time of a kind: 100 ms without its condition, or for the test-pulse kinds ten frames (R258, R261, R262, R282,
R283, R285, R304). -/
def wiringTimed (k : Nat) : Bool := (8 ≤ k && k ≤ 12) || k = 16 || k = 17 || k = 18 || k = 19

/-- A wiring or function fault clears after its healthy time. -/
def execChannelFaultClear (n : Fin 192) (func : Bool) (k : Fin 32) (s : State) : Host.Outcome State Fault Refusal :=
  let c := s.ch n.val
  let since := ((if func then c.fl else c.wl).find? (·.1 = k.val)).bind (·.2)
  done (if (if func then k.val = 1 else wiringTimed k.val) then
      match since with
      | some t => (s.advanceTo (t + ms 100)).chEnd n.val k.val func
      | none => s
    else if !func && 1 ≤ k.val && k.val ≤ 3 && 10 ≤ c.frames then s.chEnd n.val k.val false
    else s)

/-! Test pulses (R260, R261, R553) -/

/-- The next Meridian at which place `p` of the test frame begins. -/
def State.framePlace (s : State) (p : Nat) : Nat :=
  let t := s.now / 1000000 * 1000000 + p
  if s.now ≤ t then t else t + 1000000

/-- A TP channel drives FA low at its code's place in the test frame, and with it every TP channel of the module that has the code. -/
def execTestPulseStart (n : Fin 192) (s : State) : Host.Outcome State Fault Refusal :=
  done (if s.fieldLive && s.role n.val = 2 && (s.ch n.val).pulse.isNone then
      let s1 := s.advanceTo (s.framePlace (1000 * s.maskLo n.val))
      let code k := s.fld (rCh_TP_CFG k) 0 3
      s1.each ((List.range 192).filter fun k => s.role k = 2 && code k = code n.val) fun x k =>
        (x.setBit (rCh_CH_STAT k) 5 true).modCh k fun c => { c with pulse := some s1.now, seen := false }
    else s)

/-- It drives FA high again 500 µs later; `v`, 10 mV, is the sample at that instant, which still sees the pulse (R553). -/
def execTestPulseEnd (n : Fin 192) (v : BitVec 16) (s : State) : Host.Outcome State Fault Refusal :=
  done (match (s.ch n.val).pulse with
    | some t =>
      if s.role n.val = 2 then
        let s1 := (s.advanceTo (t + 50000)).modCh n.val fun c => { c with pulse := none }
        if (s1.ch n.val).seen || asSigned 16 v.toNat ≤ 500 then s1
        else (s1.modCh n.val fun c => { c with frameBad := true, frames := 0 }).chHere n.val 2 false
      else s
    | none => s)

/-! Latches (R293) -/

/-- The CHANNEL request of a bank goes with its last latched channel (R277). -/
def State.chLatchShow (s : State) (b : Nat) : State :=
  (if anyBelow 8 fun c => s.bit (rCh_CH_STAT (8 * b + c)) 7 then s else s.shutRelease b 3).bankShow b

/-- CLR_LATCH of a channel: ignored while the latched condition is present. -/
def State.chClr (s : State) (n : Nat) : State :=
  let s1 := if s.bit (rCh_CH_STAT n) 7 && !(s.ch n).stuckNow then
      (((s.setBit (rCh_CH_STAT n) 7 false).chEnd n 4 false).chEnd n 5 false).chLatchShow (n / 8)
    else s
  if hasKind (s1.ch n).fl 20 && (s1.ch n).aoDiff.isNone then s1.chEnd n 20 true else s1

/-- A write of CH.CMD. -/
def State.chCmd (s : State) (m : Master) (n : Nat) (v : Word) : State :=
  s.regCmd m (rCh_CMD n) fun x => if natBit v.toNat 0 then x.chClr n else x

def execChClrLatch (m : Master) (n : Fin 192) (s : State) : Host.Outcome State Fault Refusal := done (s.chCmd m n.val 1)

end Sys2Proof.Machine
end

