-- ==== Sys2Proof/Machine/Outputs.lean ====
section
/-! DEFINITION. Outputs: the read of the bound signal (R10, R267, R268, R305, R306), off-pulses (R272 to R274), read-back
checks (R269, R270), the Shutter (R279, R280, R294), bank supply (R286, R287), loss of the isolated link (R511). -/

namespace Sys2Proof.Machine

open Sys2Proof

/-! What an output reads -/

/-- The word at a bound index: v and quality where it passes the checks (R10, R64, R74). -/
def State.bound (s : State) (idx : Nat) : Option (Nat × Qual) :=
  let w := s.imgCsw (8 * idx) (s.selfId idx)
  if cswValid (s.localA idx) w (s.selfId idx) then some (cswVal (s.localA idx) w (s.selfId idx), cswQual w) else none

/-- R10: the value decodes to a non-zero v with QUAL GOOD or FORCED. -/
def State.permits (s : State) (idx : Nat) : Bool :=
  match s.bound idx with
  | some (v, q) => v ≠ 0 && qualLive q
  | none => false

/-- The partition that owns a channel (R550). -/
def State.chOwner (s : State) (n : Nat) : Option Nat := s.ownerAt (page (0x100 + n))

/-- The owning partition is in RUN with its imports once fresh (R19, R424), and its pair is not unpaired by debug; a SAFE partition on a
pair in replay debug is held off too, but in PROVISIONING (R189, R191, R267). -/
def State.ownerRuns (s : State) (n : Nat) : Bool :=
  match s.chOwner n with
  | some p =>
    let q := s.ptPair p
    s.ptMode p = 1 && (s.part p).impFresh && !s.bit (rPair_DBG_STAT q) 1 && !(s.bit (rPair_DBG_STAT q) 2 && s.ptSafe p && s.lc ≠ 1)
  | none => false

/-- The channels an output switches: a single one, or both of its pair (R269). -/
def State.outChans (s : State) (n : Nat) : List Nat := if s.pairOf n = some n then [n, n + 1] else [n]

/-- A live fault of the output (R267); the bank's supply has its Shutter opened instead (R277). -/
def State.outFault (s : State) (n : Nat) : Bool := (s.outChans n).any s.chFault

/-- What R267 asks of an output, but for the arm. -/
def State.outPermit (s : State) (n : Nat) : Bool :=
  s.permits (s.fld (rCh_DO_CFG n) 0 9) && s.ownerRuns n && !(s.outChans n).any (fun c => s.bit (rCh_CH_STAT c) 3)
  && s.shutOk (n / 8) && !s.outFault n && !s.modeIs .halted

/-- The arm of an output at a read: is this the first read at or after the arm time, and was it written no more than 250 µs
before (R268)? -/
def State.armDue (s : State) (n : Nat) : Bool :=
  Tab.get (fun _ => 0) s.eng.armWr n ≠ 0 && s.rd64 (rCh_ARM_LO n) ≤ s.now
def State.armGood (s : State) (n : Nat) : Bool :=
  s.armDue n && s.now + 1 - Tab.get (fun _ => 0) s.eng.armWr n ≤ 25000

/-- CH_STAT.ARMED: the arm is not consumed, and may still switch the output on: its 250 µs hold at the arm time, or now if that is past (R268,
R292). -/
def State.armHeld (s : State) (n : Nat) : Bool :=
  let w := Tab.get (fun _ => 0) s.eng.armWr n
  decide (w ≠ 0) && decide (max s.now (s.rd64 (rCh_ARM_LO n)) + 1 - w ≤ 25000)

/-- Read of a safe or standard output (R267, R268, R273). -/
def State.doRead (s : State) (n : Nat) (ron : BitVec 16) : State :=
  let chans := s.outChans n
  let permit := s.permits (s.fld (rCh_DO_CFG n) 0 9)
  let s1 := if !permit && !s.outFault n then
      s.each chans fun x c => if x.bit (rCh_CH_STAT c) 3 then x.setHold c false else x
    else s
  let arm := !s1.bit (rCh_DO_CFG n) 10 || s1.armGood n
  let s2 := if s1.armDue n then s1.modEng fun e => { e with armWr := Tab.set (fun _ => 0) e.armWr n 0 } else s1
  if (s2.ch n).pulse.isSome then s2
  else if s2.swIsOn n then
    if s2.outPermit n then s2
    else
      let flt := chans.any s2.chFault
      s2.each chans fun x c => if flt then (x.swOff c ron).setHold c true else x.swOff c ron
  else if s2.outPermit n && arm then s2.each chans fun x c => x.swOn c
  else s2

/-- Read of an analogue output (R305, R306). -/
def State.aoRead (s : State) (n : Nat) : State :=
  let fail := s.aoFailLevel n
  let subst := if s.bit (rCh_AO_CFG n) 11 then s.fld (rCh_AO_SUBV n) 0 16 else fail
  let clamp (v : Nat) : Nat :=
    if s.role n = 14 then min v 10000
    else if s.bit (rCh_AO_CFG n) 9 then max 3800 (min v 20500)
    else min v 20500
  if s.flt.safeLine || !DevMode.fieldOn s.dev.mode || s.chFault n || s.convBad (n / 8) then s.setDac n fail false true
  else if !s.ownerRuns n then s.setDac n subst true (!s.bit (rCh_AO_CFG n) 11)
  else match s.bound (s.fld (rCh_AO_CFG n) 0 9) with
    | some (v, q) => if qualLive q then s.setDac n (clamp v) false false else s.setDac n subst true (!s.bit (rCh_AO_CFG n) 11)
    | none => s.setDac n subst true (!s.bit (rCh_AO_CFG n) 11)

/-- The 10 µs read of an output; `ron` is what a measurement of R276 gives. -/
def execOutputRead (n : Fin 192) (ron : BitVec 16) (s : State) : Host.Outcome State Fault Refusal :=
  done (if !s.fieldLive then s
    else
      let t := s.sampleTime (s.ch n.val).readAt
      let x := (s.advanceTo t).modCh n.val fun c => { c with readAt := t + 1 }
      let r := x.role n.val
      if r = 3 then x.doRead n.val ron else if r = 13 || r = 14 then x.aoRead n.val else x)

/-! Off-pulses (R272 to R274) -/

/-- Does an output pulse: role DO with OP_PER other than none (R272)? -/
def State.pulses (s : State) (n : Nat) : Bool := s.role n = 3 && s.fld (rCh_DO_CFG n) 12 3 ≠ 7

/-- Frames of a pulse period (R292). -/
def opFrames (k : Nat) : Nat :=
  match k with
  | 0 => 1 | 1 => 2 | 2 => 5 | 3 => 10 | 4 => 20 | 5 => 50 | _ => 100

/-- Transit slot of an output: its rank among the outputs of the bank that pulse (R272). -/
def State.transitSlot (s : State) (n : Nat) : Nat :=
  ((List.range (n % 8)).filter fun c => s.pulses (n / 8 * 8 + c)).length

/-- The next Meridian at place `p` of a frame F with F mod `per` = `key` mod `per`. -/
def State.frameAt (s : State) (p per key : Nat) : Nat :=
  let f := s.framePlace p / 1000000
  (f + (key % per + per - f % per) % per) * 1000000 + p

/-- An off-pulse starts in its slot, where the output has been on for 1 ms; else it is skipped (R273). -/
def execOffPulseStart (n : Fin 192) (ron : BitVec 16) (s : State) : Host.Outcome State Fault Refusal :=
  done (if s.fieldLive && s.pulses n.val && (s.ch n.val).pulse.isNone then
      let per := opFrames (s.fld (rCh_DO_CFG n.val) 12 3)
      let s1 := s.advanceTo (s.frameAt (100000 * s.transitSlot n.val + 4000 * (n.val / 8)) per n.val)
      match (s1.ch n.val).onSince with
      | some t =>
        if t + 100000 ≤ s1.now then
          s1.each (s1.outChans n.val) fun x c =>
            ((x.swOff c ron).setBit (rCh_CH_STAT c) 5 true).modCh c fun y => { y with
              pulse := some s1.now
              idxHold := s1.now + 10000 * s1.fld (rCh_DO_CFG n.val) 16 4 + 6000 }
        else s1
      | none => s1
    else s)

/-- An off-pulse ends: with its proof passed, the switch closes again if R267 still permits (R274); a proof still open is DO_STUCK_HIGH, and
a fault of its own that began in the pulse leaves the output in restart hold (R267). `v`, 10 mV, is FA. -/
def execOffPulseEnd (n : Fin 192) (v : BitVec 16) (s : State) : Host.Outcome State Fault Refusal :=
  done (match ((s.outChans n.val).filterMap fun c => (s.ch c).pulse).head? with
    | some t =>
      if s.role n.val = 3 then
        let s1 := s.advanceTo (t + 10000 * s.fld (rCh_DO_CFG n.val) 16 4)
        let s2 := s1.each (s1.outChans n.val) fun x c =>
          let y := (x.setBit (rCh_CH_STAT c) 5 false).modCh c fun y => { y with pulse := none }
          if y.proofLate c then y.stuckHigh c (1100 < asSigned 16 v.toNat) else y
        if s2.outPermit n.val then s2.each (s2.outChans n.val) fun x c => x.swOn c
        else if s2.outFault n.val then s2.each (s2.outChans n.val) fun x c => x.setHold c true
        else s2
      else s
    | none => s)

/-! Read-back checks (R269, R270) -/

/-- FA stays high 60 µs after a switch-off or the start of a pulse, or for more than 60 µs while off: DO_STUCK_HIGH latches and
requests the Shutter. `v`, 10 mV, is FA. -/
def execDoStuckHighDetect (n : Fin 192) (v : BitVec 16) (s : State) : Host.Outcome State Fault Refusal :=
  let c := s.ch n.val
  let fa := asSigned 16 v.toNat
  let at_ : Option Nat := match c.proof with
    | some t => if 500 ≤ fa then some (t + 6000) else none
    | none => if 1100 < fa then c.odd.map fun t => t + 6001 else none
  done (if s.fieldLive && s.isDo n.val && !s.swIsOn n.val && !s.bit (rCh_CH_STAT n.val) 7 then
      match at_ with
      | some t => (s.advanceTo t).stuckHigh n.val (1100 < fa)
      | none => s
    else s)

/-- FA still above 11 V 100 µs after the Shutter request: the kind becomes EXT_FEED. -/
def execExtFeedDetect (n : Fin 192) (v : BitVec 16) (s : State) : Host.Outcome State Fault Refusal :=
  done (if hasKind (s.ch n.val).wl 4 && 1100 < asSigned 16 v.toNat then
      ((s.advanceTo ((s.ch n.val).stuckAt + 10000)).chHere n.val 5 false).chEnd n.val 4 false
    else s)

/-- An on output, outside an off-pulse, reads at or below 11 V for more than 60 µs (`why` 0), carries more than 0.75 A for 5 ms (1),
or has its limit active for 100 µs (2): it switches off and enters restart hold. -/
def execDoOverloadDetect (n : Fin 192) (why : Fin 3) (ron : BitVec 16) (s : State) : Host.Outcome State Fault Refusal :=
  let c := s.ch n.val
  let at_ : Option Nat := if why.val = 0 then c.odd.map (· + 6001) else some s.now
  done (match at_ with
    | some t =>
      if s.fieldLive && s.isDo n.val && s.swIsOn n.val && c.pulse.isNone then
        let s1 := (s.advanceTo t).chRaise n.val 6 false
        let e := (s1.pairOf n.val).getD n.val
        s1.each (s1.outChans e) fun x k => (x.swOff k ron).setHold k true
      else s
    | none => s)

/-- Current below 5 mA for 100 ms while on, with OL_DET = 1. -/
def execOpenLoadDetect (n : Fin 192) (s : State) : Host.Outcome State Fault Refusal :=
  done (if s.fieldLive && s.isDo n.val && s.swIsOn n.val && s.bit (rCh_DO_CFG ((s.pairOf n.val).getD n.val)) 11 then
      s.chRaise n.val 7 false
    else s)

/-- Unequal sharing of a paralleled pair for 100 ms: PAR_SHARE of the even channel. -/
def execParShareDetect (n : Fin 192) (s : State) : Host.Outcome State Fault Refusal :=
  done (if s.fieldLive && s.pairOf n.val = some n.val && s.swIsOn n.val then s.chRaise n.val 2 true else s)

/-! The Shutter (R279, R280) -/

/-- Frames of a Shutter test period (R294); a reserved code counts as the longest (log 36). -/
def shutFrames (k : Nat) : Nat :=
  match k with
  | 0 => 100 | 1 => 1000 | 2 => 6000 | 3 => 60000 | _ => 360000

/-- The Shutter is found stuck closed: STUCK_CLOSED, and it is held open by its own request, an opening the count sees (R280, R294). -/
def State.shutStuck (s : State) (b : Nat) : State :=
  let had := hasKind (s.bank b).sl 1
  let s1 := s.modBank b fun x => { x with sl := markHere x.sl 1 }
  (if had then s1 else ((s1.raise (769 + 2 * b) 1 b).setBit (rBank_BK_STAT b) 0 true).shutRequest b 6).bankShow b

/-- The Shutter test: the rail must read below 5 V within 60 µs; SHUT_LAST and, at 100 mA or more, SHUT_RON (R276, R280). -/
def State.shutTest (s : State) (b : Nat) (rail fall ron : BitVec 16) : State :=
  let heavy := 100 ≤ s.fld (rBank_I_RAIL b) 0 16
  let s1 := (s.shutRequest b 5).modBank b fun x => { x with testAt := some s.now }
  let s2 := ((s1.setFld (rBank_V_RAIL b) 0 16 rail.toNat).setFld (rBank_SHUT_LAST b) 0 16 fall.toNat)
  let s3 := if heavy then s2.setFld (rBank_SHUT_RON b) 0 16 ron.toNat else s2
  if asSigned 16 rail.toNat < 500 then
    ((s3.shutRelease b 6).modBank b fun x => { x with sl := x.sl.filter (·.1 ≠ 1) }).bankShow b
  else s3.shutStuck b

/-- The Shutter test of slot 9, skipped while the Shutter is held open (R280). -/
def execShutterTestStart (b : Fin 24) (rail fall ron : BitVec 16) (s : State) : Host.Outcome State Fault Refusal :=
  done (if s.fieldLive && (s.bank b.val).testAt.isNone then
      let per := if (s.bank b.val).testReq then 1 else shutFrames (s.fld (rBank_BK_CFG b.val) 0 3)
      let s1 := (s.advanceTo (s.frameAt (900000 + 4000 * b.val) per b.val)).modBank b.val fun x => { x with testReq := false }
      if s1.shutOk b.val then s1.shutTest b.val rail fall ron else s1
    else s)

/-- The 300 µs of a Shutter test end. -/
def execShutterTestEnd (b : Fin 24) (s : State) : Host.Outcome State Fault Refusal :=
  done (match (s.bank b.val).testAt with
    | some t => (((s.advanceTo (t + 30000)).modBank b.val fun x => { x with testAt := none }).shutRelease b.val 5).shutClose b.val
    | none => s)

/-- With no request left and every switch off, the Shutter closes; the rail must reach the bank supply less 1 V (R279). -/
def execShutterClose (b : Fin 24) (supply rail : BitVec 16) (s : State) : Host.Outcome State Fault Refusal :=
  let s0 := match (s.bank b.val).retryAt with
    | some t => s.advanceTo t
    | none => s
  let s1 := (s0.setFld (rBank_V_BANK b.val) 0 16 supply.toNat).setFld (rBank_V_RAIL b.val) 0 16 rail.toNat
  let s2 := s1.shutClose b.val
  done (if s2.bit (rBank_BK_STAT b.val) 0 && asSigned 16 supply.toNat - 100 ≤ asSigned 16 rail.toNat then
      s2.modBank b.val fun x => { x with rising := none }
    else if s.shutAsked b.val || s.bit (rBank_BK_STAT b.val) 0 || !s.bankOff b.val then s
    else s2)

/-- CLOSE_FAIL: the Shutter opens for 1 s (R279). -/
def State.shutFail (s : State) (b : Nat) : State :=
  ((s.raise (769 + 2 * b) 2 b).shutDrop b).modBank b fun x => { x with rising := none, retryAt := some (s.now + ms 1000) }

/-- The rail has not risen within 2 ms (R279). -/
def execShutterCloseFail (b : Fin 24) (s : State) : Host.Outcome State Fault Refusal :=
  done (match (s.bank b.val).rising with
    | some t =>
      if s.bit (rBank_BK_STAT b.val) 0 then
        (s.advanceTo (t + ms 2)).shutFail b.val
      else s
    | none => s)

/-- CLR_LATCH of a bank: the hold of a stuck Shutter ends and a test runs at once; only a passing test releases the outputs.
With another request present no test can be made, and the hold stays (log 37). -/
def State.bankClr (s : State) (b : Nat) (rail fall ron : BitVec 16) : State :=
  if s.bit (rBank_BK_STAT b) 6 && s.fld (rBank_BK_STAT b) 1 5 = 0 then
    let s1 := (s.shutRelease b 6).modBank b fun x => { x with sl := x.sl.filter (·.1 ≠ 1) }
    s1.shutTest b rail fall ron
  else s

/-- A write of BANK.CMD. -/
def State.bankCmd (s : State) (m : Master) (b : Nat) (v : Word) (rail fall ron : BitVec 16) : State :=
  s.regCmd m (rBank_CMD b) fun x =>
    let y := if natBit v.toNat 0 then x.bankClr b rail fall ron else x
    if natBit v.toNat 1 then y.modBank b fun z => { z with testReq := true } else y

def execBankClrLatch (m : Master) (b : Fin 24) (rail fall ron : BitVec 16) (s : State) : Host.Outcome State Fault Refusal :=
  done (s.bankCmd m b.val 1 rail fall ron)
def execBankShutTest (m : Master) (b : Fin 24) (s : State) : Host.Outcome State Fault Refusal := done (s.bankCmd m b.val 2 0 0 0)

/-! Supply (R286, R287) and the isolated link (R511) -/

/-- The kind of a bank supply out of range: 1 UV, 2 OV, 3 REVERSED, by the voltage, 10 mV; 0 in range (R286). -/
def supplyKind (v : BitVec 16) : Nat :=
  let x := asSigned 16 v.toNat
  if x < -100 then 3 else if x < 1800 then 1 else if 3200 < x then 2 else 0

/-- A bank's supply reads `v`: out of range it raises its kind and requests the Shutter. -/
def State.supplyRead (s : State) (b : Nat) (v : BitVec 16) : State :=
  let s1 := s.setFld (rBank_V_BANK b) 0 16 v.toNat
  if supplyKind v = 0 then s1 else (s1.healthHere b (supplyKind v)).shutRequest b 4

/-- The bank supply is out of range: UV, OV or REVERSED. -/
def execBankSupplyFault (b : Fin 24) (v : BitVec 16) (s : State) : Host.Outcome State Fault Refusal := done (s.supplyRead b.val v)

/-- In range for 100 ms: the supply fault clears. -/
def execBankSupplyClear (b : Fin 24) (v : BitVec 16) (s : State) : Host.Outcome State Fault Refusal :=
  let x := asSigned 16 v.toNat
  let s1 := s.setFld (rBank_V_BANK b.val) 0 16 v.toNat
  done (if 1900 ≤ x && x ≤ 3100 then (((s1.healthEnd b.val 1).healthEnd b.val 2).healthEnd b.val 3).shutRelease b.val 4 else s1)

/-- The group's current exceeds 10.0 A for 100 ms: `i`, 1 mA. -/
def execGroupCurrent (g : Fin 4) (i : BitVec 16) (s : State) : Host.Outcome State Fault Refusal :=
  let s1 := s.each (List.range 6) fun x k => x.setFld (rBank_I_GROUP (6 * g.val + k)) 0 16 i.toNat
  done (if 10000 < i.toNat then s1.raise (768 + 2 * (6 * g.val)) 4 (6 * g.val) else s1)

/-- The refresh of a group's isolated link is missing for 20 µs: the field side opens its switches (R511), and FIELD_LINK trips (R457). -/
def execFieldLinkLoss (g : Fin 4) (s : State) : Host.Outcome State Fault Refusal :=
  let chans := (List.range 48).map fun k => 48 * g.val + k
  let s1 := s.each chans fun x n => if x.isDo n && x.swIsOn n then x.swOff n (BitVec.ofNat 16 (x.fld (rCh_RON n) 0 16)) else x
  let s2 := s1.each (List.range 6) fun x k => x.shutDrop (6 * g.val + k)
  done (s2.when s.dev.vlogValid fun x => x.critical (14 + g.val) 0)

end Sys2Proof.Machine
end

