-- ==== Sys2Proof/Machine/Analogue.lean ====
section
/-! DEFINITION. Analogue channels: the conversion sequence (R299 to R301), readings, cross-check, bands, faults (R297, R298,
R302 to R304), output read-back (R307), trim (R309 to R311), loop supply (R315). -/

namespace Sys2Proof.Machine

open Sys2Proof

/-- The nearest integer to a / b, halves upwards. -/
def roundDiv (a b : Int) : Int := if b < 0 then (-b - 2 * a) / (-2 * b) else (2 * a + b) / (2 * b)

/-! The sequence (R299) -/

/-- An analogue input that is converted. -/
def State.isAi (s : State) (n : Nat) : Bool := 8 ≤ s.role n && s.role n ≤ 11

def State.anRange (s : State) (n : Nat) : Nat := s.fld (rCh_AN_CFG n) 0 3
def State.anWires (s : State) (n : Nat) : Nat := s.fld (rCh_AN_CFG n) 4 2

/-- T_conv of a rate, ticks; a reserved rate counts as the longest (log 36). -/
def convTicks (r : Nat) : Nat :=
  match r with
  | 0 => 25000 | 1 => 100000 | 2 => 500000 | 3 => 2000000 | _ => 10000000

/-- The slot time of a channel, ticks: two slots for a 3-wire RTD. -/
def State.slotTicks (s : State) (n : Nat) : Nat :=
  (convTicks (s.fld (rCh_AN_CFG n) 8 3) + 5000) * (if s.role n = 10 && s.anWires n = 1 then 2 else 1)

/-- The channels of a bank's sequence, in order. -/
def State.seqChans (s : State) (b : Nat) : List Nat := ((List.range 8).map (8 * b + ·)).filter s.isAi

/-- The sequence length L, ticks. -/
def State.seqTicks (s : State) (b : Nat) : Nat := (s.seqChans b).foldl (fun t n => t + s.slotTicks n) 30000

/-- Does the bank run sequences: it has analogue channels to convert or to check, or comparators that stand on its references (R299, R301;
log 136)? -/
def State.seqUsed (s : State) (b : Nat) : Bool := anyBelow 8 fun c => s.role (8 * b + c) = 1 || (8 ≤ s.role (8 * b + c) && s.role (8 * b + c) ≤ 14)

/-- CONV_STAT shows the sequence. -/
def State.seqShow (s : State) (b : Nat) : State :=
  match (s.bank b).todo with
  | n :: _ => (s.setBit (rBank_CONV_STAT b) 3 true).setFld (rBank_CONV_STAT b) 4 3 (n % 8)
  | [] => s.setBit (rBank_CONV_STAT b) 3 false

/-- A converter condition begins, is absent, or clears after 100 ms of passing checks (R301). -/
def State.convCond (s : State) (b k : Nat) (bad : Bool) : State :=
  if bad then s.healthHere b k
  else
    match ((s.bank b).hl.find? (·.1 = k)) with
    | some (_, some t) => if t + ms 100 ≤ s.now then s.healthEnd b k else s
    | some (_, none) => s.modBank b fun x => { x with hl := markGone x.hl k s.now }
    | none => s

/-- The reference check: drift in ppm, and whether each converter's own zero lies within ±0.5 % (R301). -/
def State.refCheck (s : State) (b : Nat) (drift : BitVec 16) (mainOk sarOk : Bool) : State :=
  let d := asSigned 16 drift.toNat
  let s1 := s.setFld (rBank_REF_DRIFT b) 0 16 drift.toNat
  let s2 := s1.setFld (rBank_REF_DRIFT_MAX b) 0 16 (max (s1.fld (rBank_REF_DRIFT_MAX b) 0 16) d.natAbs)
  let refOk : Bool := d.natAbs ≤ 5000
  let s3 := ((s2.setBit (rBank_CONV_STAT b) 0 mainOk).setBit (rBank_CONV_STAT b) 1 sarOk).setBit (rBank_CONV_STAT b) 2 refOk
  let s4 := ((s3.convCond b 16 (!refOk)).convCond b 17 (!mainOk)).convCond b 18 (!sarOk)
  -- every DI comparator pair of the bank is reported as R258 states
  let dis := ((List.range 8).map (8 * b + ·)).filter fun n => s.role n = 1
  if s4.convBad b then s4.each dis fun x n => x.chHere n 1 true else s4

/-- A conversion sequence starts with its reference check. A trigger during a sequence is ignored: SEQ_OVERRUN. -/
def execAnalogSeqStart (b : Fin 24) (drift : BitVec 16) (mainOk sarOk : Bool) (s : State) : Host.Outcome State Fault Refusal :=
  let trig := s.bit (rBank_SEQ_CFG b.val) 0
  let x := s.bank b.val
  let fired := (s.timer (s.fld (rBank_SEQ_CFG b.val) 1 6)).fired
  done (if !s.fieldLive || !s.seqUsed b.val || (trig && fired ≤ x.seen) then s
    else
      let s1 := if trig then s.modBank b.val fun y => { y with seen := y.seen + 1 } else s.advanceTo x.slotAt
      if !x.todo.isEmpty || s1.now < x.slotAt then
        if trig then (s1.bump (rBank_SEQ_OVR_CNT b.val)).raise (768 + 2 * b.val) 19 b.val else s1
      else
        let s2 := s1.modBank b.val fun y => { y with todo := s1.seqChans b.val, slotAt := s1.now + 30000 }
        (s2.refCheck b.val drift mainOk sarOk).seqShow b.val)

/-! Readings (R297 to R304) -/

/-- The electrical span of a channel in the units of `Conv` (R297). -/
def State.eSpan (s : State) (n : Nat) : Int :=
  match s.role n with
  | 8 => if s.anRange n = 0 then 10000000 else 20000000
  | 9 => if s.anRange n = 0 then 20000000 else 16000000
  | 10 => if s.anRange n = 0 then 400000 else 4000000
  | _ => 800000

/-- The span in v units (R297). -/
def State.vSpan (s : State) (n : Nat) : Int :=
  match s.role n with
  | 8 => if s.anRange n = 0 then 10000 else 20000
  | 9 => if s.anRange n = 0 then 20000 else 16000
  | _ => 4000

/-- Is the value two's complement (R297)? -/
def State.anSigned (s : State) (n : Nat) : Bool := (s.role n = 8 && s.anRange n ≠ 0) || s.role n = 10 || s.role n = 11

/-- Measurement range in v units (R297); the 4–20 mA range has the bands of R298 instead. -/
def State.inRange (s : State) (n : Nat) (x : Int) : Bool :=
  match s.role n, s.anRange n with
  | 8, 0 => -100 ≤ x && x ≤ 10500
  | 8, _ => -10500 ≤ x && x ≤ 10500
  | 9, 0 => 0 ≤ x && x ≤ 21000
  | 9, _ => true
  | 10, _ => -2000 ≤ x && x ≤ 8500
  | _, 0 => -2000 ≤ x && x ≤ 12000
  | _, 1 => -2000 ≤ x && x ≤ 13700
  | _, 2 => -2000 ≤ x && x ≤ 4000
  | _, _ => -2000 ≤ x && x ≤ 13000

/-- The trim in force: OFF, Z, G (R309, R317). -/
def State.trim (s : State) (n : Nat) : Int × Nat × Int :=
  (asSigned 16 (s.fld (rCh_TRIM_OFF n) 0 16), s.fld (rCh_TRIM_OFF n) 16 16, asSigned 32 (s.rd (rCh_TRIM_GAIN n)).toNat)

/-- A 16-bit pattern as the channel's value. -/
def State.asV (s : State) (n v : Nat) : Int := if s.anSigned n then asSigned 16 v else (v % 65536 : Nat)

/-- The written value of a reading (R309). -/
def State.trimmed (s : State) (n : Nat) (t : Int × Nat × Int) (x : Int) : Int :=
  let z := s.asV n t.2.1
  roundDiv (z * 1000000 + (x + t.1 - z) * (1000000 + t.2.2)) 1000000

/-- Cold-junction temperature: the CJ channel's last written value, if GOOD and no older than 1 s (R303). -/
def State.cold (s : State) (n : Nat) : Option Int :=
  let k := s.fld (rCh_AN_CFG n) 16 8
  match s.bound k with
  | some (v, q) => if k < 192 && q = .good && ageAt s.sf (s.imgRd (8 * k)) ≤ 16000 then some (asSigned 16 v) else none
  | none => none

/-- NE 43 band of a current in nA: 0 measurement, 1 warning low, 2 warning high, 3 failure (R298). -/
def ne43 (i : Int) : Nat :=
  if i < 3600000 then 3 else if i < 3800000 then 1 else if i ≤ 20500000 then 0 else if i ≤ 21000000 then 2 else 3

/-- Rank of a band, the worst highest. -/
def bandRank (b : Nat) : Nat := if b = 3 then 2 else if b = 0 then 0 else 1

/-- A channel moves to a worse band at once, to a better one after 100 ms of readings in it (R298). -/
def State.bandStep (s : State) (n : Nat) (i : Int) : State :=
  let now := ne43 i
  let cur := s.fld (rCh_AN_STAT n) 0 2
  let go (x : State) : State :=
    let y := (x.setFld (rCh_AN_STAT n) 0 2 now).modCh n fun c => { c with better := none }
    let z := y.evRaw (0x100 + n) 16 (now = 1 || now = 2)
    if now = 3 then z else (z.chEnd n 16 true).chEnd n 17 true
  let s1 := if bandRank now < bandRank cur then
      match (s.ch n).better with
      | some (b, t) => if b = now then (if t + ms 100 ≤ s.now then go s else s)
          else s.modCh n fun c => { c with better := some (now, s.now) }
      | none => s.modCh n fun c => { c with better := some (now, s.now) }
    else if now = cur then s.modCh n fun c => { c with better := none }
    else go s
  let s2 := s1.chCond n 16 false (i < 500000)
  if 500000 ≤ i && i < 3600000 then s2.chHere n 16 true else if 21000000 < i then s2.chHere n 17 true else s2

/-- The cross-check of a conversion: AI_XCHK at the third in a row that differs by more than 1.0 % of the span, ended by the tenth
in a row that agrees (R302). -/
def State.crossStep (s : State) (n : Nat) (d : Int) : State :=
  let span := s.eSpan n
  let s1 := s.setFld (rCh_XCHK_MAX n) 0 16 (max (s.fld (rCh_XCHK_MAX n) 0 16) (min (d.natAbs * 100000 / span.natAbs) 65535))
  if span < 100 * (d.natAbs : Int) then
    let s2 := s1.modCh n fun c => { c with xBad := c.xBad + 1, xGood := 0 }
    if 3 ≤ (s2.ch n).xBad then s2.chHere n 19 true else s2
  else
    let s2 := s1.modCh n fun c => { c with xBad := 0, xGood := c.xGood + 1 }
    if 10 ≤ (s2.ch n).xGood then s2.chEnd n 19 true else s2

/-- The wiring conditions of a conversion (R303, R304). `r` is the element's resistance. -/
def State.anWiring (s : State) (n : Nat) (r lead burn : Int) : State :=
  let k := if s.anRange n = 0 then 1 else 10
  match s.role n with
  | 10 =>
    let s1 := (s.chCond n 16 false (400000 * k < r)).chCond n 17 false (r < 17000 * k)
    if s.anWires n = 0 then s1
    else s1.chCond n 19 false (100000 < lead || hasKind (s.ch (n + 1)).wl 8)
  | 11 => if s.bit (rCh_AN_CFG n) 12 then s.chCond n 16 false (100000 < burn) else s
  | _ => s

/-- The word of a conversion: reading `x` where there is one, trim `t` (R298, R300 to R304, R309). A value outside the type's 16 bits is
free (log 34). -/
def State.anWord (s : State) (n : Nat) (x : Option Int) (t : Int × Nat × Int) : (Nat × Qual) × State :=
  let band := if s.role n = 9 && s.anRange n ≠ 0 then s.fld (rCh_AN_STAT n) 0 2 else 0
  match x with
  | some x =>
    if s.chFault n || s.srcFault n || s.convBad (n / 8) || band = 3 then ((0, .fault), s)
    else if band ≠ 0 then ((0, .subst), s)
    else
      let y := s.trimmed n t x
      if (if s.anSigned n then -32768 ≤ y && y ≤ 32767 else 0 ≤ y && y ≤ 65535) then ((ofSigned 16 y, .good), s)
      else ((natBits s.freeVal.toNat 0 16, .good), s.useFree)
  | none => ((0, .fault), s)

/-- A conversion of a channel ends. -/
def State.convEnd (s : State) (n : Nat) (c : Conv) : State :=
  let int (v : BitVec 32) : Int := asSigned 32 v.toNat
  let lead := int c.lead
  let sub := if s.role n = 10 && s.anWires n = 1 then lead else 0
  let q := int c.q - sub
  let s1 := (s.wrN (rCh_RAW_MAIN n) c.main.toNat).wrN (rCh_RAW_SAR n) c.sar.toNat
  let s2 := (s1.crossStep n (int c.q - int c.qs)).anWiring n q lead (int c.burn)
  let s3 := if s2.role n = 9 && s2.anRange n ≠ 0 then s2.bandStep n (int c.q) else s2
  let two := if s3.role n = 10 && s3.anWires n = 0 then q - s3.fld (rCh_LEAD_R n) 0 16 else q
  let (x, s4) := match s3.role n with
    | 10 => (some (Config.rtdCurve (s3.anRange n) two), s3)
    | 11 => match s3.cold n with
      | some cj => (some (Config.tcCurve (s3.anRange n) q cj), s3.setFld (rCh_CJ_USED n) 0 16 (ofSigned 16 cj))
      | none => (none, s3.chRaise n 21 true)
    | _ => (some (roundDiv q 1000), s3)
  let (x2, s5) := match x with
    | some v => if s4.inRange n v then (some v, s4) else (none, s4.chRaise n 18 true)
    | none => (none, s4)
  let t := ((s5.ch n).useTrim).getD (s5.trim n)
  let (w, s6) := s5.anWord n x2 t
  let slot := (s6.bank (n / 8)).slotAt
  let s7 := s6.modCh n fun y => { y with
    word := w
    x := if w.2 = .good then x2 else none
    useTrim := none
    trimAt := match y.trimAt with
      | some a => if a ≤ slot then none else some a
      | none => none }
  s7.produce n w.1 w.2

/-- An input slot ends: the channel in conversion writes its word, the next slot starts. -/
def execAnalogSlotEnd (b : Fin 24) (c : Conv) (s : State) : Host.Outcome State Fault Refusal :=
  done (match (s.bank b.val).todo with
    | n :: rest =>
      if s.fieldLive then
        let s1 := s.advanceTo ((s.bank b.val).slotAt + s.slotTicks n)
        ((s1.convEnd n c).modBank b.val fun x => { x with todo := rest, slotAt := s1.now }).seqShow b.val
      else s
    | [] => s)

/-! Outputs (R307) -/

/-- The read-back span limit of an output, v units: 0.5 % of span (R307). -/
def State.aoLimit (s : State) (n : Nat) : Nat := if s.role n = 14 then 50 else if s.bit (rCh_AO_CFG n) 9 then 80 else 100

/-- Does a measurement differ by more than the limit from the value commanded 1,000 µs, ten measurements, earlier (R307)? -/
def aoBad (limit v : Nat) : List Nat → Bool
  | c :: _ => decide (limit < max c v - min c v)
  | [] => false

/-- The SAR measures an output: `v` in v units; at its compliance limit for 10 ms; AO_V at its current limit. -/
def execAoReadbackMeasure (n : Fin 192) (v : BitVec 16) (compliance limit : Bool) (s : State) : Host.Outcome State Fault Refusal :=
  done (if !s.fieldLive || !(s.role n.val = 13 || s.role n.val = 14) then s
    else
      let s1 := s.advanceTo ((s.ch n.val).measAt + 10000)
      let cmd := s1.fld (rCh_AO_CMD n.val) 0 16
      let hist : List Nat := cmd :: (s1.ch n.val).aoHist
      let bad := aoBad (s.aoLimit n.val) v.toNat (hist.drop 10)
      let s2 := s1.modCh n.val fun y => { y with
        meas := v.toNat
        measAt := s1.now
        aoHist := hist.take 10
        aoDiff := if bad then some (y.aoDiff.getD s1.now) else none }
      let s3 := if s2.role n.val = 13 then s2.chCond n.val 18 false (compliance && 1000 ≤ cmd)
        else (s2.modCh n.val fun c => { c with limited := limit }).miswire n.val
      match (s3.ch n.val).aoDiff with
      | some t => if t + ms 200 < s3.now && !hasKind (s3.ch n.val).wl 18 then s3.chBack n.val 20 true else s3
      | none => s3.chGone n.val 20 true)

/-! Loop supply (R315) -/

/-- An AI_I loop supply held at its limit for 10 ms folds back. -/
def execLoopSupplyFoldback (n : Fin 192) (s : State) : Host.Outcome State Fault Refusal :=
  done (if s.fieldLive && s.role n.val = 9 && s.bit (rCh_AN_CFG n.val) 11 && (s.ch n.val).fold.isNone then
      (s.modCh n.val fun c => { c with fold := some s.now }).miswire n.val
    else s)

/-- It retries at the full limit; `held`: it is at the limit again for 10 ms. -/
def execLoopSupplyRetry (n : Fin 192) (held : Bool) (s : State) : Host.Outcome State Fault Refusal :=
  done (match (s.ch n.val).fold with
    | some t =>
      let s1 := s.advanceTo (t + ms 1000)
      if held then s1.modCh n.val fun c => { c with fold := some s1.now }
      else (s1.modCh n.val fun c => { c with fold := none }).miswire n.val
    | none => s)

/-! Trim (R309 to R311) -/

/-- Is a conversion of the channel in progress, started at or after `t`? -/
def State.converting (s : State) (n t : Nat) : Bool :=
  match (s.bank (n / 8)).todo with
  | k :: _ => k = n && (s.bank (n / 8)).slotAt ≤ s.now && t ≤ (s.bank (n / 8)).slotAt
  | [] => false

/-- The trim an operation gives: OP 1 ZERO, 2 SPAN, 3 CLEAR, with its reference; each needs a reading that was a measurement (R309). -/
def State.trimOf (s : State) (n op ref : Nat) : Except Nat (Int × Nat × Int) :=
  let (off, z, g) := s.trim n
  match (s.ch n).x with
    | none => .error 1
    | some x =>
      if op = 3 then .ok (0, 0, 0)
      else if op = 1 then
        let o := s.asV n ref - x
        if s.vSpan n < 50 * (o.natAbs : Int) then .error 2 else .ok (o, ref, g)
      else
        let d := x + off - s.asV n z
        if 10 * (d.natAbs : Int) < s.vSpan n then .error 2
        else
          let g2 := roundDiv ((s.asV n ref - s.asV n z) * 1000000) d - 1000000
          if 50000 < g2.natAbs then .error 2 else .ok (off, z, g2)

/-- DETAIL of a trim's change-log entry: old OFF, Z, G, then new (R448). -/
def trimDetail (a b : Int × Nat × Int) : List Byte :=
  let one (t : Int × Nat × Int) : List Byte := natLe 2 (ofSigned 16 t.1) ++ natLe 2 t.2.1 ++ natLe 4 (ofSigned 32 t.2.2)
  one a ++ one b

/-- A trim operation by a role, with its gate `ok` of R431; accepted, it takes effect with its change-log entry (R449). `same`: a command for
the channel arrives in the same CLK_PER cycle as this button (R310). -/
def State.trimOp (s : State) (n op ref role part mst : Nat) (button same ok : Bool) : State :=
  let res (x : State) (r : Nat) : State := x.wrN (rCh_TRIM_STAT n) (r + 8 * b2n button)
  let busy := match (s.ch n).trimAt with
    | some a => !s.converting n a
    | none => false
  let old := s.trim n
  let refuse (r : Nat) : State := (res s r).clogNote role part mst r (0x50 + (op - 1)) n (trimDetail old old)
  if !ok || !s.isAi n then refuse 4
  else if busy || same then refuse 3
  else match s.trimOf n op ref with
    | .error r => refuse r
    | .ok t =>
      (s.modCh n fun c => { c with trimAt := some s.now }).clogGuard role part mst (0x50 + (op - 1)) n (trimDetail old t)
        (.trim n t.1 t.2.1 t.2.2 button)

/-- The entry is in flash: the trim takes effect from the next conversion to start (R309, R449). -/
def State.trimDone (s : State) (n : Nat) (t : Int × Nat × Int) (button : Bool) : State :=
  let s1 := if s.converting n 0 then s.modCh n fun c => { c with useTrim := some (c.useTrim.getD (s.trim n)) } else s
  let s2 := (s1.wrN (rCh_TRIM_OFF n) (ofSigned 16 t.1 + 65536 * t.2.1)).wrN (rCh_TRIM_GAIN n) (ofSigned 32 t.2.2)
  (s2.modCfg fun c => { c with trims := Tab.set (fun _ => none) c.trims n (some (s2.rd (rCh_TRIM_OFF n), s2.rd (rCh_TRIM_GAIN n))) }).setFld
    (rCh_TRIM_STAT n) 0 4 (8 * b2n button)

/-- A write of CH.TRIM_CMD. -/
def State.trimCmd (s : State) (m : Master) (n : Nat) (v : Word) : State :=
  s.regCmd m (rCh_TRIM_CMD n) fun x =>
    let op := natBits v.toNat 0 2
    if op = 0 then x
    else x.trimOp n op (natBits v.toNat 16 16) (x.clogRole m) (x.sess m).part (masterNum m) false false
      (x.lcProvDep && (x.modeIs .sync || x.modeIs .operate || x.modeIs .harebell))

def execTrimZero (m : Master) (n : Fin 192) (ref : BitVec 16) (s : State) : Host.Outcome State Fault Refusal :=
  done (s.trimCmd m n.val (BitVec.ofNat 32 (1 + 65536 * ref.toNat)))
def execTrimSpan (m : Master) (n : Fin 192) (ref : BitVec 16) (s : State) : Host.Outcome State Fault Refusal :=
  done (s.trimCmd m n.val (BitVec.ofNat 32 (2 + 65536 * ref.toNat)))
def execTrimClear (m : Master) (n : Fin 192) (s : State) : Host.Outcome State Fault Refusal := done (s.trimCmd m n.val 3)

/-- Release of the ZERO or SPAN button of an analogue input after a press of 2 s to 10 s; outside the gate of R431 it does not count. -/
def execTrimButton (n : Fin 192) (press : TrimPress) (s : State) : Host.Outcome State Fault Refusal :=
  let span := press.span
  let k := s.fld (rCh_TRIM_BTN n.val) (8 * b2n span) 8
  let own := s.chOwner n.val
  done (match (s.ch k).press with
    | some (t, len) =>
      if k < 192 && s.role k = 1 && (s.ch n.val).pressUsed < t + 1 && ms 2000 ≤ len && len ≤ ms 10000 then
        let p := own.getD 0
        let ok := s.lcProvDep && s.modeIs .operate && own.isSome && s.ptMode p = 2 && s.chOwner k = own
        let s1 := s.modCh n.val fun c => { c with pressUsed := t + 1 }
        if ok then s1.trimOp n.val (1 + b2n span) (s.fld (rCh_TRIM_REFS n.val) (16 * b2n span) 16) 3 p 4 true press.same true else s1
      else s
    | none => s)

end Sys2Proof.Machine
end

