-- ==== Sys2Proof/Machine/FbOps.lean ====
section
/-! DEFINITION. Function blocks: the instance record (R199), acceptance of inputs (R197), the monitored reset (R206, R207),
intervals (R198), lock-out (R208 to R210) and the invocation all FB commands share (R122, R196). -/

namespace Sys2Proof.Machine

open Sys2Proof

/-- An instance record (R199). Intervals hold 0 while they do not run; no slot time is 0 (R89 rule 3). -/
structure FbRec where
  code : Nat
  profile : Nat
  st : Nat
  bothSeen : Bool
  sutDone : Bool
  rstHeld : Bool
  lo : Bool
  rstStuck : Bool
  aux : Bool
  t1 : Nat
  t2 : Nat
  cfg : Nat
  rstT : Nat
  tDisc : Nat
  tA : Nat
  tB : Nat
  tC : Nat
  w0 : Nat
  w1 : Nat
  w2 : Nat
  w3 : Nat
  t3 : Nat
  diag : Nat
  loCnt : Nat
deriving DecidableEq, Repr

/-- Bytes [o + n − 1 : o] of a record, little-endian. -/
def bytesAt (b : List Byte) (o n : Nat) : Nat := leNat ((b.drop o).take n)

/-- The record 64 bytes hold. -/
def fbRec (b : List Byte) : FbRec :=
  let f := bytesAt b 3 1
  { code := bytesAt b 0 1, profile := bytesAt b 1 1, st := bytesAt b 2 1
    bothSeen := natBit f 0, sutDone := natBit f 1, rstHeld := natBit f 2, lo := natBit f 3, rstStuck := natBit f 4
    aux := natBit f 5, t1 := bytesAt b 4 8, t2 := bytesAt b 12 8, cfg := bytesAt b 20 2, rstT := bytesAt b 22 2
    tDisc := bytesAt b 24 2, tA := bytesAt b 26 2, tB := bytesAt b 28 2, tC := bytesAt b 30 2
    w0 := bytesAt b 32 4, w1 := bytesAt b 36 4, w2 := bytesAt b 40 4, w3 := bytesAt b 44 4
    t3 := bytesAt b 48 8, diag := bytesAt b 56 2, loCnt := bytesAt b 58 2 }

/-- The 64 bytes of a record with its RCRC. -/
def fbBytes (r : FbRec) : List Byte :=
  let f := b2n r.bothSeen + 2 * b2n r.sutDone + 4 * b2n r.rstHeld + 8 * b2n r.lo + 16 * b2n r.rstStuck + 32 * b2n r.aux
  let body := natLe 1 r.code ++ natLe 1 r.profile ++ natLe 1 r.st ++ natLe 1 f ++ natLe 8 r.t1 ++ natLe 8 r.t2
    ++ natLe 2 r.cfg ++ natLe 2 r.rstT ++ natLe 2 r.tDisc ++ natLe 2 r.tA ++ natLe 2 r.tB ++ natLe 2 r.tC
    ++ natLe 4 r.w0 ++ natLe 4 r.w1 ++ natLe 4 r.w2 ++ natLe 4 r.w3 ++ natLe 8 r.t3 ++ natLe 2 r.diag ++ natLe 2 r.loCnt
  body ++ natLe 4 (crc32c body).toNat

/-- RCRC (R135). -/
def fbRecOk (b : List Byte) : Bool := decide (bytesAt b 60 4 = (crc32c (b.take 60)).toNat)

/-- Common CFG bits (R199). -/
def FbRec.antiv (r : FbRec) : Bool := natBit r.cfg 0
def FbRec.mreset (r : FbRec) : Bool := natBit r.cfg 1
def FbRec.sut (r : FbRec) : Bool := natBit r.cfg 2
def FbRec.accSubst (r : FbRec) : Bool := natBit r.cfg 3
def FbRec.cmdRst (r : FbRec) : Bool := natBit r.cfg 4
def FbRec.signed (r : FbRec) : Bool := natBit r.cfg 5
def FbRec.opt8 (r : FbRec) : Bool := natBit r.cfg 8
def FbRec.opt9 (r : FbRec) : Bool := natBit r.cfg 9

/-- A 16-bit value of a W word or an input, by CFG.SIGNED (R199). -/
def FbRec.num (r : FbRec) (v : Nat) : Int := if r.signed then asSigned 16 v else ((v % 65536 : Nat) : Int)

/-- The first invocation after R106: no block writes DIAG = 0 after it (R211). -/
def FbRec.first (r : FbRec) : Bool := decide (r.diag = 0)

/-- An input: none where the instance does not read it (R196). -/
abbrev FbIn := Option (Nat × Qual)

/-- What one invocation sees: inputs in the order of R212, slot time, superframe count, a held FN_RESET (R207). -/
structure FbEnv where
  ins : List FbIn
  t : Nat
  sf : Nat
  cmd : Bool
deriving DecidableEq, Repr

def FbEnv.inp (e : FbEnv) (k : Nat) : FbIn := e.ins.getD k none

/-- Taken at its value: GOOD or FORCED (R197). -/
def inLive : FbIn → Bool
  | some (_, q) => qualLive q
  | none => false

/-- Accepted (R197). -/
def inAcc (r : FbRec) : FbIn → Bool
  | some (_, q) => qualLive q || (q = .subst && r.accSubst)
  | none => true

/-- Active: taken at its value, and v ≠ 0; every input not so taken is at its safe state (R197). -/
def inOn : FbIn → Bool
  | some (v, q) => qualLive q && decide (v ≠ 0)
  | none => false

/-- Taken at its value, v = 1. -/
def inOne : FbIn → Bool
  | some (v, q) => qualLive q && decide (v = 1)
  | none => false

/-- Taken at its value, v = 0. -/
def inZero : FbIn → Bool
  | some (v, q) => qualLive q && decide (v = 0)
  | none => false

/-- At QUAL FAULT (R204). -/
def inFault : FbIn → Bool
  | some (_, q) => q = .fault
  | none => false

/-- v of an input taken at its value, else 0. -/
def inVal : FbIn → Nat
  | some (v, q) => safeV v q
  | none => 0

/-- An input at QUAL FAULT is read. -/
def FbEnv.faulted (e : FbEnv) : Bool := e.ins.any inFault

/-- Some input read is not accepted. -/
def FbEnv.unavail (e : FbEnv) (r : FbRec) (ks : List Nat) : Bool := ks.any fun k => !inAcc r (e.inp k)

/-- Worst quality of the inputs read; an accepted SUBST does not lower it (R197). -/
def FbEnv.qual (e : FbEnv) (r : FbRec) : Qual :=
  qualWorst (e.ins.filterMap fun i => i.map fun x => if x.2 = .subst && r.accSubst then .good else x.2)

/-- Has an interval of `n` units of `u` ticks that began at `t0` elapsed (R198)? -/
def elapsed (t0 t n u : Nat) : Bool := decide (n * u ≤ t - t0)

/-- Ticks of 1 ms. -/
def msTicks : Nat := 100000

/-- A reset seen at an invocation (R206, R207): is it valid, and does DIAG read RESET_STUCK? -/
structure RstOut where
  r : FbRec
  valid : Bool
  stuck : Bool
deriving DecidableEq, Repr

/-- One invocation of the monitored reset (R206) with the command of R207. -/
def rstStep (r : FbRec) (x : FbIn) (t : Nat) (cmd : Bool) : RstOut :=
  let now := t / 10000 % 65536
  let dur := (now + 65536 - r.rstT) % 65536
  if inOn x then
    if r.first then ⟨{ r with rstHeld := true, rstStuck := true, rstT := now }, cmd, false⟩
    else if !r.rstHeld then ⟨{ r with rstHeld := true, rstT := now }, cmd, false⟩
    else if decide (50000 < dur) || (r.rstStuck && decide (r.diag = 8)) then ⟨{ r with rstStuck := true }, cmd, true⟩
    else ⟨r, cmd, false⟩
  else
    let good := r.rstHeld && !r.rstStuck && inAcc r x && x.isSome && decide (1000 ≤ dur) && decide (dur ≤ 50000)
    ⟨{ r with rstHeld := false, rstStuck := false }, good || cmd, false⟩

/-- Start or stop an interval: it runs while `b` holds. -/
def runT (b : Bool) (t0 t : Nat) : Nat := if !b then 0 else if t0 = 0 then t else t0

/-- Enter LOCKOUT (R209). -/
def FbRec.lockout (r : FbRec) (st diag : Nat) : FbRec :=
  { r with st := st, diag := diag, lo := true, loCnt := satAdd 16 r.loCnt 1 }

/-- Leave LOCKOUT (R208). -/
def FbRec.leave (r : FbRec) (st diag : Nat) : FbRec := { r with st := st, diag := diag, lo := false }

/-- What a block gives: its record, outputs from Cd upward with their quality, and an arm time (R227). -/
structure FbOut where
  r : FbRec
  outs : List (Nat × Qual)
  arm : Option Nat
deriving DecidableEq, Repr

/-- Q, DIAG, RREQ and further outputs (R197, R212). -/
def fbQ (e : FbEnv) (r : FbRec) (q rreq : Bool) (extra : List Bool) : FbOut :=
  let k := e.qual r
  ⟨r, [(b2n q, k), (r.diag, .good), (b2n rreq, .good)] ++ extra.map (fun b => (b2n b, k)), none⟩

/-- Q and DIAG (R212). -/
def fbQ2 (e : FbEnv) (r : FbRec) (q : Nat) : FbOut := ⟨r, [(q, e.qual r), (r.diag, .good)], none⟩

/-- Read the coded inputs in use; none where one fails its check (R110, R196). -/
def State.fbInputs (s : State) (u a n : Nat) (used : Nat → Bool) : Option (List FbIn) :=
  (List.range n).foldr (fun k acc =>
    match acc with
    | none => none
    | some l => if used k then (s.readC u (a + k)).map fun x => some x :: l else some (none :: l)) (some [])

/-- Is an FN_RESET command held for an instance (R207)? -/
def State.fnHeld (s : State) (p i : Nat) : Bool :=
  (s.part p).fnReset.any fun x => decide (x.1 = i) && decide (s.now < x.2 + 100000000)

/-- Write a block's outputs from Cd upward, each through the result check (R110, R122). -/
def State.fbOutputs (s : State) (u d : Nat) (outs : List (Nat × Qual)) : Res :=
  (List.range outs.length).foldl (fun y k => y.andThen fun z =>
    match outs[k]? with
    | some (v, q) => z.writeC u (d + k) v q
    | none => (z, none)) (s, none)

/-- FB of block `code` on instance `i` with `nIn` inputs from `a` and `nOut` outputs from `d`. `used` says which inputs the
record uses, `bad` is an internal fault of the unit (R122). R142 gives a function-block fault no place in the order of exceptions:
it comes after the window and before the code check of the operands (log 118). -/
def State.fb (s : State) (u d a i code nIn nOut : Nat) (bad : Bool) (used : FbRec → Nat → Bool)
    (eval : State → FbRec → FbEnv → FbOut) : State :=
  let legal := decide (a + nIn ≤ 32) && decide (d + nOut ≤ 32) && (code < 17 || s.runsSafe u)
  s.instr u legal 4 20 fun x =>
    let c := x.core u
    if x.winHdr c.part 24 ≤ i then (x, some .window)
    else
      let b := (stagedFb i c.staged).getD (Mem.bytes x.mem.img (x.fbAt c.part i) 64)
      let r := fbRec b
      let flawed := (stagedFb i c.staged).isNone && x.imgFlawed (x.fbAt c.part i) 64
      if !fbRecOk b || flawed || r.code ≠ code || bad then (x, some .fb)
      else match x.fbInputs u a nIn (used r) with
        | none => (x, some .codeCheck)
        | some ins =>
          let taken := c.staged.any fun y => decide (y = .fnTaken i)
          let cmd := r.cmdRst && x.fnHeld c.part i && !taken
          let o := eval x r ⟨ins, c.stime, c.ssf, cmd⟩
          (x.fbOutputs u d o.outs).andThen fun y1 =>
            let y2 := y1.stage u (.fb i (fbBytes o.r))
            let y3 := if cmd then y2.stage u (.fnTaken i) else y2
            let y4 := if o.r.lo ≠ r.lo then y3.stage u (.lockout i code o.r.diag o.r.lo) else y3
            let ch := Tab.get (fun _ => 0) x.eng.grpCh (1024 * c.part + i)
            let y5 := match o.arm with
              | some t => if ch = 0 then y4 else y4.stage u (.arm (ch - 1) t)
              | none => y4
            (y5, none)

end Sys2Proof.Machine
end

