-- ==== Sys2Proof/Machine/FbOther.lean ====
section
/-! DEFINITION. The other function blocks: MUTE (R217), ENABLE, TWOHAND, MODESEL (R218), RESET, EDM, SEQ (R219), SPEED (R220),
FAN (R221), ZONE (R222), AILIM (R223), SOUT (R224), GROUP (R226 to R228). DIAG values are those of R211. -/

namespace Sys2Proof.Machine

open Sys2Proof

/-- MUTE (R217): M1–M4, CONV. AUX: CLEAR_WAIT entered by T_B. -/
def evalMute (r : FbRec) (e : FbEnv) : FbOut :=
  let m k := inOn (e.inp k)
  let any := m 0 || m 1 || m 2 || m 3
  let p := (m 0 && m 1) || (r.opt8 && ((m 1 && m 2) || (m 2 && m 3)))
  let conv := !r.opt9 || inOne (e.inp 4)
  let r1 := match r.st with
    | 0 => if m 0 || m 1 then { r with st := 1, t1 := e.t } else r
    | 1 =>
      if elapsed r.t1 e.t r.tA msTicks then { r with st := 3, aux := false }
      else if !any then { r with st := 0 }
      else if m 0 && m 1 && conv then { r with st := 2, t2 := e.t } else r
    | 2 =>
      if elapsed r.t2 e.t r.tB msTicks then { r with st := 3, aux := true }
      else if !p then { r with st := 0 }
      else if !conv then { r with st := 3, aux := false } else r
    | _ => if !any then { r with st := 0 } else r
  let diag := if e.faulted then 6
    else if r1.st = 2 then 1
    else if r1.st = 3 then (if r1.aux then 22 else 23)
    else if e.unavail r [0, 1, 2, 3, 4] then 5 else 2
  fbQ2 e { r1 with diag := diag } (b2n (r1.st = 2))

/-- ENABLE (R218): E1, E2. -/
def evalEnable (r0 : FbRec) (e : FbEnv) : FbOut :=
  let e1 := inOn (e.inp 0)
  let e2 := inOn (e.inp 1)
  let x := e1 != e2
  let r : FbRec := { r0 with t1 := runT x r0.t1 e.t }
  let dem := evalEnable.demandDiag2 r e
  let r' :=
    if r.st = 3 then (if e.cmd && !e.faulted && !e1 && !e2 then r.leave 0 dem else r)
    else if e.faulted then r.lockout 3 6
    else if x && elapsed r.t1 e.t r.tDisc msTicks then r.lockout 3 7
    else match r.st with
      | 0 => if !e1 && !e2 then { r with st := 1, diag := dem } else { r with diag := dem }
      | 1 => if e1 && e2 then { r with st := 2, diag := 1 } else { r with diag := dem }
      | _ => if !e1 || !e2 then { r with st := 0, diag := dem } else { r with diag := 1 }
  fbQ2 e r' (b2n (r'.st = 2))
where
  /-- DEMAND, or INPUT_UNAVAIL while an input is not accepted (R211). -/
  demandDiag2 (r : FbRec) (e : FbEnv) : Nat := if e.unavail r [0, 1] then 5 else 2

/-- TWOHAND (R218): L_NO, L_NC, R_NO, R_NC. AUX: the right hand was first. T1, T3: discrepancy of the left and the right. -/
def evalTwohand (r0 : FbRec) (e : FbEnv) : FbOut :=
  let no k := inOn (e.inp k)
  let nc k := !inLive (e.inp k) || inOn (e.inp k)
  let c := r0.opt8
  let act k := if c then no k && !nc (k + 1) else no k
  let rel k := if c then !no k && nc (k + 1) else !no k
  let xl := c && (no 0 == nc 1)
  let xr := c && (no 2 == nc 3)
  let r : FbRec := { r0 with t1 := runT xl r0.t1 e.t, t3 := runT xr r0.t3 e.t }
  let dem := if e.unavail r [0, 1, 2, 3] then 5 else 2
  let gone := if r.aux then rel 2 else rel 0
  let second := if r.aux then act 0 else act 2
  let r' :=
    if r.st = 4 then (if e.cmd && !e.faulted && rel 0 && rel 2 then r.leave 0 dem else r)
    else if e.faulted then r.lockout 4 6
    else if (xl && elapsed r.t1 e.t r.tDisc msTicks) || (xr && elapsed r.t3 e.t r.tDisc msTicks) then r.lockout 4 7
    else match r.st with
      | 0 => if rel 0 && rel 2 then { r with st := 1, diag := dem } else if r.first then { r with diag := dem } else r
      | 1 =>
        if act 0 then { r with st := 2, t2 := e.t, aux := false, diag := dem }
        else if act 2 then { r with st := 2, t2 := e.t, aux := true, diag := dem } else { r with diag := dem }
      | 2 =>
        if elapsed r.t2 e.t r.tA msTicks || gone then { r with st := 0, diag := 24 }
        else if second then { r with st := 3, diag := 1 } else { r with diag := dem }
      | _ => if !act 0 || !act 2 then { r with st := 0, diag := dem } else { r with diag := 1 }
  fbQ2 e r' (b2n (r'.st = 3))

/-- MODESEL (R218): S0–S7, the first n in use. T2 holds the last position, k + 1. -/
def evalModesel (r0 : FbRec) (e : FbEnv) : FbOut :=
  let on := (List.range 8).filter fun k => decide (k < r0.w0) && inOn (e.inp k)
  let none_ := on.isEmpty
  let r : FbRec := { r0 with t1 := runT none_ r0.t1 e.t }
  let dem := if e.unavail r (List.range 8) then 5 else 2
  match r.st with
  | 0 =>
    if e.faulted then fbQ2 e (r.lockout 1 6) 0
    else if 2 ≤ on.length || (none_ && elapsed r.t1 e.t r.tA msTicks) then fbQ2 e (r.lockout 1 25) 0
    else match on with
      | [k] =>
        if r.t2 = k + 1 then fbQ2 e { r with diag := 1 } (k + 1) else fbQ2 e { r with t2 := k + 1, diag := dem } 0
      | _ => fbQ2 e { r with diag := dem } 0
  | _ =>
    if e.cmd && !e.faulted && on.length = 1 then fbQ2 e { r.leave 0 dem with t2 := 0 } 0 else fbQ2 e r 0

/-- RESET (R219): BTN, COND. PULSE answers a release valid under R206 and no command of R207. AUX: RST_STUCK set by a press longer
than 5,000 ms. -/
def evalReset (r0 : FbRec) (e : FbEnv) : FbOut :=
  let rs := rstStep { r0 with diag := if r0.diag = 0 then 0 else if r0.aux then 8 else 3 } (e.inp 0) e.t false
  let pulse := rs.valid && inOn (e.inp 1)
  let diag := if pulse then 1 else if e.faulted then 6 else if rs.stuck then 8
    else if !inAcc r0 (e.inp 0) then 5 else 3
  fbQ2 e { rs.r with aux := rs.stuck, diag := diag } (b2n pulse)

/-- EDM (R219): CMD, FB1, FB2, RST. States 0 INIT, 1 released, 2 commanded, 3 LOCKOUT; AUX: CMD at the last invocation. -/
def evalEdm (r0 : FbRec) (e : FbEnv) : FbOut :=
  let rs := rstStep r0 (e.inp 3) e.t e.cmd
  let cmd := inOn (e.inp 0)
  let rel := inOne (e.inp 1) && (!r0.opt8 || inOne (e.inp 2))
  let eng := inZero (e.inp 1) && (!r0.opt8 || inZero (e.inp 2))
  let met := if r0.st = 2 then eng else rel
  let r : FbRec := { rs.r with t1 := if met then 0 else r0.t1, aux := cmd }
  let r' :=
    if r.st = 3 then
      if rs.valid && !e.faulted && inAcc r0 (e.inp 0) && !cmd && rel then { r.leave 1 1 with t1 := 0 } else r
    else if e.faulted then { r.lockout 3 6 with t1 := 0 }
    else if r.t1 ≠ 0 && elapsed r.t1 e.t r.tA msTicks then { r.lockout 3 26 with t1 := 0 }
    else if cmd && !r0.aux then
      (if eng then { r.lockout 3 26 with t1 := 0 } else { r with st := 2, t1 := e.t, diag := 1 })
    else if !cmd && r0.aux then { r with st := 1, t1 := if rel then 0 else e.t, diag := 1 }
    else { r with st := if cmd then 2 else 1, diag := 1 }
  let r'' := if rs.stuck && r'.st = r0.st then { r' with diag := 8 } else r'
  fbQ e r'' (r''.st ≠ 3) (r''.st = 3) []

/-- SEQ (R219): REQ, DN. T1: DN on without a break; AUX: REQ at the last invocation; state 1: Q = 1. -/
def evalSeq (r0 : FbRec) (e : FbEnv) : FbOut :=
  let req := inOn (e.inp 0)
  let dn := inOn (e.inp 1)
  let r : FbRec := { r0 with t1 := runT dn r0.t1 e.t, aux := req }
  let rise := req && !r0.aux && !r0.first
  let on := if r0.st = 1 then req && dn else rise && dn && elapsed r.t1 e.t r.tA msTicks
  fbQ2 e { r with st := b2n on, diag := if e.faulted then 6 else if on then 1 else 39 } (b2n on)

/-- SPEED (R220): SPD, EN, RST. States 0 INIT, 1 IDLE, 2 BRIDGE, 3 SUPERVISE, 4 TRIPPED, 5 LOCKOUT. A SPD accepted at SUBST is taken
at v = 0, as it loads (R66, R197; log 132). EN already 1 at the first invocation counts as a rise (log 161). -/
def evalSpeed (r0 : FbRec) (e : FbEnv) : FbOut :=
  let rs := rstStep r0 (e.inp 2) e.t e.cmd
  let spd := e.inp 0
  let v := r0.num (inVal spd)
  let acc := inAcc r0 spd
  let en := inOne (e.inp 1)
  let above := acc && decide (r0.num r0.w0 < v)
  let under := r0.opt8 && acc && decide (v < r0.num r0.w1)
  let rev := r0.opt9 && acc && decide (v < -r0.num r0.w2)
  let stand : Bool := match spd with | some (x, q) => decide (x = 0) && q = .good | none => false
  let r : FbRec := rs.r
  let trip (d : Nat) (x : FbRec) : FbRec := { x with st := 4, diag := d }
  let r' :=
    if r.st = 5 then (if rs.valid && !e.faulted then r.leave 4 3 else r)
    else if e.faulted then r.lockout 5 (if inFault spd then 33 else 6)
    else match r.st with
      | 4 => if rs.valid && !en && stand then { r with st := 1, diag := 1 } else r
      | 2 =>
        if !en then { r with st := 1, diag := 1 }
        else if above then trip 27 r
        else if elapsed r.t2 e.t r.tB msTicks then { r with st := 3, t1 := 0, diag := 1 } else { r with diag := 1 }
      | 3 =>
        let r1 := { r with t1 := runT under r.t1 e.t }
        if under && elapsed r1.t1 e.t r1.tA msTicks then trip 28 r1
        else if !en then { r1 with st := 1, t1 := 0, diag := 1 }
        else if above then trip 27 r1
        else if rev then trip 29 r1
        else if !acc then trip 5 r1
        else { r1 with diag := 1 }
      | _ =>
        if en then { r with st := 2, t2 := e.t, diag := 1 } else { r with st := 1, diag := if above then 27 else 1 }
  let r'' := if rs.stuck && r'.st = r0.st then { r' with diag := 8 } else r'
  let q := (r''.st = 1 && !above) || r''.st = 2 || r''.st = 3
  fbQ e r'' q (r''.st = 4 || r''.st = 5) [stand]

/-- FAN (R221): RUN, SPD, RST; T_B in W2. -/
def evalFan (r0 : FbRec) (e : FbEnv) : FbOut :=
  let rs := rstStep r0 (e.inp 2) e.t e.cmd
  let run := inOn (e.inp 0)
  let spd := e.inp 1
  let v := r0.num (inVal spd)
  let good : Bool := match spd with | some (_, q) => q = .good | none => false
  let edge : Bool := match spd with | some (x, q) => q = .unknown || (qualLive q && decide (x ≠ 0)) | none => false
  let r : FbRec := rs.r
  let dip := decide (v < r.num r.w1) || (good && decide (inVal spd = 0))
  let dem := if e.unavail r [0] then 5 else 2
  let r' :=
    if r.st = 5 then (if rs.valid && !e.faulted then r.leave 4 3 else r)
    else if e.faulted then r.lockout 5 (if inFault spd then 33 else 6)
    else match r.st with
      | 0 => if run then { r with st := 1, t1 := e.t, diag := 2 } else { r with diag := dem }
      | 1 =>
        if elapsed r.t1 e.t r.tA msTicks then { r with st := 4, diag := 30 }
        else if !run then { r with st := 0, diag := dem }
        else if edge then { r with st := 2, diag := 2 } else { r with diag := 2 }
      | 2 =>
        if elapsed r.t1 e.t r.w2 msTicks then
          (if !(good && decide (r.num r.w0 ≤ v)) then { r with st := 4, diag := 31 }
           else if !run then { r with st := 0, diag := dem }
           else { r with st := 3, t3 := 0, diag := 1 })
        else if !run then { r with st := 0, diag := dem } else { r with diag := 2 }
      | 3 =>
        let r1 := { r with t3 := runT dip r.t3 e.t }
        if dip && elapsed r1.t3 e.t r1.tC msTicks then { r1 with st := 4, diag := 32 }
        else if !run then { r1 with st := 0, diag := dem } else { r1 with diag := 1 }
      | _ => if !run && rs.valid then { r with st := 0, diag := dem } else r
  let r'' := if rs.stuck && r'.st = r0.st then { r' with diag := 8 } else r'
  fbQ e r'' (r''.st = 3) (r''.st = 4 || r''.st = 5) []

/-- ZONE (R222): REQ, VIG, ISO, RST. -/
def evalZone (r0 : FbRec) (e : FbEnv) : FbOut :=
  let rs := rstStep r0 (e.inp 3) e.t e.cmd
  let req := inOn (e.inp 0)
  let vig := inOne (e.inp 1)
  let iso := inOne (e.inp 2)
  let r : FbRec := rs.r
  let inhibit : FbRec := { r with st := 1, diag := if vig then 3 else 37 }
  let wait : FbRec := { r with st := 3, diag := if e.unavail r [2] then 5 else 2 }
  let r1 : FbRec := match r.st with
    | 0 => if !r.opt8 && vig then { r with st := 2, diag := 1 } else inhibit
    | 1 => if rs.valid && vig && !req then { r with st := 2, diag := 1 } else inhibit
    | 2 => if !vig then inhibit else if req then { r with st := 3, diag := 2 } else { r with diag := 1 }
    | 3 => if !req then inhibit else if iso then { r with st := 4, diag := 38 } else wait
    | _ => if !req then inhibit else if !iso then wait else { r with diag := 38 }
  let r2 := if e.faulted then { r1 with diag := 6 } else if rs.stuck && r1.st = r0.st then { r1 with diag := 8 } else r1
  let k := e.qual r2
  ⟨r2, [(b2n (r2.st = 2), k), (r2.diag, .good), (b2n (r2.st = 1), .good), (b2n (r2.st = 4), k)], none⟩

/-- AILIM (R223): X, RST. States 0 OK, 1 TRIPPED, 2 LOCKOUT; T1: the hold of SUBV, until X is GOOD. -/
def evalAilim (r0 : FbRec) (e : FbEnv) : FbOut :=
  let rs := rstStep r0 (e.inp 1) e.t e.cmd
  let x := e.inp 0
  let live := inLive x
  let subst : Bool := match x with | some (_, q) => q = .subst | none => false
  let good : Bool := match x with | some (_, q) => q = .good | none => false
  let t1 := if good then 0 else if subst && r0.accSubst && r0.t1 = 0 then e.t else r0.t1
  let r : FbRec := { rs.r with t1 := t1 }
  let hold := subst && r.accSubst && !elapsed t1 e.t r.tA msTicks
  let known := live || hold
  let v := if live then r.num (inVal x) else r.num r.w3
  let hi := r.opt8 && decide (r.num r.w0 ≤ v)
  let lo := r.opt9 && decide (v ≤ r.num r.w1)
  let clear := known && (!r.opt8 || decide (v < r.num r.w0 - r.num r.w2)) && (!r.opt9 || decide (r.num r.w1 + r.num r.w2 < v))
  let r' :=
    if r.st = 2 then (if rs.valid && !e.faulted then r.leave 1 3 else r)
    else if e.faulted then r.lockout 2 6
    else if r.st = 1 then
      (if clear && (!r.mreset || rs.valid) then { r with st := 0, diag := 1 } else r)
    else if known then
      (if hi then { r with st := 1, diag := 34 } else if lo then { r with st := 1, diag := 35 } else { r with diag := 1 })
    else if subst then { r with st := 1, diag := 36 }
    else { r with st := 1, diag := 5 }
  let r'' := if rs.stuck && r'.st = r0.st then { r' with diag := 8 } else r'
  fbQ e r'' (r''.st = 0) (r''.st = 2 || (r''.st = 1 && r''.mreset)) []

/-- SOUT (R224): PERM. States 0 off, 1 on, 2 stop-1 delay. -/
def evalSout (r0 : FbRec) (e : FbEnv) : FbOut :=
  let p := e.inp 0
  let on := inOn p
  let r1 : FbRec :=
    if on then { r0 with st := 1, t1 := 0 }
    else if !r0.opt8 then { r0 with st := 0 }
    else
      let r := if r0.st = 1 then { r0 with st := 2, t1 := e.t } else r0
      if r.st = 2 && (inFault p || elapsed r.t1 e.t r.tA msTicks) then { r with st := 0, t1 := 0 } else r
  let delay := r1.st = 2
  let diag := if delay then 43 else if on then 1 else if inFault p then 6 else if !inAcc r0 p then 5 else 2
  let k := e.qual r0
  ⟨{ r1 with diag := diag }, [(b2n on, k), (b2n (r1.st ≠ 0), if delay then .good else k), (diag, .good)], none⟩

/-- GROUP (R226 to R229): REQ, GO, MS_1–MS_7. States 0 to 4 are MSTATE; 5 is LOCKOUT (R204, R226), left on an FN_RESET (R207; log 131).
T1: the superframe count of the switch-on (the coordinator's from its GO on); T3: the GO this member has done with. The coordinator sends a
GO only on READY of every other member, so an MS now OFF was READY for the GO (R228). AUX: in LOCKOUT the prepare of the present GO failed,
and FAILED is published until it ends (R227 step 4). `early`: the END of this slot precedes its
image window. `rb`: the read-back. -/
def evalGroup (early : Bool) (rb : Option Bool) (r0 : FbRec) (e : FbEnv) : FbOut :=
  let coord := r0.opt8
  let ks := (List.range 7).filter fun k => k + 1 < r0.w0
  let ms k := e.inp (2 + k)
  let msIs (k v : Nat) : Bool := inLive (ms k) && decide (inVal (ms k) = v)
  let own := inOn (e.inp 0)
  let can := own && rb = some false
  let allReady := ks.all fun k => msIs k 1
  let go := if coord then (if r0.t1 = 0 then 0 else 0x8000 + r0.t1 % 32768) else inVal (e.inp 1)
  let goOn := natBit go 15
  let d := (go % 32768 + 32768 - e.sf % 32768) % 32768
  let fresh := goOn && decide (r0.t3 ≠ go)
  let doneWith := if !goOn then 0 else if d ≤ 3 then r0.t3 else go
  let bad := ks.any fun k => !inAcc r0 (ms k) || msIs k 4
  let lost := r0.opt9 && ks.any fun k => inAcc r0 (ms k) && decide (inVal (ms k) = 0)
  let drop := !own || !goOn || bad || lost
  let off (st diag : Nat) : FbRec := { r0 with st := st, t1 := 0, t3 := if goOn then go else 0, diag := diag }
  let demand := if e.unavail r0 [0, 1] then 5 else 2
  let idle : FbRec := { r0 with st := 0, t1 := 0, t3 := doneWith, diag := if e.unavail r0 (List.range 9) then 5 else 2 }
  let r : FbRec × Option Nat :=
    if r0.st = 5 then
      (if e.cmd && !e.faulted then ({ idle.leave 0 idle.diag with t3 := 0, aux := false }, none)
       else ({ r0 with aux := goOn && (r0.aux || (fresh && d = 1)) }, none))
    else if e.faulted then ({ r0.lockout 5 6 with t1 := 0, aux := goOn && (r0.st = 4 || (fresh && d = 1)) }, none)
    else match r0.st with
    | 0 => if fresh && d = 1 then (off 4 41, none) else if can then ({ idle with st := 1 }, none) else (idle, none)
    | 1 =>
      if !can then (if fresh && d = 1 then off 4 41 else idle, none)
      else if coord && r0.t1 = 0 then
        ({ r0 with t1 := if allReady then e.sf + (if early then 2 else 3) else 0, t3 := 0, diag := 40 }, none)
      else if coord && (4 ≤ d || (2 ≤ d && !allReady)) then ({ r0 with t1 := 0, t3 := 0, diag := 40 }, none)
      else if !fresh then ({ r0 with t3 := doneWith, diag := demand }, none)
      else if d = 1 then
        if bad || lost then (off 0 42, none) else ({ r0 with st := 2, t1 := e.sf + 1, diag := 1 }, some ((e.sf + 1) * 6250))
      else if d = 0 then (off 4 41, none)
      else ({ r0 with t3 := doneWith }, none)
    | 2 =>
      if drop then (off 0 (if own && goOn then 42 else demand), none)
      else if e.sf ≤ r0.t1 then (r0, none)
      else if rb = some true then ({ r0 with st := 3, diag := 1 }, none)
      else (off 4 41, none)
    | 3 =>
      if rb ≠ some true then (off 4 41, none)
      else if drop then (off 0 (if own && goOn then 42 else demand), none)
      else ({ r0 with diag := 1 }, none)
    | _ => if coord || !goOn then (idle, none) else (r0, none)
  let k := e.qual r0
  let st := r.1.st
  let goOut := if coord && r.1.t1 ≠ 0 && 1 ≤ st && st ≤ 3 then 0x8000 + r.1.t1 % 32768 else 0
  let state := if st = 5 then (if r.1.aux then 4 else 0) else st
  ⟨r.1, [(b2n (st = 2 || st = 3), k), (state, k), (goOut, if coord then k else .good), (r.1.diag, .good)], r.2⟩

/-- The read-back of a GROUP's output, from the index word of its channel (R226, R268). -/
def State.groupReadBack (s : State) (p i : Nat) : Option Bool :=
  match Tab.get (fun _ => 0) s.eng.grpCh (1024 * p + i) with
  | 0 => none
  | ch + 1 =>
    let w := s.imgCsw (8 * ch) (s.selfId ch)
    if cswValid aT w (s.selfId ch) && qualLive (cswQual w) then some (decide (cswVal aT w (s.selfId ch) ≠ 0)) else none

def execFbMute (u : Fin 8) (d a : Fin 32) (i : BitVec 10) (bad : Bool) (s : State) : Host.Outcome State Fault Refusal :=
  done (s.fb u.val d.val a.val i.toNat 6 5 2 bad (fun r k => k < 2 || (k < 4 && r.opt8) || (k = 4 && r.opt9)) fun _ => evalMute)
def execFbEnable (u : Fin 8) (d a : Fin 32) (i : BitVec 10) (bad : Bool) (s : State) : Host.Outcome State Fault Refusal :=
  done (s.fb u.val d.val a.val i.toNat 7 2 2 bad (fun _ _ => true) fun _ => evalEnable)
def execFbModesel (u : Fin 8) (d a : Fin 32) (i : BitVec 10) (bad : Bool) (s : State) : Host.Outcome State Fault Refusal :=
  done (s.fb u.val d.val a.val i.toNat 8 8 2 bad (fun r k => k < r.w0) fun _ => evalModesel)
def execFbTwohand (u : Fin 8) (d a : Fin 32) (i : BitVec 10) (bad : Bool) (s : State) : Host.Outcome State Fault Refusal :=
  done (s.fb u.val d.val a.val i.toNat 9 4 2 bad (fun r k => k % 2 = 0 || r.opt8) fun _ => evalTwohand)
def execFbReset (u : Fin 8) (d a : Fin 32) (i : BitVec 10) (bad : Bool) (s : State) : Host.Outcome State Fault Refusal :=
  done (s.fb u.val d.val a.val i.toNat 10 2 2 bad (fun _ _ => true) fun _ => evalReset)
def execFbEdm (u : Fin 8) (d a : Fin 32) (i : BitVec 10) (bad : Bool) (s : State) : Host.Outcome State Fault Refusal :=
  done (s.fb u.val d.val a.val i.toNat 11 4 3 bad (fun r k => k ≠ 2 || r.opt8) fun _ => evalEdm)
def execFbSpeed (u : Fin 8) (d a : Fin 32) (i : BitVec 10) (bad : Bool) (s : State) : Host.Outcome State Fault Refusal :=
  done (s.fb u.val d.val a.val i.toNat 12 3 4 bad (fun _ _ => true) fun _ => evalSpeed)
def execFbFan (u : Fin 8) (d a : Fin 32) (i : BitVec 10) (bad : Bool) (s : State) : Host.Outcome State Fault Refusal :=
  done (s.fb u.val d.val a.val i.toNat 13 3 3 bad (fun _ _ => true) fun _ => evalFan)
def execFbZone (u : Fin 8) (d a : Fin 32) (i : BitVec 10) (bad : Bool) (s : State) : Host.Outcome State Fault Refusal :=
  done (s.fb u.val d.val a.val i.toNat 14 4 4 bad (fun _ _ => true) fun _ => evalZone)
def execFbAilim (u : Fin 8) (d a : Fin 32) (i : BitVec 10) (bad : Bool) (s : State) : Host.Outcome State Fault Refusal :=
  done (s.fb u.val d.val a.val i.toNat 15 2 3 bad (fun _ _ => true) fun _ => evalAilim)
def execFbSeq (u : Fin 8) (d a : Fin 32) (i : BitVec 10) (bad : Bool) (s : State) : Host.Outcome State Fault Refusal :=
  done (s.fb u.val d.val a.val i.toNat 16 2 2 bad (fun _ _ => true) fun _ => evalSeq)
def execFbSout (u : Fin 8) (d a : Fin 32) (i : BitVec 10) (bad : Bool) (s : State) : Host.Outcome State Fault Refusal :=
  done (s.fb u.val d.val a.val i.toNat 17 1 3 bad (fun _ _ => true) fun _ => evalSout)
def execFbGroup (u : Fin 8) (d a : Fin 32) (i : BitVec 10) (bad early : Bool) (s : State) : Host.Outcome State Fault Refusal :=
  done (s.fb u.val d.val a.val i.toNat 18 9 4 bad
    (fun r k => k = 0 || (k = 1 && !r.opt8) || (2 ≤ k && k < r.w0 + 1)) fun x =>
      evalGroup early (x.groupReadBack (x.core u.val).part i.toNat))

end Sys2Proof.Machine
end

