-- ==== Sys2Proof/Machine/Profile.lean ====
section
/-! DEFINITION. Parameters of function-block instances at commit (R200, R208, R213): the basic profiles, the application fields, the
ranges. Fields go in the order CFG, T_DISC, T_A, T_B, T_C, W0 to W3. -/

namespace Sys2Proof.Machine

open Sys2Proof

/-- The parameter fields of a record. -/
def FbRec.params (r : FbRec) : List Nat := [r.cfg, r.tDisc, r.tA, r.tB, r.tC, r.w0, r.w1, r.w2, r.w3]

/-- A basic profile of a block (R213); none where the block has no such profile. CFG: 1 ANTIV, 2 MRESET, 4 SUT, 16 CMD_RST, 32
SIGNED, 256 and 512 the block's own bits. -/
def fbProfile : Nat → Nat → Option (List Nat)
  | 1, 1 => some [2, 500, 0, 0, 0, 0, 0, 0, 0]
  | 1, 2 => some [3, 500, 0, 0, 0, 0, 0, 0, 0]
  | 1, 3 => some [0, 500, 0, 0, 0, 0, 0, 0, 0]
  | 2, 1 => some [2, 1000, 0, 0, 0, 0, 0, 0, 0]
  | 2, 2 => some [258, 1000, 0, 0, 0, 0, 0, 0, 0]
  | 2, 3 => some [259, 1000, 0, 0, 0, 0, 0, 0, 0]
  | 3, 1 => some [5, 300, 0, 0, 0, 0, 0, 0, 0]
  | 3, 2 => some [0, 300, 0, 0, 0, 0, 0, 0, 0]
  | 3, 3 => some [6, 300, 0, 0, 0, 0, 0, 0, 0]
  | 4, 1 => some [0, 300, 2000, 1000, 5000, 0, 0, 0, 0]
  | 4, 2 => some [258, 300, 0, 1000, 5000, 0, 0, 0, 0]
  | 5, 1 => some [2, 10, 100, 0, 0, 0, 0, 0, 0]
  | 5, 2 => some [0, 10, 100, 0, 0, 0, 0, 0, 0]
  | 5, 3 => some [258, 10, 100, 0, 0, 0, 0, 0, 0]
  | 6, 1 => some [512, 0, 3000, 30000, 0, 0, 0, 0, 0]
  | 6, 2 => some [768, 0, 3000, 30000, 0, 0, 0, 0, 0]
  | 7, 1 => some [16, 500, 0, 0, 0, 0, 0, 0, 0]
  | 8, 1 => some [16, 0, 200, 0, 0, 3, 0, 0, 0]
  | 8, 2 => some [16, 0, 200, 0, 0, 4, 0, 0, 0]
  | 8, 3 => some [16, 0, 200, 0, 0, 8, 0, 0, 0]
  | 9, 1 => some [272, 200, 500, 0, 0, 0, 0, 0, 0]
  | 9, 2 => some [16, 0, 500, 0, 0, 0, 0, 0, 0]
  | 11, 1 => some [2, 0, 300, 0, 0, 0, 0, 0, 0]
  | 11, 2 => some [258, 0, 300, 0, 0, 0, 0, 0, 0]
  | 12, 1 => some [34, 0, 0, 0, 0, 0, 0, 0, 0]
  | 12, 2 => some [290, 0, 2000, 5000, 0, 0, 0, 0, 0]
  | 12, 3 => some [802, 0, 2000, 5000, 0, 0, 0, 0, 0]
  | 13, 1 => some [2, 0, 3000, 0, 1000, 0, 0, 20000, 0]
  | 14, 1 => some [258, 0, 0, 0, 0, 0, 0, 0, 0]
  | 14, 2 => some [2, 0, 0, 0, 0, 0, 0, 0, 0]
  | 15, 1 => some [258, 0, 0, 0, 0, 0, 0, 0, 0]
  | 15, 2 => some [256, 0, 0, 0, 0, 0, 0, 0, 0]
  | 15, 3 => some [770, 0, 0, 0, 0, 0, 0, 0, 0]
  | 16, 1 => some [0, 0, 3000, 0, 0, 0, 0, 0, 0]
  | 17, 1 => some [0, 0, 0, 0, 0, 0, 0, 0, 0]
  | 17, 2 => some [256, 0, 0, 0, 0, 0, 0, 0, 0]
  | 18, 1 => some [512, 0, 0, 0, 0, 0, 0, 0, 0]
  | 18, 2 => some [0, 0, 0, 0, 0, 0, 0, 0, 0]
  | _, _ => none

/-- The bits of the fields that are application fields (R200). -/
def fbApp : Nat → List Nat
  | 12 => [0, 0, 0, 0, 0, 0xFFFFFFFF, 0xFFFFFFFF, 0xFFFFFFFF, 0]
  | 13 => [0, 0, 0, 0, 0, 0xFFFFFFFF, 0xFFFFFFFF, 0, 0]
  | 15 => [32, 0, 0, 0, 0, 0xFFFFFFFF, 0xFFFFFFFF, 0xFFFFFFFF, 0xFFFFFFFF]
  | 18 => [256, 0, 0, 0, 0, 0xFFFFFFFF, 0, 0, 0]
  | _ => [0, 0, 0, 0, 0, 0, 0, 0, 0]

/-- The numeric fields of a block with their ranges (R213): place in the list, least, greatest. A block's field not listed here is zero.
W values of SPEED, FAN and AILIM have no least or greatest but their width; the sign of S_REV and HYST is `fbSignOk`'s. -/
def fbRanges : Nat → List (Nat × Nat × Nat)
  | 1 => [(1, 10, 5000)]
  | 2 => [(1, 10, 5000)]
  | 3 => [(1, 10, 5000)]
  | 4 => [(1, 10, 5000), (2, 0, 60000), (3, 100, 10000), (4, 0, 60000)]
  | 5 => [(1, 1, 100), (2, 0, 100)]
  | 6 => [(2, 100, 10000), (3, 1000, 60000)]
  | 7 => [(1, 10, 1000)]
  | 8 => [(2, 50, 2000), (5, 2, 8)]
  | 9 => [(1, 10, 500), (2, 100, 500)]
  | 11 => [(2, 10, 2000)]
  | 12 => [(2, 0, 60000), (3, 0, 60000), (5, 0, 0xFFFFFFFF), (6, 0, 0xFFFFFFFF), (7, 0, 0xFFFFFFFF)]
  | 13 => [(2, 100, 30000), (4, 0, 10000), (5, 0, 0xFFFFFFFF), (6, 0, 0xFFFFFFFF), (7, 1000, 300000)]
  | 15 => [(2, 0, 60000), (5, 0, 0xFFFFFFFF), (6, 0, 0xFFFFFFFF), (7, 0, 0xFFFFFFFF), (8, 0, 0xFFFFFFFF)]
  | 16 => [(2, 0, 60000)]
  | 17 => [(2, 0, 30000)]
  | 18 => [(5, 2, 8)]
  | _ => []

/-- The block's own CFG bits (R213). -/
def fbOwnBits : Nat → Nat
  | 2 => 256 | 4 => 256 | 5 => 256 | 6 => 768 | 9 => 256 | 11 => 256 | 12 => 768 | 14 => 256 | 15 => 768 | 17 => 256 | 18 => 768
  | _ => 0

/-- Is T_DISC of a TWOHAND of profile 2 at hand, type IIIA, where nothing reads it and the profile gives it no value (R213, R218; log
60)? It may then hold 0 or a value of its range. -/
def fbFree (r : FbRec) (i : Nat) : Bool := r.code = 9 && r.profile = 2 && !natBit r.cfg 8 && i = 1

/-- S_REV and HYST are at least 0 as the 16-bit values they are (R199, R213). -/
def fbSignOk (r : FbRec) : Bool := !(r.code = 12 || r.code = 15) || decide (0 ≤ r.num r.w2)

/-- Are the carried parameters of an instance acceptable (R200, R208)? `expert`: the image was built with expert privilege. -/
def fbParamOk (expert : Bool) (r : FbRec) : Bool :=
  let ps := r.params
  let inRange := (List.range 8).all fun k =>
    let i := k + 1
    (fbFree r i && ps.getD i 0 = 0) || (match (fbRanges r.code).find? (·.1 = i) with
      | some (_, lo, hi) => decide (lo ≤ ps.getD i 0) && decide (ps.getD i 0 ≤ hi)
      | none => ps.getD i 0 = 0)
  let profileOk := r.profile = 0 || (match fbProfile r.code r.profile with
    | some q => expert || (List.range 9).all fun i => fbFree r i
        || natBits (ps.getD i 0) 0 32 &&& (0xFFFFFFFF ^^^ (fbApp r.code).getD i 0) = q.getD i 0 &&& (0xFFFFFFFF ^^^ (fbApp r.code).getD i 0)
    | none => false)
  decide (1 ≤ r.code) && decide (r.code ≤ 18) && inRange && profileOk
  && decide (r.cfg &&& (0xFFC0 ^^^ fbOwnBits r.code) = 0)
  && (!(r.code = 7 || r.code = 8 || r.code = 9) || r.cmdRst) && (r.code ≠ 12 || r.signed) && fbSignOk r

/-- The limits a SPEED or FAN instance has (R213, R248). -/
def fbHasLimits (r : FbRec) : List Int := if r.code = 12 then [r.num r.w0, r.num r.w1, r.num r.w2] else [r.num r.w0, r.num r.w1]

/-- The limits a SPEED or FAN instance has in use, as magnitudes (R213, R247). -/
def fbLimits (r : FbRec) : List Nat :=
  let m (v : Nat) : Nat := (r.num v).natAbs
  if r.code = 12 then [m r.w0] ++ (if r.opt8 then [m r.w1] else []) ++ (if r.opt9 then [m r.w2] else [])
  else [m r.w0, m r.w1]

end Sys2Proof.Machine
end

