-- ==== Sys2Proof/Machine/Speed.lean ====
section
/-! DEFINITION. Speed units: edges (R235, R236, R242), states (R238, R239), sensor faults (R240 to R242), backstop (R243),
position windows (R244 to R246), the word written at each superframe (R236, R237). -/

namespace Sys2Proof.Machine

open Sys2Proof

def State.spd (s : State) (u : Nat) : SpdSt := Tab.get (fun _ => SpdSt.reset) s.field.spd u
def State.modSpd (s : State) (u : Nat) (f : SpdSt → SpdSt) : State :=
  s.modField fun x => { x with spd := Tab.modify (fun _ => SpdSt.reset) x.spd u f }

/-- SPD_CFG.MODE: 0 off, 1 single pulse, 2 quadrature, 3 position (R251). -/
def State.spdMode (s : State) (u : Nat) : Nat := s.fld (rSpd_SPD_CFG u) 0 2
/-- SPD_STAT.STATE: 0 INIT, 1 STANDSTILL, 2 FIRST, 3 RUN, 4 REV_WAIT, 5 FAULT (R238). -/
def State.spdState (s : State) (u : Nat) : Nat := s.fld (rSpd_SPD_STAT u) 0 3
def State.spdRev (s : State) (u : Nat) : Bool := s.bit (rSpd_SPD_STAT u) 3
def State.spdCause (s : State) (u : Nat) : Nat := s.fld (rSpd_SPD_STAT u) 16 4
def State.ppr (s : State) (u : Nat) : Nat := s.fld (rSpd_PPR u) 0 14

/-- Change state, with the STANDSTILL and REVERSAL events (R250). -/
def State.spdTo (s : State) (u k : Nat) : State :=
  let s1 := s.setFld (rSpd_SPD_STAT u) 0 3 k
  let pg := 0x0A0 + u
  let raw (x : State) (bit : Nat) (b : Bool) : State :=
    if x.bit (rPg_EV_RAW pg) bit = b then x
    else if b then (x.evRaw pg (2 ^ bit) b).opEvent (if bit = 2 then 1088 + u else 1120 + u) none (x.rd (rSpd_SPD_STAT u)).toNat
    else x.evRaw pg (2 ^ bit) b
  raw (raw s1 2 (k = 1)) 3 (k = 4 && s.spdState u = 3)

/-- The causes that latch: QUAD_ERR, OVERRANGE, CAPQ_OVF and BACKSTOP (R242, R243). -/
def spdLatches (cause : Nat) : Bool := 3 ≤ cause && cause ≠ 6

/-- Enter FAULT with a cause; a unit in FAULT under a cause that does not latch takes one that does, and BACKSTOP under any other (R242,
R243). -/
def State.spdFault (s : State) (u cause hint : Nat) : State :=
  if s.spdState u = 5 && (s.spdCause u = 7 || (cause ≠ 7 && (spdLatches (s.spdCause u) || !spdLatches cause))) then s
  else
    let s1 := (s.spdTo u 5).setFld (rSpd_SPD_STAT u) 16 4 cause
    let s2 := (s1.setBit (rSpd_SPD_STAT u) 20 (spdLatches cause)).modSpd u fun x => { x with faultAt := if s.spdState u = 5 then x.faultAt else s.now }
    let s3 := s2.evRaw (0x0A0 + u) (if cause = 7 then 2 else 1) true
    if cause = 7 then s3.raise (817 + 2 * u) 1 hint else s3.raise (816 + 2 * u) cause hint

/-- Leave FAULT for INIT; the last counted edge stays what it was (R237). A position unit has to be referenced again: no window is active. -/
def State.spdHeal (s : State) (u : Nat) : State :=
  let s1 := (((s.setFld (rSpd_SPD_STAT u) 16 4 0).setBit (rSpd_SPD_STAT u) 20 false).setBit (rSpd_SPD_STAT u) 4 false).spdTo u 0
  (((s1.setFld (rSpd_WIN_STAT u) 0 4 0).setFld (rSpd_WIN_STAT u) 8 4 0).evRaw (0x0A0 + u) 3 false).modSpd u fun x =>
    { x with since := s.now, cnt := 0, slip := false }

/-- A unit is enabled: INIT, nothing counted, no cause, no event (R238, R250; log 65). -/
def State.spdEnable (s : State) (u : Nat) : State :=
  let s1 := s.modSpd u fun _ => { SpdSt.reset with since := s.now }
  let s2 := [rSpd_SPD_STAT u, rSpd_CAPQ u, rSpd_REV_PULSES u, rSpd_POS u, rSpd_WIN_STAT u].foldl (fun x r => x.wr r 0) s1
  s2.evRaw (0x0A0 + u) 0xF false

/-- The channels a unit names: CH_A, CH_B, CH_IDX as its mode uses them (R234). -/
def State.spdChans (s : State) (u : Nat) : List Nat :=
  ((List.range (match s.spdMode u with
    | 0 => 0 | 1 => 1 | 2 => 2 | _ => 3)).map fun i => s.fld (rSpd_SPD_CH u) (8 * i) 8).filter (· < 192)

/-- Cause of a named channel's fault: TACH_OPEN for an open circuit, else CHANNEL (R240), with the channel. -/
def State.spdChFault (s : State) (u : Nat) : Option (Nat × Nat) :=
  match (s.spdChans u).find? fun c => hasKind (s.ch c).wl 9 || hasKind (s.ch c).wl 12 with
  | some c => some (1, c)
  | none => ((s.spdChans u).find? fun c => s.chFault c || s.srcFault c).map fun c => (6, c)

/-! Windows (R244 to R246) -/

def State.winEn (s : State) (u n : Nat) : Bool := s.bit (rSpd_WIN u n) 31

/-- Is POS inside window n? -/
def State.winIn (s : State) (u n pos : Nat) : Bool :=
  let a := s.fld (rSpd_WIN u n) 0 14
  let b := s.fld (rSpd_WIN u n) 16 14
  if a ≤ b then a ≤ pos && pos ≤ b else a ≤ pos || pos ≤ b

def State.winAborted (s : State) (u n : Nat) : Bool := s.bit (rSpd_WIN_STAT u) (4 + n)

/-- Is window n active? -/
def State.winActive (s : State) (u n : Nat) : Bool :=
  s.bit (rSpd_SPD_STAT u) 4 && s.winEn u n && s.winIn u n (s.fld (rSpd_POS u) 0 14) && !s.winAborted u n

/-- WIN_STAT after an edge: a window entered going forward is no longer aborted; nothing is held. -/
def State.winShow (s : State) (u old : Nat) (fwd : Bool) : State :=
  let pos := s.fld (rSpd_POS u) 0 14
  let s1 := s.each (List.range 4) fun x n =>
    if fwd && x.winAborted u n && !x.winIn u n old && x.winIn u n pos then x.setBit (rSpd_WIN_STAT u) (4 + n) false else x
  (s1.setFld (rSpd_WIN_STAT u) 0 4 (bitMask 4 (s1.winActive u))).setFld (rSpd_WIN_STAT u) 8 4 0

/-- An A edge of a position unit. -/
def State.posEdge (s : State) (u : Nat) (rev : Bool) : State :=
  let pos := s.fld (rSpd_POS u) 0 14
  let n := max (s.ppr u) 1
  let s1 := (s.setFld (rSpd_POS u) 0 14 (if rev then (pos + n - 1) % n else (pos + 1) % n)).setBit (rSpd_SPD_STAT u) 3 rev
  if rev && anyBelow 4 (s.winActive u) then
    let s2 := (s1.setBit (rSpd_SPD_STAT u) 4 false).modSpd u fun x => { x with slip := false }
    ((s2.setFld (rSpd_WIN_STAT u) 0 4 0).setFld (rSpd_WIN_STAT u) 8 4 0).raise (817 + 2 * u) 3 pos
  else s1.winShow u pos (!rev)

/-- A rising edge of CH_IDX: it references the unit going forward; while referenced POS must lie within IDX_TOL of 0 (R244, R246;
log 27). -/
def State.idxEdge (s : State) (u : Nat) : State :=
  if s.spdMode u ≠ 3 then s
  else
    let pos := s.fld (rSpd_POS u) 0 14
    if s.bit (rSpd_SPD_STAT u) 4 then
      let tol := s.fld (rSpd_IDX_TOL u) 0 8
      if pos ≤ tol || s.ppr u ≤ pos + tol then s
      else
        let s1 := ((s.setFld (rSpd_POS u) 0 14 0).raise (817 + 2 * u) 4 pos).modSpd u fun x => { x with slip := true }
        s1.winShow u pos (!s.spdRev u)
    else if s.spdRev u then s
    else ((s.setFld (rSpd_POS u) 0 14 0).setBit (rSpd_SPD_STAT u) 4 true).winShow u pos true

/-! Edges (R235 to R243) -/

/-- The state machine of R238 at a counted edge. -/
def State.spdEdge (s : State) (u : Nat) (rev : Bool) : State :=
  let single := s.spdMode u = 1
  let dir (x : State) : State := x.setBit (rSpd_SPD_STAT u) 3 rev
  let run (x : State) (k : Nat) : State := ((dir x).spdTo u 3).modSpd u fun y => { y with cnt := k }
  let wait (x : State) (k : Nat) : State := ((dir x).spdTo u 4).setFld (rSpd_SPD_STAT u) 8 5 k
  match s.spdState u with
  | 0 => (dir s).spdTo u 2
  | 1 => (dir s).spdTo u 2
  | 2 => if single || rev = s.spdRev u then run s 1 else wait s 1
  | 3 => if rev = s.spdRev u then s.modSpd u fun y => { y with cnt := min (y.cnt + 1) 16 } else wait s 1
  | 4 =>
    let k := s.fld (rSpd_SPD_STAT u) 8 5 + 1
    if rev = s.spdRev u then
      if s.fld (rSpd_MOTION u) 0 5 ≤ k then (run s 1).setFld (rSpd_SPD_STAT u) 8 5 0 else s.setFld (rSpd_SPD_STAT u) 8 5 k
    else wait s 1
  | _ => s

/-- The reverse count of the backstop; true where it exceeds REV_LIM (R243). -/
def State.backstop (s : State) (u : Nat) (rev : Bool) : State × Bool :=
  let lim := s.fld (rSpd_MOTION u) 16 16
  if lim = 0 then (s, false)
  else if rev then
    let n := min (s.fld (rSpd_REV_PULSES u) 0 16 + 1) 65535
    (s.setFld (rSpd_REV_PULSES u) 0 16 n, decide (lim < n))
  else (s.setFld (rSpd_REV_PULSES u) 0 16 0, false)

/-- A captured A edge: counts, direction, illegal transitions, interval, state (R235 to R243). -/
def State.aEdge (s : State) (u : Nat) (e : SpdCap) : State :=
  let rev := s.spdMode u ≠ 1 && (if s.bit (rSpd_SPD_CFG u) 6 then !e.b else e.b)
  let x := s.spd u
  let hint := s.fld (rSpd_SPD_CH u) 0 8
  -- TACH_LOSS clears at an edge after it (R239, R241)
  let s1 := if s.spdState u = 5 && s.spdCause u = 2 && x.faultAt < e.time then s.spdHeal u else s
  let last := x.hist.head?
  let gap := match last with
    | some t => e.time - t
    | none => 0
  let no := x.edges + 1
  let ill := (if e.bad && s.spdMode u ≠ 1 then [no] else []) ++ x.illegal.filter fun k => no < k + 256
  let s2 := s1.modSpd u fun y => { y with hist := (e.time :: x.hist).take 17, edges := no, illegal := ill, since := e.time }
  let s3 := ((s2.bump (rSpd_EDGE_CNT u)).wr64 (rSpd_LAST_EDGE_LO u) e.time).setFld (rSpd_INTERVAL u) 0 26 (min (gap / 100) 60000000)
  let s4 := if e.bad && s.spdMode u ≠ 1 then s3.bump (rSpd_QERR_CNT u) else s3
  let (s5, above) := if s.spdMode u = 3 then (s4.posEdge u rev, false) else s4.backstop u rev
  let s6 := if s4.spdState u = 5 then s5
    else if last.isSome && gap < 2000 then s5.spdFault u 3 hint
    else if 4 ≤ ill.length then s5.spdFault u 4 hint
    else if above || s.spdMode u = 3 then s5
    else s5.spdEdge u rev
  if above then s6.spdFault u 7 (s6.fld (rSpd_POS u) 0 14) else s6

/-- The unit takes an edge from its queue. -/
def State.takeEdge (s : State) (u : Nat) (e : SpdCap) : State := if e.idx then s.idxEdge u else s.aEdge u e

/-- It takes the queued edges that `p` picks. -/
def State.takeSome (s : State) (u : Nat) (p : SpdCap → Bool) : State :=
  let xs := (s.spd u).q
  let s1 := s.modSpd u fun y => { y with q := xs.filter fun e => !p e }
  (s1.each (xs.filter p) fun x e => x.takeEdge u e).setFld (rSpd_CAPQ u) 0 3 ((s1.spd u).q.length)

/-- It takes every queued edge timestamped at or before `t` (R235, R237). -/
def State.takeEdges (s : State) (u t : Nat) : State := s.takeSome u fun e => e.time ≤ t

/-- The delay of the edge filter of CH_A or CH_IDX, ticks (R281). -/
def State.filterDelay (s : State) (u : Nat) (idx : Bool) : Nat :=
  10 * s.fld (rCh_EDGE_CFG (s.fld (rSpd_SPD_CH u) (if idx then 16 else 0) 8)) 0 16

/-- An edge at a boundary tick whose write is still to come waits for it: a transition to FAULT due in that tick goes first (R239). -/
def State.edgeWaits (s : State) (t : Nat) : Bool := t % 6250 = 0 && decide (s.eng.lastSf ≤ t)

/-- An edge passes the edge filter when its level has held for EFILT × 0.1 µs; its timestamp is the tick of detection less that delay (R281).
It enters the queue; an edge that has waited 2 µs has been processed, and all are unless the unit comes to them later. A full queue loses
the edge: CAPQ_OVF (R235). -/
def execSpeedEdgeCapture (u : Fin 32) (e : EdgeIn) (s : State) : Host.Outcome State Fault Refusal :=
  let delay := s.filterDelay u.val e.idx
  done (if !s.fieldLive || s.spdMode u.val = 0 || 10 * e.held.toNat < delay then s
    else
      let s1 := s.takeSome u.val fun q => decide (q.time + s.filterDelay u.val q.idx + 200 ≤ s.now) && !s.edgeWaits q.time
      if 4 ≤ (s1.spd u.val).q.length then
        ((s1.setBit (rSpd_CAPQ u.val) 3 true).spdFault u.val 5 (s1.fld (rSpd_SPD_CH u.val) 0 8))
      else
        let s2 := s1.modSpd u.val fun y => { y with q := y.q ++ [⟨s1.now - delay, e.idx, e.b, e.bad⟩] }
        if e.later then s2.setFld (rSpd_CAPQ u.val) 0 3 ((s2.spd u.val).q.length) else s2.takeSome u.val fun q => !s.edgeWaits q.time)

/-- No edge for T_STAND: STANDSTILL (R238, R239). -/
def execSpeedStandstill (u : Fin 32) (s0 : State) : Host.Outcome State Fault Refusal :=
  let s := s0.takeEdges u.val s0.now
  let k := s.spdState u.val
  done (if s.fieldLive && (s.spdMode u.val = 1 || s.spdMode u.val = 2) && k ≠ 1 && k ≠ 5 then
      let s1 := s.advanceTo ((s.spd u.val).since + ms (s.fld (rSpd_T_STAND u.val) 0 16))
      ((s1.spdTo u.val 1).setFld (rSpd_REV_PULSES u.val) 0 16 0).modSpd u.val fun y => { y with cnt := 0 }
    else s)

/-- No edge for DWELL_MAX in an active window: it is aborted (R245). -/
def execWindowDwell (u : Fin 32) (n : Fin 4) (s0 : State) : Host.Outcome State Fault Refusal :=
  let s := s0.takeEdges u.val s0.now
  done (if s.fieldLive && s.spdMode u.val = 3 && s.spdState u.val ≠ 5 && s.winActive u.val n.val then
      let s1 := s.advanceTo ((s.spd u.val).since + ms (s.fld (rSpd_DWELL u.val n.val) 0 16))
      let s2 := (s1.setBit (rSpd_WIN_STAT u.val) (4 + n.val) true).setBit (rSpd_WIN_STAT u.val) n.val false
      s2.raise (817 + 2 * u.val) 2 (s.fld (rSpd_POS u.val) 0 14)
    else s)

/-- A write of SPD.CMD: CLR_LATCH clears CAPQ.OVF and the latched causes; the unit enters INIT (R242, R243, R250). -/
def State.spdCmd (s : State) (m : Master) (u : Nat) (v : Word) : State :=
  s.regCmd m (rSpd_CMD u) fun x =>
    if natBit v.toNat 0 then
      let y := x.setBit (rSpd_CAPQ u) 3 false
      if y.spdState u = 5 && y.bit (rSpd_SPD_STAT u) 20 then (y.modSpd u fun z => { z with illegal := [] }).spdHeal u else y
    else x

def execSpdClrLatch (m : Master) (u : Fin 32) (s : State) : Host.Outcome State Fault Refusal := done (s.spdCmd m u.val 1)

/-! The word (R236, R237, R241, R244) -/

/-- Divisor of SCALE: units of v per rev/min; 3 is reserved. -/
def spdScale (k : Nat) : Nat :=
  match k with
  | 0 => 100 | 1 => 10 | _ => 1

/-- v of R236 in RUN at the write instant `w`: the smaller of the measured speed and its bound, saturated. -/
def State.spdValue (s : State) (u w : Nat) : Int :=
  let x := s.spd u
  let num := 60 * 100000000 * spdScale (s.fld (rSpd_SPD_CFG u) 4 2)
  let t0 := x.hist.headD w
  let k := min (s.fld (rSpd_SPD_CFG u) 8 4 + 1) x.cnt
  let tk := (x.hist[k]?).getD t0
  let meas := if t0 = tk then 32767 else num * k / (s.ppr u * (t0 - tk))
  let bound := if w ≤ t0 then 32767 else num / (s.ppr u * (w - t0))
  let m : Int := min (min meas bound) 32767
  if s.spdRev u then -m else m

/-- The comparison of R241 cleared of its root, for deceleration `a`, `p` pulses, `d` ticks of the last interval and `w` ticks since the
last edge: the shaft cannot have stopped, and the edge is overdue by a quarter of t_due. -/
def overdue (a p d w : Nat) : Bool :=
  decide (a * p * d * d ≤ 300000000000000000)
  && (decide (750000000000000000 < a * w * p * d)
    || decide (3750000000000000000 * d + 2 * a * w * w * p * d < 3000000000000000000 * w))

/-- TACH_LOSS at the write instant `w`, for a plain HTL input with DECEL_MAX set (R241). -/
def State.tachLoss (s : State) (u w : Nat) : Bool :=
  let a := s.fld (rSpd_DECEL_MAX u) 0 16
  let c := s.fld (rSpd_SPD_CH u) 0 8
  match (s.spd u).hist with
  | t0 :: t1 :: _ => s.role c = 5 && !s.bit (rCh_EDGE_CFG c) 16 && a ≠ 0 && overdue a (s.ppr u) (t0 - t1) (w - t0)
  | _ => false

/-- The sensor faults a unit finds at its write (R240, R241): TACH_OPEN and CHANNEL each last as long as a channel fault of theirs, and
TACH_OPEN shows of the two. -/
def State.spdSense (s : State) (u w : Nat) : State :=
  match s.spdChFault u with
  | some (k, c) =>
    if s.spdState u = 5 && s.spdCause u ≠ k && (s.spdCause u = 1 || s.spdCause u = 6) then
      (s.setFld (rSpd_SPD_STAT u) 16 4 k).raise (816 + 2 * u) k c
    else s.spdFault u k c
  | none =>
    if s.spdState u = 5 && (s.spdCause u = 1 || s.spdCause u = 6) then s.spdHeal u
    else if s.spdState u = 3 && s.tachLoss u w then s.spdFault u 2 (s.fld (rSpd_SPD_CH u) 0 8)
    else s

/-- The window word of a position unit (R244 to R246); WIN_STAT shows the windows held by a stall. -/
def State.winWord (s : State) (u w : Nat) : State :=
  if !s.bit (rSpd_SPD_STAT u) 4 then s.produce (192 + u) 0 .unknown
  else if (s.spd u).slip then (s.modSpd u fun y => { y with slip := false }).produce (192 + u) 0 .good
  else
    let act := bitMask 4 (s.winActive u)
    let held := if (s.spd u).since + 6250 ≤ w then act else 0
    ((s.setFld (rSpd_WIN_STAT u) 0 4 act).setFld (rSpd_WIN_STAT u) 8 4 held).produce (192 + u) act .good

/-- The speed word of the state a unit is in (R238); the reserved SCALE leaves the value free (log 27). -/
def State.speedWord (s : State) (u w : Nat) : State :=
  if s.spdState u = 1 then s.produce (192 + u) 0 .good
  else if s.spdState u = 3 then
    if s.fld (rSpd_SPD_CFG u) 4 2 = 3 then s.useFree.produce (192 + u) (natBits s.freeVal.toNat 0 16) .good
    else s.produce (192 + u) (ofSigned 16 (s.spdValue u w)) .good
  else s.produce (192 + u) 0 .unknown

/-- The word of a unit at a superframe boundary `w` (R237); a transition to FAULT goes before an edge of the same tick (R239). -/
def State.spdWrite (s0 : State) (u w : Nat) : State :=
  if s0.spdMode u = 0 then s0
  else
    let s := ((s0.takeSome u fun e => decide (e.time < w)).spdSense u w).takeEdges u w
    if s.spdState u = 5 then s.produce (192 + u) 0 .fault
    else if s.spdMode u = 3 then s.winWord u w
    else s.speedWord u w

end Sys2Proof.Machine
end

