-- ==== Sys2Proof/Machine/Frames.lean ====
section
/-! DEFINITION. Keys in use (R392), the layout of fabric frames and control blocks (R347, R351), their tags (R373), sending
them on a port, and what every frame and block received must pass. -/

namespace Sys2Proof.Machine

open Sys2Proof

/-! Key slots (R392): owner 0–63 a connection, 64–71 a port -/

def State.keySlot (s : State) (o k : Nat) : KeySlot := Tab.get (fun _ => KeySlot.reset) s.net.keys (2 * o + k)
def State.modKeySlot (s : State) (o k : Nat) (f : KeySlot → KeySlot) : State :=
  s.modNet fun x => { x with keys := Tab.modify (fun _ => KeySlot.reset) x.keys (2 * o + k) f }

/-- Valid for receive at a time. -/
def KeySlot.rxOk (x : KeySlot) (t : Nat) : Bool := x.present && (x.retire = 0 || decide (t < x.retire))

/-- Usable for transmit: START has passed as well. -/
def KeySlot.txOk (x : KeySlot) (t : Nat) : Bool := x.rxOk t && decide (x.start ≤ t)

/-- The slot the transmitter uses: the higher EPOCH among those usable. -/
def State.txSlot (s : State) (o : Nat) : Option Nat :=
  let a := s.keySlot o 0
  let b := s.keySlot o 1
  if a.txOk s.now && b.txOk s.now then some (b2n (decide (a.epoch < b.epoch)))
  else if a.txOk s.now then some 0 else if b.txOk s.now then some 1 else none

/-- No slot is usable for transmit: KEY_NONE begins (R392). -/
def State.keyMissing (s : State) (o : Nat) : State :=
  if s.net.keyNone.contains o then s
  else (s.modNet fun x => { x with keyNone := o :: x.keyNone }).raise 370 0 (o % 64)

/-- A slot is usable again: KEY_NONE ends. -/
def State.keyThere (s : State) (o : Nat) : State := s.modNet fun x => { x with keyNone := x.keyNone.filter (· ≠ o) }

/-! Ports (R343) -/

/-- Plane of a port: 0 = A, 1 = B. -/
def portPlane (p : Nat) : Nat := p / 2 % 2
def portSpine (p : Nat) : Bool := decide (4 ≤ p)
def portEast (p : Nat) : Bool := p % 2 = 0
/-- The other port of the same plane and kind. -/
def portOpp (p : Nat) : Nat := if p % 2 = 0 then p + 1 else p - 1
def State.port (s : State) (p : Nat) : PortSt := Tab.get (fun _ => PortSt.reset) s.fab.ports p
def State.modPort (s : State) (p : Nat) (f : PortSt → PortSt) : State :=
  s.modFab fun x => { x with ports := Tab.modify (fun _ => PortSt.reset) x.ports p f }

/-- PT_STAT.STATE (R346): 0 DISABLED, 1 DETECT, 2 TRAIN, 3 ALIGN, 4 CHECK, 5 UP, 6 ISOLATED. -/
def State.portState (s : State) (p : Nat) : Nat := s.fld (rPort_PT_STAT p) 0 3
def State.portUp (s : State) (p : Nat) : Bool := s.portState p = 5

/-- Port source 256 + 8·p + k, the port in the address hint (R374). -/
def State.portRaise (s : State) (p k : Nat) : State := s.raise (256 + 8 * p + k) 0 p

/-! Places (R11, R347, R366) -/

def State.selfPos (s : State) : Nat := s.dev.slot.toNat % 32
def State.selfRing (s : State) : Nat := s.dev.slot.toNat / 32 % 16
def State.selfCluster (s : State) : Nat := s.dev.slot.toNat / 512

/-- Slot identity of a position of this ring. -/
def State.slotAt (s : State) (pos : Nat) : Nat := s.dev.slot.toNat / 32 * 32 + pos

/-- Is a position of this ring configured? -/
def State.conf (s : State) (pos : Nat) : Bool := s.bit rFab_CONF_MAP pos

/-- Configured members of the ring; ring numbers on the spine are 0 to this count less one (log 41). -/
def State.ringM (s : State) : Nat := s.fld rFab_FAB_CFG 4 5 + 1
def State.spineM (s : State) : Nat := s.fld rFab_FAB_CFG 12 4 + 1
def State.fabDual (s : State) : Bool := s.bit rFab_FAB_CFG 0
def State.isBridge (s : State) : Bool := s.bit rFab_FAB_CFG 1
def State.fabAuth (s : State) : Bool := s.bit rFab_FAB_CFG 2

/-- Is plane `pl` configured? -/
def State.planeOn (s : State) (pl : Nat) : Bool := pl = 0 || s.fabDual

/-- The next configured position east or west of one. -/
def State.nextPos (s : State) (pos : Nat) (east : Bool) : Nat :=
  let at_ (j : Nat) : Nat := if east then (pos + 1 + j) % 32 else (pos + 31 - j) % 32
  match (List.range 32).find? (fun j => s.conf (at_ j)) with
  | some j => at_ j
  | none => pos

/-- Hops eastward from position `a` to position `b`, over the configured members. -/
def State.hopsEast (s : State) (a b : Nat) : Nat :=
  ((List.range ((b + 32 - a) % 32)).filter fun j => s.conf ((a + 1 + j) % 32)).length

/-- Is east the shorter way from this member to a position, east on a tie (R364)? -/
def State.eastTo (s : State) (b : Nat) : Bool := decide (s.hopsEast s.selfPos b ≤ s.hopsEast b s.selfPos)

/-- Hops in the shorter direction to a position, or to a ring on the spine (R358). -/
def State.ringHops (s : State) (b : Nat) : Nat := min (s.hopsEast s.selfPos b) (s.hopsEast b s.selfPos)
def State.spineHops (s : State) (r : Nat) : Nat :=
  min ((r + s.spineM - s.selfRing) % s.spineM) ((s.selfRing + s.spineM - r) % s.spineM)

/-- Slot identity expected of the neighbour on a port, under a mask: on a spine port the cluster and the ring (R352; log 40). -/
def State.neighbourOk (s : State) (p origin : Nat) : Bool :=
  if portSpine p then
    let r := if portEast p then (s.selfRing + 1) % s.spineM else (s.selfRing + s.spineM - 1) % s.spineM
    decide (origin / 32 = s.selfCluster * 16 + r)
  else decide (origin = s.slotAt (s.nextPos s.selfPos (portEast p)))

/-- Bits [31:0] of the fabric section hash. -/
def State.cfgHash (s : State) : Nat := (s.rd rFab_CFG_HASH).toNat

/-! Sending -/

/-- Count a block of 32 bytes, or each of a frame, into TX_PEAK: 272 line bits a block (R345; log 42). -/
def State.portCount (s : State) (p bytes : Nat) : State :=
  let s1 := s.modPort p fun x => { x with tx := x.tx + (bytes + 31) / 32 }
  let share := min ((s1.port p).tx * 2720000 / (3515625 * (portLanes p).length)) 10000
  if s1.fld (rPort_TX_PEAK p) 0 14 < share then s1.setFld (rPort_TX_PEAK p) 0 14 share else s1

/-- The 96-bit IV of a link tag (R373; packing log 43). -/
def linkIv (slot sf typ flags ord : Nat) : List Byte :=
  natLe 2 slot ++ natLe 4 sf ++ natLe 1 typ ++ natLe 1 flags ++ natLe 4 ord

/-- Bits of FLAGS that the sender sets: plane, direction and, with authentication on, TAG and KSEL (R347, R351). -/
def sendFlags (p : Nat) (slot : Option Nat) : Nat :=
  portPlane p + 2 * b2n (!portEast p) + match slot with
    | some k => 4 + 8 * k
    | none => 0

/-- The slot a port tags with: none without authentication; `none` outside where no key is usable (R373, R392). -/
def State.linkSlot (s : State) (p : Nat) : Option (Option Nat) :=
  if s.fabAuth then (s.txSlot (64 + p)).map some else some none

/-- The tag of bytes sent on a port (R373). -/
def State.linkTag (s : State) (p : Nat) (slot : Option Nat) (typ flags : Nat) (bs : List Byte) : List Byte :=
  match slot with
  | some k => natBe 16 (Config.gmacTag (s.keySlot (64 + p) k).key
      (linkIv s.dev.slot.toNat (s.sf % 2 ^ 32) typ flags (s.port p).ord) bs).toNat
  | none => []

/-- Note a frame or block sent on a port; a tagged one shows the key slot in use (R376). -/
def State.portSent (s : State) (p n : Nat) (slot : Option Nat) : State :=
  let s1 := match slot with
    | some k => ((s.modPort p fun x => { x with ord := x.ord + 1 }).keyThere (64 + p)).setFld (rPort_PT_STAT p) 5 1 k
    | none => s
  s1.portCount p n

/-- What a frame's header carries beside PLANE, DIR, TAG, KSEL and LEN (R347); `hi` is FLAGS [7:4]. -/
structure FrameHdr where
  typ : Nat
  hi : Nat
  hops : Nat
  ver : Nat
  origin : Nat
  sf : Nat
  hash : Nat
deriving DecidableEq, Repr

/-- The bytes of a frame up to its tag (R347). `bad` gives a CRC that fails. -/
def frameBytes (h : FrameHdr) (flags : Nat) (payload : List Byte) (bad : Bool) : List Byte :=
  let body := natLe 1 h.typ ++ natLe 1 flags ++ natLe 1 h.hops ++ natLe 1 h.ver ++ natLe 2 h.origin ++ natLe 2 (payload.length / 8)
    ++ natLe 4 h.sf ++ natLe 4 h.hash ++ payload
  let c := crc32c body
  body ++ natLe 4 (if bad then ~~~c else c).toNat ++ natLe 4 0

/-- Send a frame on a port that is UP. `bad` is a copy whose incoming frame failed: its CRC fails, and with authentication its tag is
inverted (R373; log 44). -/
def State.sendFrame (s : State) (p : Nat) (h : FrameHdr) (dest : Nat) (payload : List Byte) (bad : Bool) : State :=
  if !s.portUp p then s
  else match s.linkSlot p with
  | none => s.keyMissing (64 + p)
  | some k =>
    let flags := sendFlags p k + 16 * h.hi
    let bs := frameBytes h flags payload (bad && k.isNone)
    let tag := (s.linkTag p k h.typ flags bs).map fun b => if bad then ~~~b else b
    (s.emit (.frame p h.typ dest (bs ++ tag))).portSent p (bs ++ tag).length k

/-- Send a frame of this device, in this superframe; FLAGS show an origin in HALTED (R347). -/
def State.sendOwn (s : State) (p typ hops dest : Nat) (payload : List Byte) : State :=
  s.sendFrame p ⟨typ, b2n (s.modeIs .halted), hops, 1, s.dev.slot.toNat, s.sf % 2 ^ 32, s.cfgHash⟩ dest payload false

/-- HOPS_LEFT of a frame of this device on a port: M − 1, M the configured members of its ring or spine (R356). -/
def State.ownHops (s : State) (p : Nat) : Nat := (if portSpine p then s.spineM else s.ringM) - 1

/-- The 32 bytes of a control block (R351). -/
def ctlBytes (ctype flags hops port origin : Nat) (arg tag : List Byte) : List Byte :=
  let body := natLe 1 ctype ++ natLe 1 flags ++ natLe 1 hops ++ natLe 1 port ++ natLe 2 origin ++ arg
  let all := body ++ natLe 4 (crc32c body).toNat
  all ++ (tag ++ List.replicate 16 (0 : Byte)).take 16

/-- Send a control block on a port: in UP, a HELLO in CHECK as well (R351, R352). `bad` is a copy whose incoming tag failed: its tag is
inverted (R373). -/
def State.sendCtlOr (s : State) (bad : Bool) (p ctype hops port origin : Nat) (arg : List Byte) : State :=
  if !(s.portUp p || (ctype = 0x84 && s.portState p = 4)) then s
  else match s.linkSlot p with
  | none => s.keyMissing (64 + p)
  | some k =>
    let flags := sendFlags p k
    let bs := (ctlBytes ctype flags hops port origin arg []).take 16
    let tag := (s.linkTag p k ctype flags bs).map fun b => if bad then ~~~b else b
    (s.emit (.ctl p ctype (ctlBytes ctype flags hops port origin arg tag))).portSent p 32 k

def State.sendCtl (s : State) (p ctype hops port origin : Nat) (arg : List Byte) : State := s.sendCtlOr false p ctype hops port origin arg

/-- The HELLO of a port (R351, R352). -/
def State.sendHello (s : State) (p : Nat) : State :=
  s.sendCtl p 0x84 0 p s.dev.slot.toNat (natLe 4 s.cfgHash ++ natLe 1 (b2n (portSpine p) + 2 * b2n s.isBridge) ++ natLe 1 1)

/-- A HEARTBEAT (R345, R351). -/
def State.sendBeat (s : State) (p : Nat) : State :=
  (s.sendCtl p 0x81 0 p s.dev.slot.toNat (natLe 4 (s.sf % 2 ^ 32) ++ natLe 2 0)).modPort p fun x => { x with beat := s.now }

/-- The HELLO that a port in CHECK sends of itself (R352). -/
def State.sayHello (s : State) (p : Nat) : State := (s.sendHello p).modPort p fun x => { x with beat := s.now }

/-- What a port sends of itself in a cycle: in UP a HEARTBEAT every 0.5 µs, in CHECK a HELLO every 1 µs (R345, R352; log 149). -/
def State.portBeat (s : State) (p : Nat) : State :=
  if s.portUp p && (s.port p).beat + 50 ≤ s.now then s.sendBeat p
  else if s.portState p = 4 && (s.port p).beat + 100 ≤ s.now then s.sayHello p else s

/-- The configured ring ports. -/
def State.ringPorts (s : State) : List Nat := [0, 1, 2, 3].filter fun p => s.planeOn (portPlane p)
def State.spinePorts (s : State) : List Nat := if s.isBridge then [4, 5, 6, 7].filter fun p => s.planeOn (portPlane p) else []

/-! Receiving -/

/-- The little-endian number at byte `a` of a byte list, `n` bytes. -/
def leAt (bs : List Byte) (a n : Nat) : Nat := leNat ((bs.drop a).take n)

/-- The codewords of a frame or block are counted; each that FEC could not correct raises FEC_UNCORR (R345, R374, R376, R377). -/
def State.lineIn (s : State) (p : Nat) (l : RxLine) : State :=
  let s1 := s.wr64 (rPort_FEC_CORR_LO p) (s.rd64 (rPort_FEC_CORR_LO p) + l.corr)
  let s2 := s1.each ((portLanes p).zip [l.sym0, l.sym1]) fun x e => x.wr64 (rLane_SYM_ERR_LO e.1) (x.rd64 (rLane_SYM_ERR_LO e.1) + e.2)
  (s2.each (List.range l.bad) fun x _ => (x.bump (rPort_FEC_UNCORR p)).portRaise p 2).modPort p fun x => { x with
    fecAt := (List.replicate (min l.bad 4) s.now ++ x.fecAt).take 4 }

/-- A block arrives on a port that is UP: a gap of more than 0.5 µs counts in HB_MISS (R346, R376). -/
def State.portHeard (s : State) (p : Nat) : State :=
  let s1 := if (s.port p).lastRx + 50 < s.now then s.bump (rPort_HB_MISS p) else s
  s1.modPort p fun x => { x with lastRx := s.now }

/-- Does the tag of a received frame or block pass: TAG = 1, the slot of KSEL valid for receive, and the tag itself (R373)? -/
def State.tagPass (s : State) (p flags : Nat) (tagOk : Bool) : Bool :=
  !s.fabAuth || (natBit flags 2 && (s.keySlot (64 + p) (natBits flags 3 1)).rxOk s.now && tagOk)

/-- AUTH_FAIL (R373). -/
def State.authFail (s : State) (p : Nat) : State := (s.bump (rPort_AUTH_ERR p)).portRaise p 4

/-- The fields of a frame. -/
def frTyp (bs : List Byte) : Nat := leAt bs 0 1
def frFlags (bs : List Byte) : Nat := leAt bs 1 1
def frHops (bs : List Byte) : Nat := leAt bs 2 1
def frOrigin (bs : List Byte) : Nat := leAt bs 4 2 % 4096
def frLen (bs : List Byte) : Nat := 8 * leAt bs 6 2
def frSf (bs : List Byte) : Nat := leAt bs 8 4
def frHash (bs : List Byte) : Nat := leAt bs 12 4
def frPayload (bs : List Byte) : List Byte := (bs.drop 16).take (frLen bs)

/-- Does a frame's CRC check, over the length its header gives (R347)? -/
def frCrcOk (bs : List Byte) : Bool :=
  decide (24 + frLen bs ≤ bs.length) && decide (leAt bs (16 + frLen bs) 4 = (crc32c (bs.take (16 + frLen bs))).toNat)

/-- IMG_HASH shows the first 16 bytes of an image hash. -/
def State.setHash16 (s : State) (h : Nat) : State :=
  s.each (List.range 4) fun x i => x.wrN (rCfg_IMG_HASH i) (h / 2 ^ (32 * i))

/-- The COMMIT_SWITCH entry of the staged image, which the switch waits for (R449): its IMG_HASH is the staged image's. -/
def State.commitGuard (s : State) (role master : Nat) : State :=
  (s.modCfg fun c => { c with queue := c.queue ++ [(clogBody (s.setHash16 s.cfg.stagedHash) role 0 master 0 0x11 0 [], .commit)] }).modCfg
    fun c => { c with logged := false }

/-- The switch time of the set is known: SW_TIME shows it, and the entry of the switch is written (R445, R446, R449). -/
def State.setSwitchAt (s : State) (t : Nat) : State :=
  ((s.modCfg fun c => { c with switchT := some t }).wr64 rCfg_SW_TIME_LO t).commitGuard 4 3

/-- A frame with the staged image's fabric hash: with its yes given the member switches at the next multiple of 16 ms; a member
that keeps its old image raises SET_DIVERGED (R446). -/
def State.hashSeen (s : State) (h : Nat) : State :=
  if s.cfg.stagedFab = some h then
    match s.cfg.yesAt, s.cfg.switchT with
    | some _, none => s.setSwitchAt (s.nextMultiple 1600000)
    | some _, some _ => s
    | none, _ => s.raise0 954
  else s

/-- A frame arrives on a port; the second part says whether it passed everything of R345, R347, R354 and R373. `lo` and `hi` bound
its class. A frame that an uncorrectable codeword invalidates is not received (log 149). -/
def State.rxFrame (s : State) (p typ lo hi : Nat) (bs : List Byte) (ln : RxLine) : State × Bool :=
  if !s.portUp p || frTyp bs ≠ typ then (s, false)
  else if ln.bad ≠ 0 then (s.lineIn p ln, false)
  else
    let s1 := (s.lineIn p ln).portHeard p
    if !frCrcOk bs then ((s1.bump (rPort_CRC_ERR p)).portRaise p 3, false)
    else if !s1.tagPass p (frFlags bs) ln.tagOk then (s1.authFail p, false)
    else if leAt bs 3 1 ≠ 1 then (s1, false)
    else if frHash bs ≠ s1.cfgHash then (s1.hashSeen (frHash bs), false)
    else if s1.now % 6250 < lo || hi ≤ s1.now % 6250 then (s1.portRaise p 7, false)
    else (s1, true)

/-- Does a frame fail what its cut-through copy then shows: codewords, CRC, tag (R345, R347, R373)? -/
def State.frBad (s : State) (p : Nat) (bs : List Byte) (ln : RxLine) : Bool :=
  decide (ln.bad ≠ 0) || !frCrcOk bs || !s.tagPass p (frFlags bs) ln.tagOk

/-- The cut-through copy of a frame, sent on at once whatever is found later, within its class: the frame as it came, HOPS_LEFT one less,
its CRC and tag anew (R354, R356, R373). `old` is the state in which it arrived. -/
def State.forward (s old : State) (p lo hi : Nat) (bs : List Byte) (ln : RxLine) : State :=
  if s.portUp p && 2 ≤ frHops bs && frOrigin bs ≠ s.dev.slot.toNat && decide (lo ≤ s.now % 6250) && decide (s.now % 6250 < hi) then
    s.sendFrame (portOpp p) ⟨frTyp bs, frFlags bs / 16, frHops bs - 1, leAt bs 3 1, leAt bs 4 2, frSf bs, frHash bs⟩ 0 (frPayload bs)
      (old.frBad p bs ln)
  else s

/-- A frame of the image, events or bulk class arrives: it is checked, and sent on (R356). -/
def State.rxPass (s : State) (p typ lo hi : Nat) (bs : List Byte) (ln : RxLine) : State × Bool :=
  let r := s.rxFrame p typ lo hi bs ln
  (if frTyp bs = typ then r.1.forward s p lo hi bs ln else r.1, r.2)

/-- The fields of a control block. -/
def cbType (bs : List Byte) : Nat := leAt bs 0 1
def cbFlags (bs : List Byte) : Nat := leAt bs 1 1
def cbHops (bs : List Byte) : Nat := leAt bs 2 1
def cbPort (bs : List Byte) : Nat := leAt bs 3 1 % 8
def cbOrigin (bs : List Byte) : Nat := leAt bs 4 2 % 4096
def cbArg (bs : List Byte) : List Byte := (bs.drop 6).take 6

/-- Is a block whole: BCRC, and a CTYPE that is not reserved? -/
def cbWhole (bs : List Byte) : Bool :=
  bs.length = 32 && leAt bs 12 4 = (crc32c (bs.take 12)).toNat && decide (0x81 ≤ cbType bs) && decide (cbType bs ≤ 0x84)

/-- A control block arrives on a port in UP or CHECK (R351): a failing BCRC or a reserved CTYPE is discarded and counted. One that an
uncorrectable codeword invalidates is not received (R345; log 149). -/
def State.rxCtl (s : State) (p ctype : Nat) (bs : List Byte) (ln : RxLine) : State × Bool :=
  if !(s.portUp p || s.portState p = 4) then (s, false)
  else if ln.bad ≠ 0 then (s.lineIn p ln, false)
  else
    let s1 := (s.lineIn p ln).portHeard p
    if !cbWhole bs then
      (s1.bump (rPort_CRC_ERR p), false)
    else if !s1.tagPass p (cbFlags bs) ln.tagOk then (s1.authFail p, false)
    else (s1, decide (cbType bs = ctype))

/-- A LINK_NOTICE or TOKEN is forwarded as a frame is, cut-through: also one whose tag then fails (R351, R359, R373). -/
def State.forwardCtl (s : State) (p : Nat) (bs : List Byte) (bad : Bool) : State :=
  if 2 ≤ cbHops bs && cbOrigin bs ≠ s.dev.slot.toNat then
    s.sendCtlOr bad (portOpp p) (cbType bs) (cbHops bs - 1) (cbPort bs) (cbOrigin bs) (cbArg bs)
  else s

/-- A LINK_NOTICE or TOKEN arrives on a port that is UP: it goes on whatever its tag is found to be, and the second part says whether it
is taken. -/
def State.rxRelay (s : State) (p ctype : Nat) (bs : List Byte) (ln : RxLine) : State × Bool :=
  let r := s.rxCtl p ctype bs ln
  if s.portUp p && cbWhole bs && cbType bs = ctype then (r.1.forwardCtl p bs !r.2, r.2) else (r.1, false)

/-- Let Meridian reach the next moment at tick `t` of a superframe, this one's if it is still to come. -/
def State.atTick (s : State) (t : Nat) : State :=
  s.advanceTo (if s.now % 6250 ≤ t then s.sf * 6250 + t else (s.sf + 1) * 6250 + t)

end Sys2Proof.Machine
end

