-- ==== Sys2Proof/Machine/Ports.lean ====
section
/-! DEFINITION. Link training and supervision of the fabric ports (R346), HELLO (R352), HEARTBEAT (R351), LINK_NOTICE (R359),
tokens (R368) and takeover (R371). -/

namespace Sys2Proof.Machine

open Sys2Proof

/-! States of a port (R346) -/

/-- A port enters a state. -/
def State.setPort (s : State) (p k : Nat) : State :=
  ((s.setFld (rPort_PT_STAT p) 0 3 k).setBit (rPort_PT_STAT p) 3 (k = 5)).modPort p fun x => { x with
    since := s.now
    hellos := 0
    lastRx := s.now }

/-- May ports train in this device mode and lifecycle state? -/
def State.trainMode (s : State) : Bool :=
  s.linksOn && (s.modeIs .sync || s.modeIs .operate || s.modeIs .harebell || s.modeIs .halted)

/-- Set a bit of LN_STAT on every lane of a port (R377). -/
def State.laneBits (s : State) (p lo n v : Nat) : State :=
  s.each (portLanes p) fun x l => x.setFld (rLane_LN_STAT l) lo n v

/-- DETECT: the training pattern is transmitted and nothing is known of the lanes yet. -/
def State.portDetect (s : State) (p : Nat) : State := (s.setPort p 1).laneBits p 0 4 0

/-- A port that is enabled leaves DISABLED. -/
def execPortEnable (p : Fin 8) (s : State) : Host.Outcome State Fault Refusal :=
  done (if s.trainMode && s.bit (rPort_PT_CFG p) 0 && s.portState p = 0 then s.portDetect p else s)

/-- Signal present on every lane for 100 µs. -/
def execLinkSignalDetect (p : Fin 8) (s : State) : Host.Outcome State Fault Refusal :=
  done (if s.portState p = 1 && (s.port p).retryAt.isNone then
    ((s.advanceTo ((s.port p).since + 10000)).setPort p 2).laneBits p 0 1 1 else s)

/-- A lane's eye as measured: height in mV, width in mUI (R377). -/
def State.eyeSet (s : State) (l h w : Nat) : State :=
  let s1 := (s.wrN (rLane_EYE_H l) h).wrN (rLane_EYE_W l) w
  s1.wrN (rLane_EYE_H_MIN l) (min (s1.rd (rLane_EYE_H_MIN l)).toNat h)

/-- CDR locked and equalisers converged on every lane, with these eyes. -/
def execLinkTrained (p : Fin 8) (h0 h1 : BitVec 8) (w0 w1 : BitVec 10) (s : State) : Host.Outcome State Fault Refusal :=
  done (if s.portState p = 2 then
    let ls := portLanes p
    let eyes := ls.zip [(h0.toNat, w0.toNat), (h1.toNat, w1.toNat)]
    let s1 := (s.each eyes fun x e => x.eyeSet e.1 e.2.1 e.2.2).laneBits p 1 2 3
    if eyes.all fun e => decide (s.fld (rLane_LN_CFG e.1) 16 8 ≤ e.2.1) then s1.setPort p 3 else s1
  else s)

/-- FEC and alignment-marker lock, lanes deskewed: CHECK, where HELLOs are sent (R352). -/
def execLinkAligned (p : Fin 8) (s : State) : Host.Outcome State Fault Refusal :=
  done (if s.portState p = 3 then ((s.setPort p 4).laneBits p 3 1 1).sayHello p else s)

/-- TRAIN lasts 20 ms, or ALIGN 2 ms: back to DETECT; after TRAIN the next attempt starts 100 ms later. -/
def execTrainFail (p : Fin 8) (s : State) : Host.Outcome State Fault Refusal :=
  done (if s.portState p = 2 then
    let s1 := ((s.advanceTo ((s.port p).since + 2000000)).portDetect p).portRaise p 1
    s1.modPort p fun x => { x with retryAt := some (s1.now + 10000000) }
  else if s.portState p = 3 then ((s.advanceTo ((s.port p).since + 200000)).portDetect p).portRaise p 1
  else s)

/-- The 100 ms after a failed attempt have passed. -/
def execTrainRetry (p : Fin 8) (s : State) : Host.Outcome State Fault Refusal :=
  done (match (s.port p).retryAt with
    | some t => if s.portState p = 1 then
        let s1 := s.advanceTo t
        s1.modPort p fun x => { x with retryAt := none, since := s1.now } else s
    | none => s)

/-- CHECK fails: ISOLATED. -/
def State.isolate (s : State) (p : Nat) : State := (s.setPort p 6).portRaise p 5

/-- A LINK_NOTICE about a ring port that left UP in the superframe `sf`, sent on a port (R351, R359). -/
def State.sendNotice (s : State) (on_ p sf : Nat) : State :=
  s.sendCtl on_ 0x82 (s.ringM - 1) p s.dev.slot.toNat (natLe 4 sf ++ natLe 2 0)

/-- CHECK passes: UP; heartbeats start, and a LINK_NOTICE held for the port is sent in both directions (R346, R359). -/
def State.portGoUp (s : State) (p origin : Nat) : State :=
  let s1 := (s.setPort p 5).modPort p fun x => { x with wasUp := true, notice := none }
  let s2 := ((s1.setFld (rPort_PT_STAT p) 16 12 origin).setBit (rPort_PT_STAT p) 4 s.fabAuth).sendBeat p
  match (s.port p).notice with
  | some sf => (s2.sendNotice p p sf).sendNotice (portOpp p) p sf
  | none => s2

/-- Does a HELLO meet every item of R352 beyond BCRC and tag? -/
def State.helloOk (s : State) (p : Nat) (bs : List Byte) : Bool :=
  s.neighbourOk p (cbOrigin bs) && decide (natBits (cbFlags bs) 0 1 = portPlane p) && decide (leAt bs 6 4 = s.cfgHash)
  && decide (leAt bs 11 1 = 1) && decide (cbPort bs = portOpp p) && decide (natBit (leAt bs 10 1) 0 = portSpine p)

/-- A HELLO block arrives (R352): a port in UP answers it. -/
def State.hello (s : State) (p : Nat) (bs : List Byte) (ln : RxLine) : State :=
  let r := s.rxCtl p 0x84 bs ln
  if s.portState p = 5 then (if r.2 then r.1.sendHello p else r.1)
  else if s.portState p ≠ 4 || (bs.length = 32 && cbType bs ≠ 0x84) then r.1
  else if !(r.2 && s.helloOk p bs) then r.1.isolate p
  else
    let s1 := r.1.modPort p fun x => { x with hellos := x.hellos + 1 }
    if 3 ≤ (s1.port p).hellos then s1.portGoUp p (cbOrigin bs) else s1

def execHelloReceive (p : Fin 8) (bs : List Byte) (ln : RxLine) (s : State) : Host.Outcome State Fault Refusal :=
  done (s.hello p bs ln)

/-- 100 µs in CHECK without three passing HELLOs. -/
def execHelloTimeout (p : Fin 8) (s : State) : Host.Outcome State Fault Refusal :=
  done (if s.portState p = 4 then (s.advanceTo ((s.port p).since + 10000)).isolate p else s)

/-- A write of PORT.CMD (R376). -/
def State.portCmd (s : State) (m : Master) (p : Nat) (v : Word) : State :=
  s.regCmd m (rPort_CMD p) fun x => if v.getLsbD 0 && x.portState p = 6 then x.portDetect p else x

def execPortRetrain (m : Master) (p : Fin 8) (s : State) : Host.Outcome State Fault Refusal := done (s.portCmd m p 1)

/-- A HEARTBEAT arrives: it counts for the supervision of the link. -/
def execHeartbeatReceive (p : Fin 8) (bs : List Byte) (ln : RxLine) (s : State) : Host.Outcome State Fault Refusal :=
  done (if s.portUp p then (s.rxCtl p 0x81 bs ln).1 else s)

/-! Tokens (R349, R368) -/

/-- The partition here that a token is of: this device's own, or its mirror of the buddy's (R349; log 41). -/
def State.tokLocal (s : State) (home part : Nat) : Option Nat :=
  if home = s.selfPos then (if s.bit (rPart_PT_CFG part) 1 then some part else none)
  else if s.bit rFab_FAB_CFG 21 && home = s.fld rFab_FAB_CFG 16 5 then
    (List.range 16).find? fun p => s.bit rEph_MIR_RX_CFG p && decide ((Config.mirrorHome p).val = part)
  else none

/-- The token number, 16·(home position) + home partition, of a partition here that has a token. -/
def State.tokKey (s : State) (p : Nat) : Nat :=
  if s.bit rEph_MIR_RX_CFG p then 16 * s.fld rFab_FAB_CFG 16 5 + (Config.mirrorHome p).val else 16 * s.selfPos + p

/-- Has the partition a token: mobile, or a mirror (R368)? -/
def State.hasTok (s : State) (p : Nat) : Bool := s.bit (rPart_PT_CFG p) 1 || s.bit rEph_MIR_RX_CFG p

/-- This device's slot identity. -/
def State.self (s : State) : Nat := s.dev.slot.toNat

/-- Take or lose the token: PT_MODE.OWNS_TOKEN follows; a mirror that is not held is out of sync until it has a resync. -/
def State.setTok (s : State) (p : Nat) (t : Tok) : State :=
  let s1 := (s.modTok p fun _ => t).setBit (rPart_PT_MODE p) 4 t.held
  if !t.held && (s.tok p).held then s1.setBit rEph_MIR_RX_SYNC p false else s1

/-- Does (EPOCH, OWNER) win over another token (R368 rules 1 and 2)? -/
def tokWins (e o e' o' : Nat) : Bool := decide (e' < e) || (decide (e = e') && decide (o < o'))

/-- A token is seen: the precedence of R368. -/
def State.tokenSeen (s : State) (home part epoch owner : Nat) : State :=
  let k := 16 * home + part
  let old := Tab.get (fun _ => (0, 0)) s.fab.seen k
  let s1 := if tokWins epoch owner old.1 old.2 then s.modFab fun f => { f with seen := Tab.set (fun _ => (0, 0)) f.seen k (epoch, owner) }
    else s
  match s.tokLocal home part with
  | none => s1
  | some p =>
    let t := s.tok p
    let s2 := if epoch = t.epoch && owner ≠ t.owner then s1.raise 328 0 p else s1
    if tokWins epoch owner t.epoch t.owner then s2.setTok p ⟨epoch, owner, owner = s.self, false⟩ else s2

/-- A TOKEN block for a partition here, on every configured plane in both directions (R351, R371). -/
def State.sendToken (s : State) (p : Nat) : State :=
  let k := s.tokKey p
  s.each s.ringPorts fun x q =>
    x.sendCtl q 0x83 (x.ringM - 1) 0 x.self (natLe 4 (x.tok p).epoch ++ natLe 1 (k % 16) ++ natLe 1 (k / 16))

/-- A TOKEN block arrives: forwarded, and its precedence applied. -/
def execTokenReceive (p : Fin 8) (bs : List Byte) (ln : RxLine) (s : State) : Host.Outcome State Fault Refusal :=
  done (
    let r := s.rxRelay p 0x83 bs ln
    if r.2 then r.1.tokenSeen (leAt bs 11 1 % 32) (leAt bs 10 1 % 16) (leAt bs 6 4) (cbOrigin bs) else r.1)

/-! Views and quorum (R366) -/

/-- The view on a plane. -/
def State.viewOf (s : State) (pl : Nat) : Nat := (s.rd (if pl = 0 then rFab_VIEW_A else rFab_VIEW_B)).toNat

/-- Does a set of members hold quorum among the configured ones? -/
def quorum (n conf view m : Nat) : Bool :=
  let c := ((List.range n).filter (natBit view)).length
  let low := ((List.range n).find? (natBit conf)).getD 0
  decide (m < 2 * c) || (decide (2 * c = m) && natBit view low)

def State.ringQuorum (s : State) (view : Nat) : Bool := quorum 32 (s.rd rFab_CONF_MAP).toNat view s.ringM

/-! Takeover (R371) -/

/-- Position of the configured buddy. -/
def State.buddyPos (s : State) : Nat := s.fld rFab_FAB_CFG 16 5

/-- Is a neighbour's port on a plane, towards a member, known to be down: the own port, or one reported? -/
def State.portCut (s : State) (pos port : Nat) : Bool :=
  if pos = s.selfPos then !s.portUp port else s.fab.notices.contains (pos, port)

/-- On a plane, both links of a member are known to be down: the east port of its western neighbour, the west port of its eastern one. -/
def State.memberCut (s : State) (pl k : Nat) : Bool :=
  s.portCut (s.nextPos k false) (2 * pl) && s.portCut (s.nextPos k true) (2 * pl + 1)

/-- On a plane, the link from a member to the next one east is known to be down, at either end. -/
def State.linkCut (s : State) (pl k : Nat) : Bool := s.portCut k (2 * pl) || s.portCut (s.nextPos k true) (2 * pl + 1)

/-- On a plane, no link on the way east from one position to another is known to be down. -/
def State.wayClear (s : State) (pl a b : Nat) : Bool :=
  (List.range ((b + 32 - a) % 32)).all fun j => !(s.conf ((a + j) % 32) && s.linkCut pl ((a + j) % 32))

/-- On a plane: the own link to the buddy is down, and the buddy's other link has been reported down. -/
def State.buddyCut (s : State) (pl : Nat) : Bool := s.memberCut pl s.buddyPos

/-- The view on a plane from the last image class and the LINK_NOTICEs received since, without the lost buddy: a member that no way of
links leads to any more is in it no longer (R366, R371). -/
def State.viewNow (s : State) (pl : Nat) : Nat :=
  bitMask 32 fun k => natBit (s.viewOf pl) k && k ≠ s.buddyPos
    && (k = s.selfPos || s.wayClear pl s.selfPos k || s.wayClear pl k s.selfPos)

/-- Has the buddy been lost on every configured plane? -/
def State.buddyLost (s : State) : Bool :=
  s.bit rFab_FAB_CFG 21 && s.buddyCut 0 && (!s.fabDual || s.buddyCut 1)

/-- A mirror set is discarded: MIRROR_GAP, and the mirror partition is out of sync (R183). -/
def State.mirrorGap (s : State) (p : Option Nat) : State :=
  let s1 := ((s.modEng fun e => { e with mirRx := none }).bump rEph_MIR_GAP_CNT).raise 203 0 (p.getD 0)
  match p with
  | some k => (s1.modPart k fun x => { x with mirCatch := false }).setBit rEph_MIR_RX_SYNC k false
  | none => s1

/-- The mirror partition here of the buddy's partition `o`: one with MIRROR = 1, or an own mobile partition whose token the
buddy holds (R183, R372; log 41). -/
def State.mirrorOf (s : State) (o : Nat) : Option Nat :=
  (List.range 16).find? fun p => !(s.tok p).held &&
    (if s.bit rEph_MIR_RX_CFG p then decide ((Config.mirrorHome p).val = o)
     else s.bit (rPart_PT_CFG p) 1 && decide ((Config.buddyPart p).val = o))

/-- The mirror partition here that a set being received is for: by the first byte of its header. -/
def State.mirrorOpen (s : State) : Option Nat :=
  match s.eng.mirRx with
  | some x => if x.count = 0 then none else s.mirrorOf ((Mem.byte s.mem.eph (mirInAt (x.gen % 2))).toNat % 16)
  | none => none

/-- The standby takes over a mirror partition whose owner is lost (R371): unless its view holds quorum on no plane or the
mirror is not in sync. TKO_LAST is a free value of at most 40 µs (log 6). -/
def State.takeover (s : State) (p : Nat) : State :=
  let q := s.ringQuorum (s.viewNow 0) || (s.fabDual && s.ringQuorum (s.viewNow 1))
  if !q || !s.bit rEph_MIR_RX_SYNC p then s
  else
    let e := max (s.tok p).epoch (Tab.get (fun _ => (0, 0)) s.fab.seen (s.tokKey p)).1
    let s1 := s.setTok p ⟨e + 1, s.self, true, false⟩
    let s2 := s1.modPart p fun x => { x with takeover := true, suspended := false }
    let s3 := (s2.sendToken p).raise 327 0 p
    (s3.setFld rFab_TKO_LAST 0 16 (s3.freeVal.toNat % 401)).useFree

/-- The loss of the buddy: each partition here that stands by for it is taken over, a mirror set not yet complete is discarded, and no
mirror at the buddy is in sync (R183, R371, R372). -/
def State.takeovers (s : State) : State :=
  let s1 := (s.modEng fun e => { e with mirOk := [] }).each
    ((List.range 16).filter fun p => s.hasTok p && !(s.tok p).held && (s.tok p).owner = s.slotAt s.buddyPos) State.takeover
  if s.eng.mirRx.isSome then s1.mirrorGap s.mirrorOpen else s1

/-- A LINK_NOTICE arrives: forwarded, noted, and perhaps the loss of the buddy (R359, R371). -/
def execLinkNoticeReceive (p : Fin 8) (bs : List Byte) (ln : RxLine) (s : State) : Host.Outcome State Fault Refusal :=
  done (
    let r := s.rxRelay p 0x82 bs ln
    if r.2 then
      let s2 := r.1.modFab fun f => { f with notices := (cbOrigin bs % 32, cbPort bs) :: f.notices.filter (· ≠ (cbOrigin bs % 32, cbPort bs)) }
      if s2.buddyLost then s2.takeovers else s2
    else r.1)

/-- No block for 2 µs, or 4 uncorrectable codewords within 2 µs: the port leaves UP (R346, R359, R374). Of the four, those that came with
frames and blocks have been counted. -/
def State.linkDown (s : State) (p : Nat) (fec : Bool) : State :=
  if !s.portUp p then s
  else
    let counted := ((s.port p).fecAt.filter fun t => s.now < t + 200).length
    let s1 := if fec then s.each (List.range (4 - counted)) fun x _ => (x.bump (rPort_FEC_UNCORR p)).portRaise p 2
      else s.advanceTo ((s.port p).lastRx + 200)
    let s2 := (((s1.bump (rPort_DOWN_CNT p)).wr64 (rPort_DOWN_TIME_LO p) s1.now).portDetect p).portRaise p 0
    if portSpine p then s2
    else
      let sf := s1.sf % 2 ^ 32
      let s3 := (s2.modPort p fun x => { x with notice := some sf }).sendNotice (portOpp p) p sf
      if s3.buddyLost then s3.takeovers else s3

def execLinkDownDetect (p : Fin 8) (fec : Bool) (s : State) : Host.Outcome State Fault Refusal := done (s.linkDown p fec)

/-- The port of a lane. -/
def portOf (l : Nat) : Nat := if l < 8 then l / 2 else l - 4

/-- Does a lane of a port have an eye below EYE_WARN (R549)? -/
def State.eyeLow (s : State) (p : Nat) : Bool := (portLanes p).any fun l => s.fld (rLane_EYE_H l) 0 8 < s.fld (rLane_LN_CFG l) 24 8

/-- A lane's eye height has been below EYE_WARN for 1 s (R374): EYE_LOW begins, unless the port's condition held (R453). -/
def execEyeLow (l : Fin 12) (h : BitVec 8) (w : BitVec 10) (s : State) : Host.Outcome State Fault Refusal :=
  done (if h.toNat < s.fld (rLane_LN_CFG l) 24 8 then
    (s.eyeSet l h.toNat w.toNat).when (!s.eyeLow (portOf l)) fun x => x.portRaise (portOf l) 6 else s)

/-- ADMIN requests the return of a token: the owner hands it back at the next major-frame boundary (R372). -/
def State.tokenCmd (s : State) (m : Master) (v : Word) : State :=
  s.cmdWrite m rFab_TOKEN_CMD (fun x => x.holdsAdmin m) fun x =>
    let p := natBits v.toNat 4 4
    if v.getLsbD 0 && x.hasTok p && (x.tok p).held && x.bit rEph_MIR_RX_CFG p then x.modTok p fun t => { t with back := true } else x

def execTokenHandback (m : Master) (p : Fin 16) (s : State) : Host.Outcome State Fault Refusal :=
  done (s.tokenCmd m (BitVec.ofNat 32 (1 + 16 * p.val)))

end Sys2Proof.Machine
end

