-- ==== Sys2Proof/Machine/Fabric.lean ====
section
/-! DEFINITION. The image and spine classes: sending (R355, R362), receiving (R356, R368), comparing and writing (R358), views,
election and ownership (R360, R366 to R370). -/

namespace Sys2Proof.Machine

open Sys2Proof

/-! Tables (R375) -/

/-- Entry `e` of a table: 0 receive, 1 export, 2 spine export, 3 ring import. -/
def State.fabEntry (s : State) (t e : Nat) : Nat := (Tab.get (fun _ => (0 : BitVec 64)) s.fab.tbl (16384 * t + e)).toNat
def State.fabCount (s : State) (t : Nat) : Nat := Tab.get (fun _ => 0) s.fab.tblCnt t

/-- Fields of a receive entry; spine export and ring import entries read alike (R375; log 38). -/
def feId (v : Nat) : Nat := natBits v 0 21
def feReq (v : Nat) : Bool := natBit v 21
def feSpine (v : Nat) : Bool := natBit v 22
def feOrigin (v : Nat) : Nat := natBits v 23 5
def feWord (v : Nat) : Nat := natBits v 28 11
def feSlot (v : Nat) : Nat := natBits v 39 14
def feValid (v : Nat) : Bool := natBit v 53

/-- The receive entries for the words of an origin. -/
def State.rxEntries (s : State) (spine : Bool) (k : Nat) : List Nat :=
  ((List.range (s.fabCount 0)).map fun e => s.fabEntry 0 e).filter fun v => feValid v && feSpine v = spine && feOrigin v = k

/-- Image SRAM offset of a fabric receive slot (R75). -/
def fabAt (slot : Nat) : Nat := 0x1000 + 8 * slot

/-! Sending (R355, R362) -/

/-- What a bridge forwards in the superframe that begins: the words its tables name, as the classes of the last one left them (R362). -/
def State.fwdTake (s : State) : State :=
  let words (t : Nat) : List (Csw × Bool) := (List.range (s.fabCount t)).map fun e =>
    let v := s.fabEntry t e
    (s.imgCsw (fabAt (feSlot v)) (feId v), Tab.get (fun _ => false) s.fab.safeBits (feSlot v))
  s.when s.isBridge fun x => x.modFab fun f => { f with fwd := Tab.set (fun _ => []) (Tab.set (fun _ => []) f.fwd 2 (words 2)) 3 (words 3) }

/-- A forwarded word: one that fails its checks is replaced, and FWD_CHECK is raised (R362). -/
def State.fwdWord (s : State) (v : Nat) (w : Csw) : State × Csw :=
  if cswValid aT w (feId v) then (s, fixQual (feId v) w) else (s.raise0 332, mkCsw aT (feId v) 0 s.sf .fault)

/-- The words of a table whose entries forward receive slots, with their integrity bits; v = 0, QUAL INIT before the first boundary under
the table. -/
def State.fwdWords (s : State) (t : Nat) : State × List (Csw × Bool) :=
  (List.range (s.fabCount t)).foldl (fun (r : State × List (Csw × Bool)) e =>
    let v := s.fabEntry t e
    let w := (Tab.get (fun _ => []) s.fab.fwd t).getD e (mkCsw aT (feId v) 0 s.sf .init, false)
    let x := r.1.fwdWord v w.1
    (x.1, r.2 ++ [(x.2, w.2)])) (s, [])

/-- The signal ID under which a local index leaves: a mirror partition's produced index under its home ID (R369). -/
def State.outId (s : State) (idx : Nat) : Nat :=
  match s.producer idx with
  | some p => if 256 ≤ idx && s.bit rEph_MIR_RX_CFG p then (Config.homeId idx).val else s.selfId idx
  | none => s.selfId idx

/-- A word as it leaves in a frame, in A_t: one of QUAL FORCED with v = 0 (R432; log 151). -/
def leavesAs (id : Nat) (w : Csw) : Csw := if cswQual w = .forced then mkCsw aT id 0 (cswAge w) .forced else w

/-- A local word recoded to A_t (R73, R355). -/
def State.outWord (s : State) (idx : Nat) : Csw :=
  leavesAs (s.outId idx) (recodeOr (s.localA idx) (s.selfId idx) aT (s.outId idx) (s.imgCsw (8 * idx) (s.selfId idx)))

/-- The words of the export table, with their integrity bits (R355). -/
def State.expWords (s : State) : List (Csw × Bool) :=
  (List.range (s.fabCount 1)).map fun e =>
    let v := s.fabEntry 1 e
    let i := natBits v 0 9
    (s.outWord i, decide (i < 256) || natBit v 9)

/-- IDs of the words sent, in the same order: what a HALTED member codes its FAULT words for. -/
def State.outIds (s : State) (spine : Bool) : List Nat :=
  if spine then (List.range (s.fabCount 2)).map fun e => feId (s.fabEntry 2 e)
  else ((List.range (s.fabCount 1)).map fun e => s.outId (natBits (s.fabEntry 1 e) 0 9))
    ++ (List.range (s.fabCount 3)).map fun e => feId (s.fabEntry 3 e)

/-- A token entry (R349). -/
def State.tokenEntry (s : State) (q : Nat) : List Byte :=
  if s.hasTok q then
    let t := s.tok q
    let quo := s.bit rFab_FAB_STAT 9 || s.bit rFab_FAB_STAT 10
    natLe 4 t.epoch ++ natLe 2 (t.owner % 4096 + 4096 * (s.tokKey q % 16))
      ++ natLe 1 (1 + 2 * b2n t.held + 4 * b2n quo + 8 * b2n (s.part q).suspended) ++ natLe 1 0
  else List.replicate 8 (0 : Byte)

/-- The payload of an IMAGE or SPINE frame (R348); `n` bytes of SAFE_MAP. -/
def imagePayload (n : Nat) (view : Nat) (toks : List Byte) (ws : List (Csw × Bool)) : List Byte :=
  natLe n (bitMask ws.length fun i => match ws[i]? with
    | some w => w.2
    | none => false)
  ++ natLe 8 view ++ toks ++ natLe 8 ws.length ++ ws.flatMap fun w => natLe 8 w.1.toNat

/-- The words this member sends in the present mode: none in SYNC, FAULT in HALTED (R355). -/
def State.classWords (s : State) (spine : Bool) : State × List (Csw × Bool) :=
  if s.modeIs .sync then (s, [])
  else
    let f := s.fwdWords (if spine then 2 else 3)
    let ws := if spine then f.2 else s.expWords ++ f.2
    if s.modeIs .halted then (s, (ws.zip (s.outIds spine)).map fun e => (mkCsw aT e.2 0 s.sf .fault, e.1.2)) else (f.1, ws)

/-- The window of this member in the ring's image class, or of a bridge in the spine's: its frame goes out in both directions
on every configured plane (R354, R355, R362). -/
def State.windowStart (s : State) (spine : Bool) : State :=
  let at_ := if spine then 50 + 300 * s.selfRing else 50 + 70 * s.selfPos
  if !s.trainMode || (if spine then !s.isBridge else !s.conf s.selfPos) then s
  else
    let s1 := s.atTick at_
    let r := s1.classWords spine
    let pl := if spine then imagePayload 256 0 (List.replicate 128 (0 : Byte)) (r.2.take 2048)
      else imagePayload 64 (s1.viewOf 0 + 2 ^ 32 * s1.viewOf 1) ((List.range 16).flatMap s1.tokenEntry) (r.2.take 512)
    r.1.each (if spine then s1.spinePorts else s1.ringPorts) fun x p =>
      x.sendOwn p (if spine then 3 else 2) (if spine then s1.spineM - 1 else s1.ringM - 1) 0 pl

def execImageWindowStart (spine : Bool) (s : State) : Host.Outcome State Fault Refusal := done (s.windowStart spine)

/-! Receiving (R356, R358, R368) -/

/-- Place of the words in a payload, and of WCNT (R348). -/
def wordsAt (spine : Bool) : Nat := if spine then 400 else 208
def payloadWcnt (spine : Bool) (pl : List Byte) : Nat := leAt pl (wordsAt spine - 8) 8 % 4096

/-- Is the payload laid out as R348 says? -/
def payloadOk (spine : Bool) (pl : List Byte) : Bool :=
  decide (payloadWcnt spine pl ≤ (if spine then 2048 else 512)) && decide (pl.length = wordsAt spine + 8 * payloadWcnt spine pl)

/-- Word `i` of a payload, and its SAFE_MAP bit. -/
def payloadWord (spine : Bool) (pl : List Byte) (i : Nat) : Option Csw :=
  if i < payloadWcnt spine pl then some (BitVec.ofNat 64 (leAt pl (wordsAt spine + 8 * i) 8)) else none
def payloadSafe (pl : List Byte) (i : Nat) : Bool := natBit (leAt pl (i / 8) 1) (i % 8)

/-- The valid copy of an entry's word in a frame, with its integrity bit (R358). -/
def rxCopy (v : Nat) (f : RxFrame) : Option (Csw × Bool) :=
  match payloadWord f.spine f.payload (feWord v) with
  | some w => if cswValid aT w (feId v) then some (fixQual (feId v) w, payloadSafe f.payload (feWord v)) else none
  | none => none

/-- A plane's copy: the first valid one from either direction (R358). -/
def State.planeCopy (s : State) (spine : Bool) (k pl v : Nat) : Option (Csw × Bool) :=
  (s.fab.frames.filter fun f => f.spine = spine && f.origin = k && f.plane = pl).findSome? (rxCopy v)

/-- May words of this origin be taken for an entry: of a partition with a token, only from its holder; before any token has been seen, of a
slot that two origins write, from the home device (R357, R368 rule 4)? -/
def State.tokenAllows (s : State) (v : Nat) : Bool :=
  let two := (List.range (s.fabCount 0)).any fun e =>
    let u := s.fabEntry 0 e
    feValid u && feSlot u = feSlot v && feOrigin u ≠ feOrigin v && !feSpine u
  let home := feId v / 512 % 32
  let t := Tab.get (fun _ => (0, 0)) s.fab.seen (16 * home + (Config.idPart (feId v)).val)
  feSpine v || (if t.1 = 0 then !two || feOrigin v = home else t.2 % 32 = feOrigin v)

/-- Write a receive slot. -/
def State.rxPut (s : State) (v : Nat) (w : Csw) (safe : Bool) : State :=
  (s.imgWr (fabAt (feSlot v)) w).modFab fun f => { f with
    safeBits := Tab.set (fun _ => false) f.safeBits (feSlot v) safe
    written := (2 * feSlot v + b2n (feSpine v)) :: f.written }

/-- Write a slot as v = 0, QUAL FAULT. -/
def State.rxFault (s : State) (v : Nat) (safe : Bool) : State := s.rxPut v (mkCsw aT (feId v) 0 s.sf .fault) safe

/-- Write the word chosen for a slot: in HAREBELL always FAULT (R471); FAULT where REQ_SAFE asks for a bit it lacks (R358). -/
def State.rxChosen (s : State) (v : Nat) (c : Csw × Bool) : State :=
  if s.modeIs .harebell then s.rxFault v c.2
  else if feReq v && !c.2 then ((s.rxFault v c.2).bump rFab_INTEG_CNT).raise0 325
  else s.rxPut v c.1 c.2

/-- PLANE_SINGLE, at most once per superframe and plane (R358). -/
def State.planeSingle (s : State) (pl : Nat) : State :=
  if s.fab.single.contains (pl, s.sf) then s
  else (s.modFab fun f => { f with single := (pl, s.sf) :: f.single.filter (·.2 = s.sf) }).raise 323 0 pl

/-- Count a copy missing against a plane. -/
def State.planeFail (s : State) (pl : Nat) : State := s.bump (if pl = 0 then rFab_PLANE_A_FAIL else rFab_PLANE_B_FAIL)

/-- The deadline of an entry's word (R358). -/
def State.rxDeadline (s : State) (spine : Bool) (k v : Nat) : State :=
  if !s.tokenAllows v then s
  else
    let a := s.planeCopy spine k 0 v
    let b := s.planeCopy spine k 1 v
    if !s.fabDual then (if s.modeIs .harebell then s.rxFault v false else s)
    else match a, b with
    | some x, some y =>
      if x.1 = y.1 then s.rxChosen v x
      else (((s.rxFault v x.2).bump rFab_DISAGREE_CNT).raise 322 0 (feSlot v))
    | some x, none => ((s.rxChosen v x).planeFail 1).planeSingle 1
    | none, some y => ((s.rxChosen v y).planeFail 0).planeSingle 0
    | none, none =>
      let s1 := (s.planeFail 0).planeFail 1
      if s.modeIs .harebell then s1.rxFault v false else s1

/-- Ticks from the boundary at which the words of an origin are due (R358, R362). -/
def State.deadline (s : State) (spine : Bool) (k : Nat) : Nat :=
  if spine then 50 + 300 * k + 35 * s.spineHops k + 270 else 50 + 70 * k + 35 * s.ringHops k + 50

/-- Is an origin a configured other member? -/
def State.otherMember (s : State) (spine : Bool) (k : Nat) : Bool :=
  if spine then s.isBridge && decide (k < s.spineM) && k ≠ s.selfRing else s.conf k && k ≠ s.selfPos

/-- The write deadline of an origin. -/
def State.writeDeadline (s : State) (spine : Bool) (k : Nat) : State :=
  if !s.trainMode || !s.otherMember spine k || s.fab.passed.contains (spine, k) then s
  else
    let s1 := (s.atTick (s.deadline spine k)).modFab fun f => { f with passed := (spine, k) :: f.passed }
    s1.each (s1.rxEntries spine k) fun x v => x.rxDeadline spine k v

def execWriteDeadline (spine : Bool) (k : Fin 32) (s : State) : Host.Outcome State Fault Refusal :=
  done (s.writeDeadline spine k.val)

/-- The words of a frame that has arrived: copies that fail their checks; a copy written at once, on a single plane or after a
deadline at which no copy was valid (R358). -/
def State.rxWords (s : State) (f : RxFrame) : State :=
  s.each (s.rxEntries f.spine f.origin) fun x v =>
    match payloadWord f.spine f.payload (feWord v) with
    | none => x
    | some w =>
      if !cswValid aT w (feId v) then (x.bump rFab_RX_ERR_CNT).raise 324 0 (feSlot v)
      else if (!x.fabDual || x.fab.passed.contains (f.spine, f.origin)) && !x.fab.written.contains (2 * feSlot v + b2n (feSpine v)) && x.tokenAllows v then
        x.rxChosen v (fixQual (feId v) w, payloadSafe f.payload (feWord v))
      else x

/-- The token entries of an IMAGE frame (R349, R368). -/
def State.rxTokens (s : State) (origin : Nat) (pl : List Byte) : State :=
  s.each (List.range 16) fun x q =>
    let b := (pl.drop (72 + 8 * q)).take 8
    if natBit (leAt b 6 1) 0 then
      x.tokenSeen (Config.tokenHome origin q).val (leAt b 4 2 / 4096) (leAt b 0 4) (leAt b 4 2 % 4096)
    else x

/-- A frame of a member shows the member's link it left by to work again: notices of it are dropped (R359). -/
def State.noticeEnd (s : State) (pl k : Nat) (west : Bool) : State :=
  let far := s.nextPos k (!west)
  let port := 2 * pl + b2n (!west)
  s.modFab fun f => { f with notices := f.notices.filter (· ≠ (far, port)) }

/-- An IMAGE or SPINE frame arrives on a port. -/
def State.imageFrame (s : State) (spine : Bool) (p : Nat) (bs : List Byte) (ln : RxLine) : State :=
  if portSpine p ≠ spine then s
  else
    let r := s.rxPass p (if spine then 3 else 2) 50 (if spine then 5625 else 3350) bs ln
    let s1 := r.1
    let o := frOrigin bs
    let k := if spine then o / 32 % 16 else o % 32
    let mine := if spine then o / 512 = s.selfCluster else o / 32 = s.dev.slot.toNat / 32
    if !r.2 || !mine || !s.otherMember spine k || !payloadOk spine (frPayload bs) then s1
    else
      let f : RxFrame := ⟨spine, portPlane p, k, frPayload bs⟩
      let s2 := s1.modFab fun x => { x with frames := x.frames ++ [f] }
      let s3 := if spine then s2 else (s2.noticeEnd (portPlane p) k (natBit (frFlags bs) 1)).rxTokens k f.payload
      s3.rxWords f

def execImageFrameReceive (p : Fin 8) (bs : List Byte) (ln : RxLine) (s : State) : Host.Outcome State Fault Refusal :=
  done (s.imageFrame false p bs ln)

/-- The same on the spine (R362). -/
def execSpineFrameReceive (p : Fin 8) (bs : List Byte) (ln : RxLine) (s : State) : Host.Outcome State Fault Refusal :=
  done (s.imageFrame true p bs ln)

/-! The end of a class (R360, R366 to R371) -/

/-- Members whose frame arrived on a plane in this class, and this one itself. -/
def State.seenOn (s : State) (spine : Bool) (pl n : Nat) : Nat :=
  bitMask n fun k => k = (if spine then s.selfRing else s.selfPos) ||
    s.fab.frames.any fun f => f.spine = spine && f.plane = pl && f.origin = k

/-- The lowest number in a set. -/
def lowest (n view : Nat) : Nat := ((List.range n).find? (natBit view)).getD 0

/-- The ring's master changes: MASTER_CHANGE; the elected member is the time source of its level (R322, R366). -/
def State.setMaster (s : State) (k : Nat) : State :=
  if s.fld rFab_FAB_STAT 4 5 = k && s.bit rFab_FAB_STAT 2 = decide (k = s.selfPos) then s
  else
    let me := decide (k = s.selfPos)
    let s1 := ((s.setFld rFab_FAB_STAT 4 5 k).setBit rFab_FAB_STAT 2 me).raise 329 0 k
    if me then (if s1.syncState = 0 || s1.syncState = 3 then s1.setSync 4 else s1).tryOperate
    else if s1.syncState = 4 && !s1.bit rFab_FAB_STAT 3 then s1.setSync 2 else s1

/-- The spine's master changes. -/
def State.setSpineMaster (s : State) (r : Nat) : State :=
  if s.fab.spineMaster = r && s.bit rFab_FAB_STAT 3 = decide (r = s.selfRing) then s
  else
    let me := decide (r = s.selfRing)
    let s1 := ((s.modFab fun f => { f with spineMaster := r }).setBit rFab_FAB_STAT 3 me).raise 329 0 r
    if me then (if s1.syncState = 0 || s1.syncState = 3 then (s1.setSync 4).tryOperate else s1)
    else if s1.syncState = 4 && !s1.bit rFab_FAB_STAT 2 then s1.setSync 2 else s1

/-- Election: the lowest of the union, itself only after 4 classes with no lower one (R366). -/
def State.elect (s : State) (spine : Bool) (union : Nat) : State :=
  let me := if spine then s.selfRing else s.selfPos
  let low := lowest 32 union
  let n := if low < me then 0 else min ((if spine then s.fab.noLowerSpine else s.fab.noLower) + 1) 4
  let s1 := s.modFab fun f => if spine then { f with noLowerSpine := n } else { f with noLower := n }
  if low < me then (if spine then s1.setSpineMaster low else s1.setMaster low)
  else if 4 ≤ n then (if spine then s1.setSpineMaster me else s1.setMaster me) else s1

/-- Superframes in a row that a plane has been unusable; a usable plane ends its loss (R360). -/
def State.planeUse (s : State) (pl : Nat) (ok : Bool) : State :=
  s.modFab fun f => { f with
    bad := Tab.set (fun _ => 0) f.bad pl (if ok then 0 else Tab.get (fun _ => 0) f.bad pl + 1)
    loss := if ok then Tab.set (fun _ => false) f.loss pl false else f.loss }

/-- An owner without quorum suspends its partitions (R370). -/
def State.suspendAll (s : State) : State :=
  s.each ((List.range 16).filter fun p => s.hasTok p && (s.tok p).held && !(s.part p).suspended) fun x p =>
    (x.modPart p fun y => { y with suspended := true }).raise 326 0 p

/-- The views of the ring are evaluated at the end of its image class. -/
def State.ringEnd (s : State) : State :=
  let a := s.seenOn false 0 32
  let b := if s.fabDual then s.seenOn false 1 32 else 0
  let qa := s.ringQuorum a
  let qb := s.fabDual && s.ringQuorum b
  let was := s.fld rFab_FAB_STAT 0 2
  let s1 := (s.wrN rFab_VIEW_A a).wrN rFab_VIEW_B b
  let s2 := ((s1.setFld rFab_FAB_STAT 0 2 (if qa || qb then 2 else 1)).setBit rFab_FAB_STAT 9 qa).setBit rFab_FAB_STAT 10 qb
  let s3 := (s2.planeUse 0 qa).when s.fabDual fun x => x.planeUse 1 qb
  let s4 := s3.elect false (a ||| b)
  let s5 := if (qa || qb) && was ≠ 2 then s4.opEvent 1026 none (s4.fld rFab_FAB_STAT 4 5) else s4
  let s6 := s5.modEng fun e => { e with noQuorum := !(qa || qb) }
  let s7 := if qa || qb then s6 else s6.suspendAll
  if s7.bit rFab_FAB_CFG 21 && !natBit (a ||| b) s7.buddyPos then s7.takeovers else s7

/-- The views of the spine, at a bridge. -/
def State.spineEnd (s : State) : State :=
  let n := s.spineM
  let a := s.seenOn true 0 n
  let b := if s.fabDual then s.seenOn true 1 n else 0
  let q := quorum n (2 ^ n - 1) a n || (s.fabDual && quorum n (2 ^ n - 1) b n)
  let was := s.bit rFab_FAB_STAT 11
  let s1 := (s.wrN rFab_SPINE_VIEW (a % 65536 + 65536 * b)).setBit rFab_FAB_STAT 11 q
  let s2 := s1.elect true (a ||| b)
  if q && !was then s2.opEvent 1027 none s2.fab.spineMaster else s2

/-- The end of the ring's image class, or of the spine's. -/
def State.classEnd (s : State) (spine : Bool) : State :=
  if !s.trainMode || s.rd rFab_CONF_MAP = 0 || (spine && !s.isBridge) then s
  else
    let s1 := s.atTick (if spine then 5625 else 3350)
    let s2 := if spine then s1.spineEnd else s1.ringEnd
    s2.modFab fun f => { f with
      frames := f.frames.filter (·.spine ≠ spine)
      passed := f.passed.filter (·.1 ≠ spine)
      written := f.written.filter fun w => w % 2 ≠ b2n spine }

def execImageClassEnd (spine : Bool) (s : State) : Host.Outcome State Fault Refusal := done (s.classEnd spine)

/-- A configured plane has been unusable for 4 superframes; with every configured plane lost the device leaves OPERATE for
HAREBELL (R16, R360). -/
def State.planeLoss (s : State) (pl : Nat) : State :=
  if !s.planeOn pl || Tab.get (fun _ => 0) s.fab.bad pl < 4 || Tab.get (fun _ => false) s.fab.loss pl then s
  else
    let s2 := (s.modFab fun f => { f with loss := Tab.set (fun _ => false) f.loss pl true }).raise (320 + pl) 0 pl
    let lost k := Tab.get (fun _ => false) s2.fab.loss k
    if lost 0 && (!s.fabDual || lost 1) then s2.enterHarebell (320 + pl) 2 else s2

def execPlaneLoss (pl : Fin 2) (s : State) : Host.Outcome State Fault Refusal := done (s.planeLoss pl.val)

/-- The ring has not formed 800 ms after the entry into SYNC (R367). -/
def execRingUnformed (s : State) : Host.Outcome State Fault Refusal :=
  done (if s.rd rFab_CONF_MAP ≠ 0 && s.trainMode && s.fld rFab_FAB_STAT 0 2 ≠ 2 && !s.fab.unformed.contains 330 then
    ((s.advanceTo (s.fab.syncAt + 80000000)).modFab fun f => { f with unformed := 330 :: f.unformed }).raise0 330 else s)

/-- A bridge's spine has not formed 1.5 s after it (R367). -/
def execSpineUnformed (s : State) : Host.Outcome State Fault Refusal :=
  done (if s.isBridge && s.trainMode && !s.bit rFab_FAB_STAT 11 && !s.fab.unformed.contains 331 then
    ((s.advanceTo (s.fab.syncAt + 150000000)).modFab fun f => { f with unformed := 331 :: f.unformed }).raise0 331 else s)

end Sys2Proof.Machine
end

