-- ==== Sys2Proof/Machine/FabricData.lean ====
section
/-! DEFINITION. The other classes of the superframe: SYNC frames (R353, R364), the Ephemeris mirror (R181 to R184, R350), EVENT
and BULK frames (R350, R354, R487), and the staleness sweep (R71). -/

namespace Sys2Proof.Machine

open Sys2Proof

/-! Time distribution (R353, R364) -/

/-- The payload of a port's SYNC frame: T1 is 64 × Meridian at the boundary (R353; log 46). -/
def State.syncPayload (s : State) (p : Nat) : List Byte :=
  let x := s.port p
  let got := x.t4Sf + 1 = s.sf
  let src := if portSpine p then s.fab.spineMaster else s.fld rFab_FAB_STAT 4 5
  let valid := if portSpine p then s.bit rFab_FAB_STAT 11 else decide (s.fld rFab_FAB_STAT 0 2 = 2)
  natLe 8 (64 * s.now) ++ natLe 8 (if got then x.t4 else 0) ++ natLe 4 (if got then x.t4Sf else 0)
    ++ natLe 1 (src + 32 * b2n valid) ++ natLe 1 s.syncState ++ natLe 10 0

/-- In the sync class a SYNC frame leaves on every port that is UP (R364); the neighbour takes it and does not send it on (log 149). -/
def State.sendSync (s : State) : State :=
  s.each ((List.range 8).filter s.portUp) fun x p =>
    let y := x.modPort p fun z => { z with
      t1Old := if z.t1Sf + 1 = x.sf then z.t1 else 0
      t1 := 64 * x.now
      t1Sf := x.sf }
    y.sendOwn p 1 (x.ownHops p) 0 (x.syncPayload p)

/-- The position, or ring, this device takes its time from on a kind of port: none where it takes none there (R364). -/
def State.timeFrom (s : State) (spine : Bool) : Option Nat :=
  if spine then (if s.isBridge && !s.bit rFab_FAB_STAT 3 then some s.fab.spineMaster else none)
  else if s.isBridge && 1 < s.spineM then none
  else if s.bit rFab_FAB_STAT 2 then (match Config.bridge with
    | some k => if k.val = s.selfPos then none else some k.val
    | none => none)
  else some (s.fld rFab_FAB_STAT 4 5)

/-- Is a port on the shorter path to the device's time source, on the first plane on which that port is UP (R364)? -/
def State.timePort (s : State) (p : Nat) : Bool :=
  match s.timeFrom (portSpine p) with
  | none => false
  | some k =>
    let east := if portSpine p then decide ((k + s.spineM - s.selfRing) % s.spineM ≤ (s.selfRing + s.spineM - k) % s.spineM)
      else s.eastTo k
    portEast p = east && (portPlane p = 0 || !s.portUp (p - 2))

/-- The mean of a list of link delays. -/
def meanInt (l : List Int) : Int := if l.isEmpty then 0 else (l.foldl (· + ·) 0) / l.length

/-- A SYNC frame arrives `frac` 64ths of a tick into the present tick (R353, R364). -/
def State.syncFrame (s : State) (p : Nat) (bs : List Byte) (ln : RxLine) (frac : Nat) : State :=
  let r := s.rxFrame p 1 0 50 bs ln
  if !r.2 || frLen bs ≠ 32 then r.1
  else
    let pl := frPayload bs
    let t2 := 64 * s.now + frac
    let x := r.1.port p
    let s1 := r.1.modPort p fun y => { y with
      t4 := t2
      t4Sf := s.sf }
    let t1 := leAt pl 0 8
    let d21 := asSigned 64 (t2 + 2 ^ 64 - t1 % 2 ^ 64)
    if leAt pl 16 4 ≠ (s.sf - 1) % 2 ^ 32 || x.t1Sf ≠ s.sf || x.t1Old = 0 then s1
    else
      let d43 := asSigned 64 (leAt pl 8 8 + 2 ^ 64 - x.t1Old % 2 ^ 64)
      let s2 := s1.modPort p fun y => { y with delays := ((d21 + d43) / 2 :: y.delays).take 16 }
      let mean := meanInt (s2.port p).delays
      let s3 := s2.setFld (rPort_LINK_DELAY p) 0 24 (ofSigned 24 mean)
      if s3.timePort p then (s3.setFld rMer_SYNC_STAT 4 2 (b2n (portSpine p))).merOffset (d21 - mean) else s3

def execSyncFrameReceive (p : Fin 8) (bs : List Byte) (ln : RxLine) (frac : Fin 64) (s : State) :
    Host.Outcome State Fault Refusal :=
  done (s.syncFrame p bs ln frac.val)

/-! The Ephemeris mirror (R181, R183, R350) -/

/-- The port towards the buddy: on the first plane on which it is UP. -/
def State.buddyPort (s : State) : Option Nat :=
  let east := s.nextPos s.selfPos true = s.buddyPos
  [0, 2].map (fun p => p + b2n (!east)) |>.find? s.portUp

/-- Ephemeris offset of the next fragment of a set in the outgoing area. -/
def MirOut.next (x : MirOut) : Nat := mirOutAt (x.gen % 2) + x.at_ + x.sent

/-- The payload of a MIRROR frame: the next `n` bytes of the set, as the mirror port reads them (R174, R350). -/
def State.mirrorPayload (s : State) (x : MirOut) (n : Nat) : List Byte :=
  let b := match x.resync with
    | some bs => (bs.drop x.sent).take n
    | none => s.ephBytes x.next n
  natLe 4 x.gen ++ natLe 4 x.sent ++ natLe 4 x.len ++ natLe 4 0 ++ b
    ++ List.replicate ((8 - b.length % 8) % 8) (0 : Byte)

/-- Send the fragments of the outgoing area, at most `fuel`; a resync takes at most `left` more bytes (R183), and one sent whole leaves the
mirror in sync. A fragment that meets an uncorrectable error raises EPH_ECC_UNCORR (R174). -/
def State.mirrorSend (p : Nat) : Nat → Nat → State → State
  | 0, _, s => s
  | fuel + 1, left, s =>
    match s.eng.mirOut with
    | [] => s
    | x :: rest =>
      let n := min 16384 (min (x.len - x.sent) (if x.resync.isSome then left else 16384))
      if n = 0 then s
      else
        let s0 := if x.resync.isSome then s else s.ephMeets x.next n
        let s1 := s0.sendOwn p 4 (s.ownHops p) s.buddyPos (s.mirrorPayload x n)
        let y := { x with sent := x.sent + n }
        let whole := x.resync.isSome && decide (x.len ≤ y.sent)
        let s2 := s1.modEng fun e => { e with
          mirOut := if x.len ≤ y.sent then rest else y :: rest
          resync := if whole then e.resync.filter (· ≠ x.part) else e.resync
          mirOk := if whole then x.part :: e.mirOk.filter (· ≠ x.part) else e.mirOk }
        State.mirrorSend p fuel (if x.resync.isSome then left - n else left) s2

/-- The mirror class starts: the sets of the outgoing area go to the buddy (R354). -/
def State.mirrorClass (s : State) : State :=
  if !s.trainMode || !s.bit rFab_FAB_CFG 21 then s
  else
    let s1 := (s.atTick 3350).modEng fun e => { e with mirTx := 0 }
    match s1.buddyPort with
    | some p => s1.mirrorSend p 64 65536
    | none => s1

def execMirrorClassStart (s : State) : Host.Outcome State Fault Refusal := done s.mirrorClass

/-- The owner sends the whole window and record of a partition as a resync (R183). -/
def State.mirrorResync (s : State) (p : Nat) : State :=
  if !s.bit rEph_MIR_TX_CFG p then s
  else
    let g := (s.part p).gen
    let lines := (List.range (s.winSize p / 64)).map fun i => (64 * i, Mem.bytes s.mem.img (s.winBase p + 64 * i) 64)
    let set := mirrorSet p g (s.ephBytes (ephAt p (g % 2)) 1024) lines
    (s.ephMeets (ephAt p (g % 2)) 1024).modEng fun e => { e with
      resync := p :: e.resync.filter (· ≠ p)
      mirOk := e.mirOk.filter (· ≠ p)
      mirOut := e.mirOut.filter (fun x => x.part ≠ p || x.sent ≠ 0) ++ [⟨p, g, 0, set.length, 0, some set⟩] }

def execMirrorResync (p : Fin 16) (s : State) : Host.Outcome State Fault Refusal := done (s.mirrorResync p.val)

/-- Is a set laid out as R181 says, with SCRC, and its lines inside the window? -/
def State.mirrorOk (s : State) (p : Nat) (bs : List Byte) : Bool :=
  let n := leAt bs 2 2
  decide (bs.length = 1036 + 68 * n) && decide (leAt bs 1 1 = 1)
  && decide (leAt bs (1032 + 68 * n) 4 = (crc32c (bs.take (1032 + 68 * n))).toNat)
  && (List.range n).all fun i => decide (leAt bs (1032 + 68 * i) 4 + 64 ≤ s.winSize p)

/-- Apply a set to the window and the record of a mirror partition, in one step (R183). -/
def State.mirrorPut (s : State) (p : Nat) (bs : List Byte) : State :=
  let gen := leAt bs 4 4
  let s1 := s.each (List.range (leAt bs 2 2)) fun x i =>
    x.imgBytes (x.winBase p + leAt bs (1032 + 68 * i) 4) ((bs.drop (1036 + 68 * i)).take 64)
  let s2 := s1.ephWrite (ephAt p (gen % 2)) ((bs.drop 8).take 1024)
  let s3 := s2.modPart p fun x => { x with
    gen := gen
    mirGen := gen
    mirSf := leAt bs 24 4
    ctx := s2.ephCtx p (gen % 2)
    first := false
    swapPend := natBit (leAt bs 32 4) 1 }
  s3.setBit (rPart_PT_MODE p) 3 (natBit (leAt bs 32 4) 0)

/-- A mirror partition that catches up is in sync once the set last applied, the resync or one that followed it, is the one of its newest
END: no period has passed since (R183; log 47). -/
def State.mirrorSynced (s : State) (p : Nat) : State :=
  if s.sf ≤ (s.part p).mirSf + 2 ^ s.fld (rPart_PT_CFG p) 8 4 then
    ((s.modPart p fun x => { x with mirCatch := false }).setBit rEph_MIR_RX_SYNC p true).raise 204 0 p
  else s.modPart p fun x => { x with mirCatch := true }

/-- A whole set has arrived: applied in sequence, or as the resync of a partition out of sync; else discarded (R183). A resync
is a set of the whole window (log 47). -/
def State.mirrorSetIn (s : State) (bs : List Byte) : State :=
  match s.mirrorOf (leAt bs 0 1 % 16) with
  | none => s.mirrorGap none
  | some p =>
    let gen := leAt bs 4 4
    let whole := leAt bs 2 2 = s.winSize p / 64
    let sync := s.bit rEph_MIR_RX_SYNC p
    let follows := (sync || (s.part p).mirCatch) && gen = ((s.part p).mirGen + 1) % 2 ^ 32
    let put := (s.mirrorPut p bs).modEng fun e => { e with mirRx := none }
    if !s.mirrorOk p bs then s.mirrorGap (some p)
    else if sync && follows then put
    else if !sync && (whole || follows) then put.mirrorSynced p
    else s.mirrorGap (some p)

/-- Bytes of a set in the incoming area of its half (R170). -/
def MirRx.held (x : MirRx) : Nat := min x.count 0x100000

/-- A fragment joins the set being received: into the incoming area, what lies beyond the area behind it (log 17). -/
def State.mirrorTake (s : State) (x : MirRx) (data : List Byte) : State :=
  let at_ := mirInAt (x.gen % 2)
  let inside := data.take (0x100000 - x.held)
  (s.ephWrite (at_ + x.held) inside).modEng fun e => { e with
    mirRx := some { x with count := x.count + data.length, beyond := x.beyond ++ data.drop inside.length } }

/-- The set received is whole: it is read from the incoming area (R174, R183). -/
def State.mirrorWhole (s : State) (x : MirRx) : State :=
  (s.ephMeets (mirInAt (x.gen % 2)) x.held).mirrorSetIn (s.ephBytes (mirInAt (x.gen % 2)) x.held ++ x.beyond)

/-- A mirror frame that passes its checks came outside its class: its set is late (R183, R354). -/
def State.mirrorLate (s : State) (bs : List Byte) (ln : RxLine) (p : Nat) : Bool :=
  s.portUp p && decide (frTyp bs = 4) && !s.frBad p bs ln && decide (frHash bs = s.cfgHash)
    && decide (leAt bs 3 1 = 1) && (decide (s.now % 6250 < 3350) || decide (5625 ≤ s.now % 6250))

/-- A fragment arrives (R350). -/
def State.mirrorFrame (s : State) (p : Nat) (bs : List Byte) (ln : RxLine) : State :=
  let r := s.rxFrame p 4 3350 5625 bs ln
  if frLen bs < 16 || frOrigin bs ≠ s.slotAt s.buddyPos || !s.bit rFab_FAB_CFG 21 then r.1
  else if s.mirrorLate bs ln p then
    r.1.mirrorGap (if leAt (frPayload bs) 4 4 = 0 then r.1.mirrorOf (leAt (frPayload bs) 16 1 % 16) else r.1.mirrorOpen)
  else if !r.2 then r.1
  else
    let pl := frPayload bs
    let gen := leAt pl 0 4
    let off := leAt pl 4 4
    let total := leAt pl 8 4
    let data := (pl.drop 16).take (min 16384 (total - off))
    let open_ := r.1.mirrorOpen
    let s1 := if off = 0 && r.1.eng.mirRx.isSome then r.1.mirrorGap open_ else r.1
    let cur : Option MirRx := if off = 0 then some ⟨gen, total, 0, []⟩ else s1.eng.mirRx
    match cur with
    | none => s1.mirrorGap none
    | some x =>
      if x.gen ≠ gen || x.total ≠ total || x.count ≠ off then s1.mirrorGap open_
      else
        let s2 := s1.mirrorTake x data
        match s2.eng.mirRx with
        | some y => if total ≤ y.count then s2.mirrorWhole y else s2
        | none => s2

def execMirrorFrameReceive (p : Fin 8) (bs : List Byte) (ln : RxLine) (s : State) : Host.Outcome State Fault Refusal :=
  done (s.mirrorFrame p bs ln)

/-! Events and bulk (R354, R487) -/

/-- The next records the stream sends, at most `n`: each passed slot is left behind (R487; log 48). -/
def State.streamTake : Nat → Nat → State → State × List (List Byte)
  | 0, _, s => (s, [])
  | fuel + 1, n, s =>
    let rp := s.fld rLog_STREAM_RP 0 17
    if n = 0 || rp = s.fld rLog_WP 0 17 then (s, [])
    else
      let b := Mem.bytes s.mem.logm (32 * rp) 32
      let s1 := s.setFld rLog_STREAM_RP 0 17 ((rp + 1) % s.logN)
      if leAt b 15 1 % 4 ≤ s.fld rLog_LOG_CFG 4 2 then
        let r := State.streamTake fuel (n - 1) s1
        (r.1, b :: r.2)
      else State.streamTake fuel n s1

/-- Send the stream's records to DEST: on the shorter way, HOPS_LEFT ending there (R487; log 48). -/
def State.sendEvents (s : State) : State :=
  if !s.bit rLog_LOG_CFG 3 then s
  else
    let d := s.fld rLog_LOG_CFG 8 5
    let r := s.streamTake 131072 2560
    if r.2.isEmpty then r.1
    else
      let p0 := b2n (!s.eastTo d)
      let p := if s.portUp p0 then p0 else p0 + 2
      r.1.sendOwn p 5 (s.ringHops d) d (natLe 8 r.2.length ++ r.2.flatten)

/-- A BULK payload is queued for the next events class (R354, R444). -/
def State.bulk (s : State) (payload : List Byte) : State := s.modFab fun f => { f with bulk := f.bulk ++ [payload] }

/-- The payload of a set message or transfer (R444), padded to whole units. -/
def bulkPayload (kind arg8 dest setId off len arg64 : Nat) (data : List Byte) : List Byte :=
  natLe 1 kind ++ natLe 1 arg8 ++ natLe 2 dest ++ natLe 4 setId ++ natLe 4 off ++ natLe 4 len ++ natLe 8 arg64 ++ data
    ++ List.replicate ((8 - data.length % 8) % 8) (0 : Byte)

/-- Send the queued BULK frames in both directions on every configured plane, at a bridge on the spine as well (R354, R444; log 48). -/
def State.sendBulk (s : State) : State :=
  (s.each s.fab.bulk fun x b => x.each (s.ringPorts ++ s.spinePorts) fun y p => y.sendOwn p 6 (s.ownHops p) (leAt b 2 2) b).modFab fun f =>
    { f with bulk := [] }

/-- An EVENT frame arrives: passed on, or stored in the collect ring where its way ends (R487). -/
def State.eventFrame (s : State) (p : Nat) (bs : List Byte) (ln : RxLine) : State :=
  let r := s.rxPass p 5 5625 6250 bs ln
  let s1 := r.1
  if !r.2 || frHops bs ≠ 1 || !s.bit rLog_LOG_CFG 7 then s1
  else
    let pl := frPayload bs
    let n := min (leAt pl 0 8) ((frLen bs - 8) / 32)
    s1.each (List.range n) fun x i =>
      let c := x.fab.collect % 4096
      let entry := natLe 2 (frOrigin bs) ++ natLe 6 0 ++ natLe 8 x.now ++ natLe 16 0 ++ (pl.drop (8 + 32 * i)).take 32
      let y := x.modMem fun m => { m with logm := Mem.write m.logm (0x3C0000 + 64 * c) entry }
      (y.modFab fun f => { f with collect := (c + 1) % 4096 }).setFld rLog_COLL_WP 0 12 ((c + 1) % 4096)

def execEventFrameReceive (p : Fin 8) (bs : List Byte) (ln : RxLine) (s : State) : Host.Outcome State Fault Refusal :=
  done (s.eventFrame p bs ln)

/-! The staleness sweep (R71) -/

/-- Has a local index a writer under the committed configuration: its channel, its speed unit, a partition, or the device
status? -/
def State.hasWriter (s : State) (idx : Nat) : Bool :=
  if idx < 192 then true
  else if idx < 224 then s.fld (rSpd_SPD_CFG (idx - 192)) 0 2 ≠ 0
  else idx < 256 || (s.producer idx).isSome

/-- The sweep visits a slot: unwritten for 8,192 superframes, it is rewritten as STALE. -/
def State.sweepSlot (s : State) (off : Nat) (a id : Nat) : State :=
  if 8192 ≤ s.sf - Tab.get (fun _ => 0) s.eng.lastWr off then s.imgWr off (mkCsw a id 0 s.sf .stale) else s

/-- The sweep visits the CSW slot with offset 8·i of image SRAM: local image, fabric and safe-frame receive areas. -/
def State.sweep (s : State) (i : Nat) : State :=
  if i < 512 then (if s.hasWriter i then s.sweepSlot (8 * i) (s.localA i) (s.selfId i) else s)
  else if i < 0x4200 then
    match ((List.range (s.fabCount 0)).map (s.fabEntry 0)).find? (fun v => feValid v && feSlot v = i - 512) with
    | some v => s.sweepSlot (8 * i) aT (feId v)
    | none => s
  else
    match ((List.range (Tab.get (fun _ => 0) s.net.tblCnt 0)).map s.safeEntry).find? (fun v => natBit v 44 && natBits v 34 10 = i - 0x4200) with
    | some v => s.sweepSlot (8 * i) aT (natBits v 0 21)
    | none => s

def execStalenessSweep (i : Fin 17920) (s : State) : Host.Outcome State Fault Refusal := done (s.sweep i.val)

end Sys2Proof.Machine
end

