-- ==== Sys2Proof/Machine/Net.lean ====
section
/-! DEFINITION. Ethernet, safe frames and keys (ch. 14): sending (R382), receiving (R384 to R386), watchdogs (R387, R389),
key slots (R391 to R393), IEEE 1588 (R394, R395). -/

namespace Sys2Proof.Machine

open Sys2Proof

/-! Connections (R399) -/

def Conn.paths (x : Conn) (k : Nat) : Bool := natBit x.cfg.toNat (2 + k)
def Conn.udp (x : Conn) : Bool := x.cfg.getLsbD 4
def Conn.auth (x : Conn) : Bool := x.cfg.getLsbD 5
def Conn.txLog2 (x : Conn) : Nat := natBits x.cfg.toNat 6 4
def Conn.txPhase (x : Conn) : Nat := natBits x.cfg.toNat 10 8
def Conn.txOff (x : Conn) : Nat := natBits x.cfg.toNat 18 13

/-- The transmit entries of a connection: entry 64·c + i of the table (R399; log 49). -/
def State.txEntries (s : State) (c : Nat) : List Nat :=
  ((List.range 64).map fun i => s.safeEntry (8192 + 64 * c + i)).filter fun v => natBit v 22

/-- Words of a connection: of a producer its transmit entries, of a consumer up to its last receive entry (log 50). -/
def State.connWords (s : State) (c : Nat) : Nat :=
  if (s.conn c).cfg.getLsbD 1 then (s.txEntries c).length
  else (s.connEntries c).foldl (fun n e => max n (e.2.2.1 + 1)) 0

/-- Source 352 + i with connection and port in the address hint (R397). -/
def sfHint (c k : Nat) : Nat := c + 256 * k

/-! Ethernet frames (R378, R379) -/

def State.ethOn (s : State) (k : Nat) : Bool := s.bit (rEth_ETH_CFG k) 0
def State.ethUp (s : State) (k : Nat) : Bool := s.ethOn k && s.bit (rEth_ETH_STAT k) 0

/-- Own MAC address, in wire order (R398). -/
def State.ownMac (s : State) (k : Nat) : List Byte := natLe 4 (s.rd (rEth_MAC_LO k)).toNat ++ natLe 2 (s.rd (rEth_MAC_HI k)).toNat

/-- Destination, source, optional tag and EtherType. -/
def State.ethHeader (s : State) (k dst etype : Nat) : List Byte :=
  natBe 6 dst ++ s.ownMac k
    ++ (if s.bit (rEth_ETH_CFG k) 2 then natBe 2 0x8100 ++ natBe 2 (8192 * s.fld (rEth_ETH_CFG k) 3 3 + s.fld (rEth_VID k) 0 12) else [])
    ++ natBe 2 etype

/-- The sum of an IPv4 header's 16-bit words, folded to 16 bits. -/
def ipSum : List Byte → Nat
  | a :: b :: t =>
    let x := 256 * a.toNat + b.toNat + ipSum t
    x % 65536 + x / 65536
  | _ => 0

/-- IPv4 header without options and UDP header, DF set, UDP checksum 0 (R379). -/
def udpHeader (src dst ttl port n : Nat) : List Byte :=
  let a := natBe 2 0x4500 ++ natBe 2 (28 + n) ++ natBe 2 0 ++ natBe 2 0x4000 ++ natBe 1 ttl ++ natBe 1 17
  let b := natBe 4 src ++ natBe 4 dst
  a ++ natBe 2 (65535 - ipSum (a ++ b)) ++ b ++ natBe 2 port ++ natBe 2 port ++ natBe 2 (8 + n) ++ natBe 2 0

/-- A frame leaves a port: counted, and its wire time with FCS, preamble and gap into TX_PEAK (R383, R398). -/
def State.ethSend (s : State) (k : Nat) (bs : List Byte) : State :=
  let padded := bs ++ List.replicate (60 - bs.length) (0 : Byte)
  let s1 := ((s.emit (.eth k padded)).bump (rEth_TX_FRAMES k)).modNet fun x => { x with
    wire := Tab.modify (fun _ => 0) x.wire k (· + padded.length + 24) }
  let w := min (Tab.get (fun _ => 0) s1.net.wire k * 8 / 10) 65535
  if s1.fld (rEth_TX_PEAK k) 0 16 < w then s1.setFld (rEth_TX_PEAK k) 0 16 w else s1

/-! Producing (R380 to R382, R390 to R392) -/

/-- The high-water mark of the IVs (R391). -/
def State.hwm (s : State) : Nat := s.rd64 rSafe_HWM_LO

/-- Is sending of tagged copies held: since POR release or DORMANT Meridian has not passed HWM (R391)? -/
def State.ivHeld (s : State) : Bool := s.net.ivHold && decide (s.now ≤ s.hwm)

/-- The IV of a copy (R390). -/
def sfIv (id ts path : Nat) : List Byte := natLe 4 id ++ natLe 8 (2 * ts + path)

/-- Bytes 0 to 47 + 8n of a PDU (R380, R381). -/
def pduBody (flags n id seq ts wd epoch safeMap : Nat) (words : List Byte) : List Byte :=
  let b := natLe 1 1 ++ natLe 1 flags ++ natLe 1 n ++ natLe 1 0 ++ natLe 4 id ++ natLe 4 seq ++ natLe 8 ts ++ natLe 4 wd
    ++ natLe 4 epoch ++ natLe 4 0 ++ natLe 8 safeMap ++ words
  b ++ natLe 4 (~~~ (crc32cFrom (BitVec.ofNat 32 id) b)).toNat ++ natLe 4 0

/-- The ID of a fabric receive slot, by the receive table (R357). -/
def State.fabSlotId (s : State) (slot : Nat) : Nat :=
  match ((List.range (s.fabCount 0)).map (s.fabEntry 0)).find? (fun v => feValid v && feSlot v = slot) with
  | some v => feId v
  | none => 0

/-- The word of a transmit entry as it leaves: FAULT in HALTED; an index below 256 as stored; a forwarded word that fails its checks is
replaced (R382). -/
def State.txWord (s : State) (v : Nat) : State × Csw :=
  let i := natBits v 1 14
  let id := if natBit v 0 then s.fabSlotId i else s.outId (i % 512)
  if s.modeIs .halted then (s, mkCsw aT id 0 s.sf .fault)
  else if natBit v 0 then
    let w := s.imgCsw (fabAt i) id
    if cswValid aT w id then (s, fixQual id w) else (s.raise0 332, mkCsw aT id 0 s.sf .fault)
  else if i % 512 < 256 then (s, leavesAs id (s.imgCsw (8 * (i % 512)) id))
  else (s, s.outWord (i % 512))

/-- REQ_SAFE of a fabric receive slot, by the receive table (R357). -/
def State.fabSlotReq (s : State) (slot : Nat) : Bool :=
  ((List.range (s.fabCount 0)).map (s.fabEntry 0)).any fun v => feValid v && feSlot v = slot && feReq v

/-- The SAFE_MAP bit of a transmit entry (R382). -/
def State.txSafe (s : State) (v : Nat) : Bool :=
  let i := natBits v 1 14
  if natBit v 0 then s.fabSlotReq i else decide (i % 512 < 256) || s.exportSafe (i % 512)

/-- The words of a connection's transmission and their SAFE_MAP bits. -/
def State.txWords (s : State) (c : Nat) : State × List (Csw × Bool) :=
  (s.txEntries c).foldl (fun (r : State × List (Csw × Bool)) v =>
    let x := r.1.txWord v
    (x.1, r.2 ++ [(x.2, s.txSafe v)])) (s, [])

/-- One copy leaves a port (R379, R380, R390). -/
def State.sendCopy (s : State) (c k seq : Nat) (slot : Option Nat) (ws : List (Csw × Bool)) : State :=
  let x := s.conn c
  let ts := s.now
  let key : KeySlot := match slot with
    | some j => s.keySlot c j
    | none => KeySlot.reset
  let flags := b2n slot.isSome + 2 * slot.getD 0 + 4 * k + 8 * b2n (s.modeIs .halted)
  let map := bitMask ws.length fun i => match ws[i]? with
    | some w => w.2
    | none => false
  let body := pduBody flags ws.length x.id seq ts x.wd key.epoch map (ws.flatMap fun w => natLe 8 w.1.toNat)
  let pdu := body ++ (if slot.isSome then natBe 16 (Config.gmacTag key.key (sfIv x.id ts k) body).toNat else [])
  if x.udp then
    s.ethSend k (s.ethHeader k x.nextHop 0x0800
      ++ udpHeader (s.rd (rEth_IP_ADDR k)).toNat x.dstIp (s.fld (rEth_ETH_CFG k) 16 8) (s.fld rSafe_SF_CFG 16 16) pdu.length ++ pdu)
  else s.ethSend k (s.ethHeader k x.dstMac (s.fld rSafe_SF_CFG 0 16)
    ++ (pdu ++ List.replicate (46 - pdu.length) (0 : Byte)))

/-- HWM is set to Meridian + 1 h (R391). -/
def State.setHwm (s : State) : State :=
  ((s.wr64 rSafe_HWM_LO (s.now + 360000000000)).modNet fun x => { x with ivHold := false }).keyThere 128

/-- The slot for a SEQ: `none` outside where nothing may be sent; HWM stands ahead of Meridian whenever a tagged copy is sent (R391, R392;
log 162). -/
def State.sfSlot (s : State) (c : Nat) : State × Option (Option Nat) :=
  if !(s.conn c).auth then (s, some none)
  else if s.ivHeld then
    (if s.net.keyNone.contains 128 then s
     else (s.modNet fun x => { x with keyNone := 128 :: x.keyNone }).raise 371 0 (sfHint c 0), none)
  else match s.txSlot c with
    | some k => (((s.when (decide (s.hwm ≤ s.now)) State.setHwm).keyThere c).keyThere 128, some (some k))
    | none => (s.keyMissing c, none)

/-- Has a connection a superframe to send in: s mod 2^TX_LOG2 = TX_PHASE for some s (R382)? -/
def Conn.sends (x : Conn) : Bool := decide (x.txPhase < 2 ^ x.txLog2)

/-- When the next TX_OFF of a producer connection falls, in a superframe in which it sends and has not sent (R382). -/
def State.txNext (s : State) (c : Nat) : Nat :=
  let x := s.conn c
  let per := 2 ^ x.txLog2
  let base := max x.nextSf (if s.now % 6250 ≤ x.txOff then s.sf else s.sf + 1)
  (base + (x.txPhase + per - base % per) % per) * 6250 + x.txOff

/-- A producer connection sends (R382). -/
def State.safeSend (s : State) (c : Nat) : State :=
  let x := s.conn c
  if !(x.cfg.getLsbD 0 && x.cfg.getLsbD 1 && x.sends) || !(s.modeIs .operate || s.modeIs .harebell || s.modeIs .halted) then s
  else
    let s1 := s.advanceTo (s.txNext c)
    let r := s1.sfSlot c
    match r.2 with
    | none => r.1
    | some slot =>
      let w := r.1.txWords c
      let seq := if x.sent then (x.seqL + 1) % 2 ^ 32 else s1.sf % 2 ^ 32
      let s2 := w.1.modConn c fun y => { y with
        seqL := seq
        sent := true
        nextSf := s1.sf + 1 }
      s2.each ((List.range 2).filter fun k => x.paths k && s2.ethUp k) fun y k => y.sendCopy c k seq slot w.2

def execSafeFrameSend (c : Fin 64) (s : State) : Host.Outcome State Fault Refusal := done (s.safeSend c.val)

/-! Consuming (R384 to R386) -/

def pdFlags (bs : List Byte) : Nat := leAt bs 1 1
def pdN (bs : List Byte) : Nat := leAt bs 2 1
def pdSeq (bs : List Byte) : Nat := leAt bs 8 4
def pdTs (bs : List Byte) : Nat := leAt bs 12 8
/-- Bytes 32 to 39 + 8n. -/
def pdWords (bs : List Byte) : List Byte := (bs.drop 32).take (8 + 8 * pdN bs)

/-- Does GTAG verify under a slot (R390)? -/
def KeySlot.tagOk (x : KeySlot) (bs : List Byte) : Bool :=
  let n := 48 + 8 * pdN bs
  decide ((bs.drop n).take 16 = natBe 16 (Config.gmacTag x.key (sfIv (leAt bs 4 4) (pdTs bs) (natBits (pdFlags bs) 2 1)) (bs.take n)).toNat)

/-- The first check of R384 that a copy fails: the source's number; none: the copy is valid. -/
def State.copyFault (s : State) (c : Nat) (bs : List Byte) : Option Nat :=
  let x := s.conn c
  let n := pdN bs
  let ks := s.keySlot c (natBits (pdFlags bs) 1 1)
  if leAt bs 0 1 ≠ 1 || n ≠ s.connWords c || leAt bs 3 1 ≠ 0 || leAt bs 28 4 ≠ 0 || natBits (pdFlags bs) 4 4 ≠ 0
      || leAt bs (44 + 8 * n) 4 ≠ 0 || bs.length < 48 + 8 * n + 16 * b2n (natBit (pdFlags bs) 0) then some 361
  else if leAt bs (40 + 8 * n) 4 ≠ (~~~ (crc32cFrom (BitVec.ofNat 32 x.id) (bs.take (40 + 8 * n)))).toNat then some 362
  else if x.auth && !(natBit (pdFlags bs) 0 && ks.rxOk s.now && decide (leAt bs 24 4 = ks.epoch) && ks.tagOk bs) then some 363
  else if leAt bs 20 4 ≠ x.wd then some 364
  else if s.now + 500 < pdTs bs || 100 * x.wd < s.now - pdTs bs + 400 then some 365
  else none

/-- Write the words of an accepted copy to the connection's slots (R386). -/
def State.sfWrite (s : State) (c k : Nat) (bs : List Byte) : State :=
  s.each (s.connEntries c) fun x e =>
    let i := e.2.2.1
    let off := 0x21000 + 8 * e.2.2.2
    let w : Csw := BitVec.ofNat 64 (leAt bs (40 + 8 * i) 8)
    let bad := mkCsw aT e.1 0 x.sf .fault
    if !cswValid aT w e.1 then (x.imgWr off bad).raise 367 0 (sfHint c k)
    else if e.2.1 && !natBit (leAt bs 32 8) i then (x.imgWr off bad).raise 368 0 (sfHint c k)
    else x.imgWr off (fixQual e.1 w)

/-- A connection enters RUN (R389, R489). -/
def State.connRun (s : State) (c : Nat) : State :=
  if (s.conn c).st = 2 then s else (s.modConn c fun x => { x with st := 2, first := none }).opEvent 1028 none c

/-- A new copy is accepted (R385, R386, R389). -/
def State.copyNew (s : State) (c k : Nat) (bs : List Byte) : State :=
  let x := s.conn c
  let seq := pdSeq bs
  let gap := x.tsL ≠ 0 && seq ≠ (x.seqL + 1) % 2 ^ 32
  let epoch := leAt bs 24 4
  let tagged := natBit (pdFlags bs) 0
  let s1 := s.modConn c fun y => { y with
    seqL := seq
    tsL := pdTs bs
    held := pdWords bs
    heldEpoch := epoch
    heldTag := tagged
    lastEpoch := if tagged then max y.lastEpoch epoch else y.lastEpoch
    gap := if gap then satAdd 32 y.gap 1 else y.gap
    lastKsel := natBit (pdFlags bs) 1
    lastPath := natBit (pdFlags bs) 2 }
  if x.st = 3 then
    (if (match x.first with
      | some q => decide (seq = (q + 1) % 2 ^ 32)
      | none => false) then (s1.connRun c).sfWrite c k bs
     else s1.modConn c fun y => { y with first := some seq })
  else (s1.connRun c).sfWrite c k bs

/-- A valid copy is classified (R385). -/
def State.copyClass (s : State) (c k : Nat) (bs : List Byte) : State :=
  let x := s.conn c
  let epoch := leAt bs 24 4
  if x.tsL ≠ 0 && pdSeq bs = x.seqL then
    if pdWords bs = x.held then
      s.modConn c fun y => { y with
        dup := satAdd 32 y.dup 1
        lastEpoch := if natBit (pdFlags bs) 0 && y.heldTag && epoch ≠ y.heldEpoch then max y.heldEpoch epoch else y.lastEpoch }
    else ((s.modConn c fun y => { y with st := 4, first := none }).connFill c .fault).raise 366 0 (sfHint c k)
  else if x.tsL < pdTs bs then s.copyNew c k bs
  else s.modConn c fun y => { y with old := satAdd 32 y.old 1 }

/-- Count a copy that fails a check on a port (R384, R397, R399). -/
def State.copyBad (s : State) (c k n : Nat) : State :=
  let s1 := s.modConn c fun y =>
    if n = 362 then (if k = 0 then { y with crc0 := satAdd 16 y.crc0 1 } else { y with crc1 := satAdd 16 y.crc1 1 })
    else if n = 363 then (if k = 0 then { y with auth0 := satAdd 16 y.auth0 1 } else { y with auth1 := satAdd 16 y.auth1 1 })
    else y
  s1.raise n 0 (sfHint c k)

/-- A PDU arrives on a port in an encapsulation (R384). -/
def State.safeReceive (s : State) (k : Nat) (udp : Bool) (bs : List Byte) : State :=
  if !s.ethUp k then s
  else
    let s1 := s.bump (rEth_RX_FRAMES k)
    match (List.range 64).find? fun c => s.consumer c && (s.conn c).paths k && (s.conn c).udp = udp && (s.conn c).id = leAt bs 4 4 with
    | none => s1.bump rSafe_UNKNOWN_CNT
    | some c =>
      if (s.conn c).st = 0 || (s.conn c).st = 4 then s1
      else match s1.copyFault c bs with
        | some n => s1.copyBad c k n
        | none => s1.copyClass c k bs

def execSafeFrameReceive (k : Fin 2) (udp : Bool) (bs : List Byte) (s : State) : Host.Outcome State Fault Refusal :=
  done (s.safeReceive k.val udp bs)

/-- The watchdog of a connection in RUN expires, or CONN_WD has elapsed in WAIT (R387, R389). -/
def State.connTimeout (s : State) (c : Nat) : State :=
  let x := s.conn c
  if !s.consumer c || (x.st ≠ 1 && x.st ≠ 2) then s
  else
    let s1 := s.advanceTo (if x.st = 2 then x.tsL + 100 * x.wd - 400 else x.waitAt + 100 * x.wd)
    ((s1.connFill c .subst).modConn c fun y => { y with st := 3, first := none }).raise 360 0 (sfHint c 0)

def execConnTimeout (c : Fin 64) (s : State) : Host.Outcome State Fault Refusal := done (s.connTimeout c.val)

/-- A write of SAFE.CMD (R389, R399). -/
def State.safeCmd (s : State) (m : Master) (v : Word) : State :=
  s.regCmd m rSafe_CMD fun x =>
    let c := natBits v.toNat 8 6
    if v.getLsbD 0 && (x.conn c).st = 4 then x.connWait c else x

def execConnRestart (m : Master) (c : Fin 64) (s : State) : Host.Outcome State Fault Refusal :=
  done (s.safeCmd m (BitVec.ofNat 32 (1 + 256 * c.val)))

/-! Ports (R378) -/

/-- A link comes up, at 1,000 Mbit/s full duplex or at another speed, or goes down. -/
def State.ethLink (s : State) (k : Nat) (up fast : Bool) : State :=
  if !s.ethOn k || (up && !s.linksOn) then s
  else
    let s1 := (s.setBit (rEth_ETH_STAT k) 0 (up && fast)).setBit (rEth_ETH_STAT k) 1 (up && fast)
    let s2 := s1.modNet fun x => { x with
      linkUp := if up && fast then Tab.set (fun _ => false) x.linkUp k true else x.linkUp
      heldDown := Tab.set (fun _ => false) x.heldDown k (up && !fast) }
    if up && !fast then s2.raise (352 + 4 * k) 1 (sfHint 0 k)
    else if !up && s.bit (rEth_ETH_STAT k) 0 then s2.raise (352 + 4 * k) 0 (sfHint 0 k) else s2

def execEthLinkChange (k : Fin 2) (up fast : Bool) (s : State) : Host.Outcome State Fault Refusal := done (s.ethLink k.val up fast)

/-- An ARP request arrives; one for the port's own address is answered, where a connection uses UDP (R378). -/
def State.arp (s : State) (k mac ip target : Nat) : State :=
  if !s.ethUp k then s
  else
    let s1 := s.bump (rEth_RX_FRAMES k)
    let udp := anyBelow 64 fun c => (s.conn c).cfg.getLsbD 0 && (s.conn c).udp && (s.conn c).paths k
    if udp && target = (s.rd (rEth_IP_ADDR k)).toNat then
      s1.ethSend k (s.ethHeader k mac 0x0806 ++ natBe 2 1 ++ natBe 2 0x0800 ++ natBe 1 6 ++ natBe 1 4 ++ natBe 2 2
        ++ s.ownMac k ++ natBe 4 target ++ natBe 6 mac ++ natBe 4 ip)
    else s1.bump (rEth_RX_DISCARD k)

def execArpRequest (k : Fin 2) (mac : BitVec 48) (ip target : BitVec 32) (s : State) : Host.Outcome State Fault Refusal :=
  done (s.arp k.val mac.toNat ip.toNat target.toNat)

/-- A frame is discarded: for its FCS, PCS or symbol errors, want of buffer, or as one of no accepted kind (R378, R397). -/
def execEthRxDiscard (k : Fin 2) (why : EthBad) (s : State) : Host.Outcome State Fault Refusal :=
  done (if !s.ethUp k then s else match why with
    | .fcs => (s.bump (rEth_FCS_ERR k)).raise (354 + 4 * k.val) 0 (sfHint 0 k)
    | .overflow => (s.bump (rEth_RX_FRAMES k)).raise (355 + 4 * k.val) 0 (sfHint 0 k)
    | .kind => (s.bump (rEth_RX_FRAMES k)).bump (rEth_RX_DISCARD k)
    | .pcs => s.raise (353 + 4 * k.val) 0 (sfHint 0 k))

/-! IEEE 1588 (R394, R395) -/

/-- May the device run as slave: it is the spine master, or has no fabric (R394)? -/
def State.ptpSlave (s : State) : Bool := s.rd rFab_CONF_MAP = 0 || s.bit rFab_FAB_STAT 3

/-- The state the port shows: listening where the algorithm would make it slave and the device is none (R394). -/
def State.ptpShown (s : State) (st : Nat) : Nat := if st = 0 || (st = 2 && !s.ptpSlave) then 1 else st

def State.ptpPort (s : State) (k : Nat) : PtpSt := Tab.get (fun _ => PtpSt.reset) s.net.ptp k
def State.modPtp (s : State) (k : Nat) (f : PtpSt → PtpSt) : State :=
  s.modNet fun x => { x with ptp := Tab.modify (fun _ => PtpSt.reset) x.ptp k f }

/-- The device's PTP time, ns: EPOCH and Meridian, and `sub` ns within the tick (R394). -/
def State.ptpTime (s : State) (sub : Nat) : Nat := s.rd64 rMer_EPOCH_LO * 1000000000 + 10 * s.now + sub

/-- An IEEE 1588 message leaves a port. -/
def State.ptpSend (s : State) (k kind time : Nat) : State :=
  (s.emit (.ptp k (s.bit (rEth_ETH_CFG k) 8) kind time)).bump (rEth_TX_FRAMES k)

/-- Does a port run as slave? -/
def State.ptpSlaveAt (s : State) (k : Nat) : Bool := s.ptpState k = 2 && s.ptpSlave

/-- t2 − t1 is known: Delay_Req (messageType 1) asks for the way back (R394; log 163). -/
def State.ptpAsk (s : State) (k : Nat) (ms : Int) : State :=
  (s.ptpSend k 1 (s.ptpTime 0)).modPtp k fun _ => ⟨none, some ms, s.ptpTime 0⟩

/-- Offset and delay of a whole exchange: half the difference and half the sum of t2 − t1 and t4 − t3, ns. The offset goes to MER at level 2
(R322, R394). -/
def State.ptpMeasured (s : State) (k : Nat) (ms sm : Int) : State :=
  let off := (ms - sm).tdiv 2
  let sat (x : Int) : Int := max (-(2 ^ 31)) (min x (2 ^ 31 - 1))
  (((s.wrN (rEth_PTP_OFFSET k) (ofSigned 32 (sat off))).wrN (rEth_PTP_DELAY k) (ofSigned 32 (sat ((ms + sm).tdiv 2)))).setFld rMer_SYNC_STAT
    4 2 2).merOffset ((off * 64 + 9 * off.sign).tdiv 10)

/-- What a supported message does. -/
def State.ptpTake (s : State) (k : Nat) : PtpKind → State
  | .announce st => s.setFld (rEth_ETH_STAT k) 2 3 (s.ptpShown st.val)
  | .sync sub (some t1) => s.when (s.ptpSlaveAt k) fun x => x.ptpAsk k ((x.ptpTime sub.val : Int) - t1.toNat)
  | .sync sub none => s.when (s.ptpSlaveAt k) fun x => x.modPtp k fun y => { y with t2 := some (x.ptpTime sub.val) }
  | .followUp t1 => match s.ptpSlaveAt k, (s.ptpPort k).t2 with
    | true, some t2 => s.ptpAsk k ((t2 : Int) - t1.toNat)
    | _, _ => s
  | .delayResp t4 => match s.ptpSlaveAt k, (s.ptpPort k).ms with
    | true, some ms => (s.modPtp k fun y => { y with ms := none }).ptpMeasured k ms ((t4.toNat : Int) - (s.ptpPort k).t3)
    | _, _ => s
  | .delayReq sub => s.when (s.ptpState k = 3) fun x => x.ptpSend k 9 (x.ptpTime sub.val)
  | .unsupported => s

/-- A message arrives on a port, over the transport and in the domain configured. -/
def State.ptp (s : State) (k : Nat) (dom : Nat) (msg : PtpMsg) : State :=
  if !s.ethUp k then s
  else
    let s1 := s.bump (rEth_RX_FRAMES k)
    if !s.bit (rEth_ETH_CFG k) 7 || dom ≠ s.fld (rEth_ETH_CFG k) 9 7 || msg.udp ≠ s.bit (rEth_ETH_CFG k) 8 || msg.kind = .unsupported then
      s1.bump (rEth_RX_DISCARD k)
    else
      (s1.modNet fun x => { x with
        ptpAt := s1.now
        ptpLost := false }).ptpTake k msg.kind

def execPtpMessage (k : Fin 2) (dom : BitVec 7) (msg : PtpMsg) (s : State) : Host.Outcome State Fault Refusal :=
  done (s.ptp k.val dom.toNat msg)

/-- No PTP message for 3 s, on a device that listens for a master or follows one: HOLDOVER, with its own source (R340, R395). -/
def execPtpLoss (s : State) : Host.Outcome State Fault Refusal :=
  done (if !s.net.ptpLost && s.tbRuns && s.ptpSlave && (anyBelow 2 fun k => s.ptpState k = 1 || s.ptpState k = 2) then
    let s1 := ((s.advanceTo (s.net.ptpAt + 300000000)).modNet fun x => { x with ptpLost := true }).raise0 369
    if s1.syncState = 2 || s1.syncState = 4 then (s1.setSync 3).raise0 928 else s1
  else s)

/-! Keys (R391 to R393, R400) -/

/-- Set KEY_STAT.RESULT. -/
def State.keyResult (s : State) (r : Nat) : State := s.setFld rKeys_KEY_STAT 2 3 r

def State.keyOwner (s : State) : Nat := s.fld rKeys_KEY_SEL 0 7
def State.keyIdx (s : State) : Nat := s.fld rKeys_KEY_SEL 8 1

/-- Is a key action waiting for its change-log entry? -/
def State.keyBusy (s : State) : Bool := s.cfg.queue.any fun e => match e.2 with
  | .keyLoad .. => true
  | .keyErase .. => true
  | .keySetRetire .. => true
  | _ => false

/-- Is a load refused (R393, R431)? -/
def State.keyRefused (s : State) : Bool :=
  let o := s.keyOwner
  let other := s.keySlot o (1 - s.keyIdx)
  !s.lcProvDep || s.modeIs .boot || decide (72 ≤ o) || (s.keySlot o s.keyIdx).rxOk s.now
    || (other.present && decide ((s.rd rKeys_KEY_EPOCH).toNat ≤ other.epoch))

/-- The staged key: byte 0 in KEY_DATA_0 [7:0] is the first byte of the key, the most significant of the number. -/
def State.keyData (s : State) : BitVec 128 :=
  BitVec.ofNat 128 (beNat ((List.range 4).flatMap fun i => natLe 4 (Tab.get (fun _ => (0 : Word)) s.net.staged i).toNat))

/-- A write of KEY_CMD: LOAD, ERASE or SET_RETIRE of the selected slot, by ADMIN, after its change-log entry (R393, R449). -/
def State.keyCmd (s : State) (m : Master) (v : Word) : State :=
  if s.modeIs .dormant then s
  else
    let s1 := s.noteWrite m rKeys_KEY_CMD
    let o := s1.keyOwner
    let k := s1.keyIdx
    let noAs (code : Nat) (x : State) : State :=
      (x.keyResult code).clogNote (x.clogRole m) 0 (masterNum m) code 0x70 (o + 256 * k) (natLe 4 v.toNat)
    if !s1.mayWrite m rKeys_KEY_CMD (s1.holdsAdmin m) then noAs 1 (s1.denied m rKeys_KEY_CMD)
    else if natBits v.toNat 0 3 = 0 then s1
    else if s1.keyBusy then noAs 3 s1
    else
      let no := noAs 2
      let go (a : PendAct) : State := (s1.clogGuard (s1.clogRole m) 0 (masterNum m) 0x70 (o + 256 * k) (natLe 4 v.toNat) a).keyResult 0
      if v.getLsbD 0 then
        if s1.keyRefused then no s1
        else go (.keyLoad o k s1.keyData (s1.rd rKeys_KEY_EPOCH).toNat (s1.rd64 rKeys_KEY_START_LO) (s1.rd64 rKeys_KEY_RETIRE_LO))
      else if 72 ≤ o then no s1
      else if v.getLsbD 1 then go (.keyErase o k)
      else go (.keySetRetire o k (s1.rd64 rKeys_KEY_RETIRE_LO))

def execKeyLoad (m : Master) (s : State) : Host.Outcome State Fault Refusal := done (s.keyCmd m 1)
def execKeyErase (m : Master) (s : State) : Host.Outcome State Fault Refusal := done (s.keyCmd m 2)
def execKeySetRetire (m : Master) (s : State) : Host.Outcome State Fault Refusal := done (s.keyCmd m 4)

/-- A key is loaded: HWM is reset (R391, R392). -/
def State.keyPut (s : State) (o k : Nat) (key : BitVec 128) (epoch start retire : Nat) : State :=
  (s.modKeySlot o k fun _ => ⟨true, key, epoch, start, retire⟩).setHwm

/-- A key is erased: the slot reads EMPTY. -/
def State.keyDel (s : State) (o k : Nat) : State := s.modKeySlot o k fun _ => KeySlot.reset

/-- A slot reaches its RETIRE time (R392). -/
def State.keyRetired (s : State) (o k : Nat) : State :=
  let x := s.keySlot o k
  if x.present && x.retire ≠ 0 && !s.modeIs .dormant then ((s.advanceTo x.retire).keyDel o k).raise 372 0 (o % 64) else s

def execKeyRetired (o : Fin 72) (k : Fin 2) (s : State) : Host.Outcome State Fault Refusal := done (s.keyRetired o.val k.val)

/-- HWM is advanced: not while tagged copies are held back; the last cycle before Meridian reaches it is waited for (R391; log 162). -/
def execHwmUpdate (s : State) : Host.Outcome State Fault Refusal :=
  done (if s.ivHeld || s.modeIs .dormant then s else (s.advanceTo (s.hwm - 1)).setHwm)

end Sys2Proof.Machine
end

