-- ==== Sys2Proof/Machine/Vernier.lean ====
section
/-! DEFINITION. Vernier (ch. 19): sensors and margins (R495, R496), admissible grades (R498), the choice of the grade (R499, R500),
the trend store and its projections (R497, R502), VERN_MARGIN (R503, R504). Timing margins are in half picoseconds, as they
would be at 800 MHz; `gradeConv` takes them to a grade. -/

namespace Sys2Proof.Machine

open Sys2Proof

/-! Grades -/

/-- The grade of a code; 3 is the lowest (R509). -/
def gradeOf : Nat → Grade
  | 0 => .g800 | 1 => .g640 | _ => .g533

/-- The period in 1/16 ns (R12). -/
def gradePer : Nat → Nat
  | 0 => 20 | 1 => 25 | _ => 30

/-- P_g − P_800 in half picoseconds (R496). -/
def gradeConv : Nat → Int
  | 0 => 0 | 1 => 625 | _ => 1250

/-- The ceiling code of a behaviour level (R505). -/
def blCode (b : Nat) : Nat := if b = 2 then 0 else 1

/-- Flash address of a copy of the Almanac (log 7). -/
def copyAt (k : Nat) : Nat := k * 0x1000000

/-- The behaviour level in force (R506). -/
def State.bl (s : State) : Nat := (Mem.byte s.mem.flash (copyAt s.cfg.copy + 6)).toNat

/-- The ceiling: the lowest of the level's, OTP BL_CEIL's and VN_CFG.GRADE_MAX (R498). -/
def State.vnCeil (s : State) : Nat :=
  max (if s.cfg.inForce then blCode s.bl else 0)
    (max (blCode (s.fld rOtp_BL_CEIL 0 4)) (min 2 (s.fld rVern_VN_CFG 0 2)))

/-- BUDGET of a schedule entry at a grade (R88). -/
def State.budgetAt (s : State) (n e g : Nat) : Nat := Tab.get (fun _ => 0) s.eng.budgets ((64 * n + e) * 3 + g)

/-- Does a budget fit its window (R89 rule 5)? -/
def State.rule5 (s : State) (n e g : Nat) : Bool :=
  s.budgetAt n e g * gradePer g + 6400 ≤ s.fld (rPair_SE_W1 n e) 16 13 * 160

/-- Does a SAFE entry end within 30 µs (R89 rule 6)? -/
def State.rule6 (s : State) (n e g : Nat) : Bool :=
  !s.ptSafe (s.sePart n e) || s.budgetAt n e g * gradePer g ≤ 480000

/-- Every entry of the four tables: pair and entry. -/
def allEntries : List (Nat × Nat) := (List.range 4).flatMap fun n => (List.range 64).map fun e => (n, e)

/-- The first VALID entry that breaks rule 5 or 6 at a grade: rule's cause code, pair, entry (R504). -/
def State.gradeBreak (s : State) (g : Nat) : Option (Nat × Nat × Nat) :=
  allEntries.findSome? fun x =>
    if !s.bit (rPair_SE_W0 x.1 x.2) 4 then none
    else if !s.rule5 x.1 x.2 g then some (1, x.1, x.2)
    else if !s.rule6 x.1 x.2 g then some (2, x.1, x.2) else none

/-- Is a grade configuration-admissible (R498)? The windows of R363 and R396 do not depend on the grade: a committed
configuration satisfies them at each. -/
def State.cfgAdm (s : State) (g : Nat) : Bool := s.vnCeil ≤ g && (s.gradeBreak g).isNone

/-- g_min: the lowest configuration-admissible grade (R498); with none, the grade in force. -/
def State.gMin (s : State) : Nat :=
  if s.cfgAdm 2 then 2 else if s.cfgAdm 1 then 1 else if s.cfgAdm 0 then 0 else Grade.code s.dev.grade

/-! Margins (R495, R496) -/

def State.guard (s : State) : Int := 2 * (s.fld rVern_GUARD 0 8 : Int)
def State.roLim (s : State) (g : Nat) : Nat := s.fld rVern_RO_LIM (8 * g) 8

/-- The least of a list. -/
def minInt : List Int → Option Int
  | [] => none
  | x :: xs => some (xs.foldl min x)

/-- The timing margin m_g on the margin of the last second; none before the first (R496). -/
def State.mG (s : State) (g : Nat) : Option Int :=
  if s.vern.shift.any (fun x => decide (s.roLim g < x)) then some (-2)
  else (minInt s.vern.slack).map fun x => x + gradeConv g - s.guard

/-- Is a grade timing-admissible (R496)? -/
def State.timeAdm (s : State) (g : Nat) : Bool :=
  match s.mG g with
  | some m => decide (0 ≤ m)
  | none => true

/-- Key of a sensor. -/
def senKey (code index : Nat) : Nat := 256 * code + index

/-- The port of a lane. -/
def lanePort (l : Nat) : Option Nat := (List.range 8).find? fun p => (portLanes p).contains l

/-- A number where a condition holds. -/
def whenSome (b : Bool) (x : Int) : Option Int := if b then some x else none

/-- The margin of a sensor now, in its own units, the timing sensors' at 800 MHz; none where it has not been measured (R495). -/
def State.margin (s : State) (code i : Nat) : Option Int :=
  match code with
  | 1 => s.vern.slack[i]?.map fun x => x - s.guard
  | 2 => s.vern.shift[i]?.map fun x => (s.roLim 0 : Int) - (x : Int)
  | 3 => whenSome ((lanePort i).any s.portUp) ((s.fld (rLane_EYE_H i) 0 8 : Int) - (s.fld (rLane_LN_CFG i) 16 8 : Int))
  | 4 => whenSome (s.fld (rCh_RON i) 0 16 ≠ 65535) ((s.fld rVern_RON_LIM 0 16 : Int) - (s.fld (rCh_RON i) 0 16 : Int))
  | 5 => whenSome (s.fld (rBank_SHUT_RON i) 0 16 ≠ 65535) ((s.fld rVern_RON_LIM 16 16 : Int) - (s.fld (rBank_SHUT_RON i) 0 16 : Int))
  | 6 => whenSome (s.bit (rBank_SEQ_CFG i) 0 || (s.rd (rBank_REF_DRIFT i)).toNat ≠ 0)
      (5000 - ((asSigned 16 (s.fld (rBank_REF_DRIFT i) 0 16)).natAbs : Int))
  | 7 => some ((s.fld rVern_FLASH_LIM 0 24 : Int) - (s.vern.erase : Int))
  | 8 => some (s.fld rOtp_MARGIN 0 10 : Int)
  | _ => none

/-- The sensors of a code. -/
def senCount : Nat → Nat
  | 1 => 24 | 2 => 8 | 3 => 12 | 4 => 192 | 5 => 24 | 6 => 24 | 7 => 1 | 8 => 1 | _ => 0

/-- Every sensor: code and index. -/
def allSensors : List (Nat × Nat) := (List.range 9).flatMap fun c => (List.range (senCount c)).map fun i => (c, i)

/-- Note a margin where it is less than the one noted. -/
def noteMin (t : Tab (Option Int)) (k : Nat) (m : Option Int) : Tab (Option Int) :=
  match m, Tab.get (fun _ => none) t k with
  | none, _ => t
  | some x, none => Tab.set (fun _ => none) t k (some x)
  | some x, some y => Tab.set (fun _ => none) t k (some (min x y))

/-- Change the first table of a list. -/
def modHead (f : Tab (Option Int) → Tab (Option Int)) : List (Tab (Option Int)) → List (Tab (Option Int))
  | [] => [f []]
  | t :: ts => f t :: ts

/-! Projection (R502) -/

/-- The last 365 records of a sensor, oldest at the highest number: days before the latest record, and margin. -/
def State.records (s : State) (k : Nat) : List (Nat × Int) :=
  (s.vern.trend.take 365).zipIdx.filterMap fun x => (Tab.get (fun _ => none) x.1 k).map fun m => (x.2, m)

/-- Days until a margin reaches zero, its records shifted by `conv` (R502): the slope of the least-squares line over the days is
−num / den, `num` and `den` taken over the days before the latest record. -/
def project (recs : List (Nat × Int)) (conv : Int) : Option Nat :=
  if recs.length < 30 then none
  else
    let n : Int := recs.length
    let sx : Int := recs.foldl (fun a r => a + (r.1 : Int)) 0
    let sy : Int := recs.foldl (fun a r => a + r.2) 0
    let sxy : Int := recs.foldl (fun a r => a + (r.1 : Int) * r.2) 0
    let sxx : Int := recs.foldl (fun a r => a + (r.1 : Int) * (r.1 : Int)) 0
    let num := n * sxy - sx * sy
    let den := n * sxx - sx * sx
    let m := (recs.head?.map (·.2)).getD 0 + conv
    if m ≤ 0 then some 0
    else if num ≤ 0 then none
    else some (m * den / num).toNat

/-- What takes a timing sensor's margin from 800 MHz to a grade (R496). -/
def State.senConv (s : State) (code g : Nat) : Int :=
  match code with
  | 1 => gradeConv g
  | 2 => (s.roLim g : Int) - (s.roLim 0 : Int)
  | _ => 0

/-- The projection of a sensor, the timing sensors' at a grade. -/
def State.proj (s : State) (code i g : Nat) : Option Nat := project (s.records (senKey code i)) (s.senConv code g)

/-- The lesser of two projections, with what they belong to. -/
def lesser (a b : Option (Nat × Nat × Nat)) : Option (Nat × Nat × Nat) :=
  match a, b with
  | none, y => y
  | x, none => x
  | some x, some y => if x.2.2 ≤ y.2.2 then some x else some y

/-- The least projection over some sensors: code, index, days. -/
def State.worst (s : State) (g : Nat) (xs : List (Nat × Nat)) : Option (Nat × Nat × Nat) :=
  xs.foldl (fun a x => lesser a ((s.proj x.1 x.2 g).map fun d => (x.1, x.2, d))) none

/-- The timing projection at a grade: the least over the canaries and the oscillator pairs. -/
def State.timeProj (s : State) (g : Nat) : Option Nat :=
  (s.worst g (allSensors.filter fun x => x.1 ≤ 2)).map fun x => x.2.2

/-- Days as a register shows them; 0xFFFF = none. -/
def daysReg (d : Option Nat) : Nat :=
  match d with
  | some x => min x 65534
  | none => 65535

/-! VERN_MARGIN (R503, R504) -/

/-- VN_STAT and DAYS as they stand (R509). -/
def State.vnShow (s : State) : State :=
  (s.wrN rVern_VN_STAT (Grade.code s.dev.grade + 4 * s.vnCeil + 16 * s.gMin + 64 * s.vern.margin + 256 * b2n s.vern.short
    + 512 * b2n s.vern.exhausted + 1024 * b2n (30 ≤ s.vern.trend.length))).wrN rVern_DAYS s.vern.trend.length

/-- The state of R503. -/
def State.vnState (s : State) : Nat :=
  if s.vern.exhausted || s.vern.short then 0
  else if s.vern.warn3 || !s.vern.limits.isEmpty then 1
  else if s.vern.warn12 then 2 else 3

/-- Does the state of R503 that raises VERN_WARN3 hold? -/
def State.vnWarn3 (s : State) : Bool := s.vern.margin = 1 && s.vern.warn3

/-- VERN_MARGIN takes its state, for projections of at most 91 days (`w3`) and of at most a year (`w12`): a change raises event 1,082, and
the state that begins its warning (R503). -/
def State.vnJudge (s : State) (w3 w12 : Bool) : State :=
  let s0 := s.modVern fun v => { v with warn3 := w3, warn12 := w12 }
  let old := s.vern.margin
  let new := s0.vnState
  let s1 := s0.modVern fun v => { v with margin := new }
  let s2 := (s1.when (s1.vnWarn3 && !s.vnWarn3) fun x => x.raise0 57).when (new = 2 && old ≠ 2) fun x => x.raise0 56
  (s2.when (old ≠ new) fun x => x.opEvent 1082 none (old + 256 * new)).vnShow

/-- VERN_MARGIN with the projections as they stand. -/
def State.vnAgain (s : State) : State := s.vnJudge s.vern.warn3 s.vern.warn12

/-- The condition sensors whose margin is 0 or less; each that joins them raises VERN_LIMIT (R503, R508). -/
def State.vnLimits (s : State) : State :=
  let bad := allSensors.filter fun x => 3 ≤ x.1 && (match s.margin x.1 x.2 with
    | some m => decide (m ≤ 0)
    | none => false)
  let new := bad.filter fun x => !s.vern.limits.contains (senKey x.1 x.2)
  (s.each new fun x y => x.raise 61 0 (y.1 + 16 * y.2)).modVern fun v => { v with limits := bad.map fun x => senKey x.1 x.2 }

/-- SHORT_CAUSE: the grade below g_min and what forbids it (R504, R509). -/
def State.shortCause (s : State) : State :=
  let g := s.gMin + 1
  match s.gradeBreak g with
  | some (c, n, e) => s.wrN rVern_SHORT_CAUSE (g + 4 * c + 64 * s.sePart n e + 1024 * e)
  | none => s

/-- MARGIN_SHORT begins, or at a commit clears (R504): the timing projection at g_min is 365 days or fewer and a lower grade exists. R13
refuses no grade change on account of R233, since no term of R231 depends on the grade (R501). -/
def State.vnShort (s : State) (commit : Bool) : State :=
  let on := s.gMin ≠ 2 && (match s.timeProj s.gMin with
    | some d => decide (d ≤ 365)
    | none => false)
  let s1 := s.when (on && !s.vern.short) fun x => x.shortCause.raise0 58
  s1.modVern fun v => { v with short := on || (v.short && !commit) }

/-- The projections and the warnings that follow them (R502 to R504), after a daily record or at a commit. -/
def State.vnProject (s : State) (commit : Bool) : State :=
  let w := s.worst s.gMin allSensors
  let s1 := s.wrN rVern_WORST (match w with
    | some (c, i, d) => c + 16 * i + 65536 * daysReg (some d)
    | none => 0xFFFF)
  let s2 := ((s1.wrN rVern_PROJ_800 (daysReg (s.timeProj 0))).wrN rVern_PROJ_640 (daysReg (s.timeProj 1))).wrN rVern_PROJ_533
    (daysReg (s.timeProj 2))
  let days := w.map fun x => x.2.2
  let w3 := days.any fun d => d ≤ 91
  (s2.vnShort commit).vnJudge w3 (days.any fun d => d ≤ 365)

/-! The grade (R499, R500) -/

/-- Does Vernier measure: the clocks run and start-up is over? -/
def State.vernRuns (s : State) : Bool := s.modeIs .sync || s.modeIs .operate || s.modeIs .harebell || s.modeIs .halted

/-- Does Vernier choose the grade: not in HAREBELL, where R471 alone sets it (R500)? -/
def State.vernChooses (s : State) : Bool := s.modeIs .sync || s.modeIs .operate

/-- The highest grade below `g` that is admissible both ways. -/
def State.lowerGrade (s : State) (g : Nat) : Option Nat :=
  (List.range 3).find? fun k => g < k && s.cfgAdm k && s.timeAdm k

/-- Lowering (R499, R500). -/
def State.vernLower (s : State) : State :=
  let g := Grade.code s.dev.grade
  if !s.vernChooses || s.timeAdm g then s
  else match s.lowerGrade g with
    | some k => s.modDev fun d => { d with gradePend := some (gradeOf k) }
    | none =>
      let s1 := s.when (!s.vern.exhausted) fun x => (x.modVern fun v => { v with exhausted := true }).raise0 59
      s1.vnAgain.enterHarebell 59 3

/-- A second of measurements: slack of the canaries in 5 ps at the grade in force, shifts of the pairs in 0.1 %, the highest erase
count of the flash (R495, R499). -/
def State.vernSecond (s : State) (slack : List (BitVec 16)) (shift : List (BitVec 8)) (erase : BitVec 24) : State :=
  let g := Grade.code s.dev.grade
  let s1 := s.modVern fun v => { v with
    slack := slack.map fun x => 10 * x.toInt - gradeConv g
    shift := shift.map BitVec.toNat
    erase := erase.toNat }
  let note (t : Tab (Option Int)) : Tab (Option Int) :=
    allSensors.foldl (fun t x => noteMin t (senKey x.1 x.2) (s1.margin x.1 x.2)) t
  let s2 := s1.modVern fun v => { v with
    day := note v.day
    hrs := modHead note v.hrs
    hour := (List.range 3).foldl (fun t k => noteMin t k (s1.mG k)) v.hour }
  s2.vnLimits.vernLower.vnAgain

def execVernierSecond (slack : List (BitVec 16)) (shift : List (BitVec 8)) (erase : BitVec 24) (s : State) :
    Host.Outcome State Fault Refusal :=
  done (if s.vernRuns then (s.advanceTo (s.nextMultiple 100000000)).vernSecond slack shift erase else s)

/-- The hourly evaluation (R499): 24 in a row in which m_g was at least H_UP (log 51). -/
def State.vernHourly (s : State) : State :=
  let hUp := 2 * (s.fld rVern_GUARD 8 8 : Int)
  let ok (g : Nat) : Bool := match Tab.get (fun _ => none) s.vern.hour g with
    | some m => decide (hUp ≤ m)
    | none => false
  let s1 := s.modVern fun v => { v with
    up := (List.range 3).foldl (fun t g => Tab.set (fun _ => 0) t g (if ok g then Tab.get (fun _ => 0) v.up g + 1 else 0)) v.up
    hour := []
    hrs := (([] : Tab (Option Int)) :: v.hrs).take 24 }
  let g := Grade.code s.dev.grade
  match ((List.range g).reverse.find? fun k => s1.cfgAdm k) with
  | some k => if s1.vernChooses && 24 ≤ Tab.get (fun _ => 0) s1.vern.up k && s1.dev.gradePend.isNone then
      s1.modDev fun d => { d with gradePend := some (gradeOf k) } else s1
  | none => s1

/-- The first major-frame boundary of the next hour. -/
def State.hourBoundary (s : State) : Nat :=
  let p := 6250 * 2 ^ s.mfLog2
  (s.nextMultiple 360000000000 + p - 1) / p * p

def execVernierHourly (s : State) : Host.Outcome State Fault Refusal :=
  done (if s.vernRuns then (s.advanceTo s.hourBoundary).vernHourly else s)

/-- A canary's slack at the grade in force falls below 0 ps (R499). -/
def execVernSlackNeg (s : State) : Host.Outcome State Fault Refusal :=
  done (if s.vernRuns then s.raise0 60 else s)

/-- The daily record, or its loss where the write fails (R497, R502, R508). -/
def State.vernDaily (s : State) (ok : Bool) : State :=
  let s1 := s.modVern fun v => { v with
    trend := if ok then (v.day :: v.trend).take 9200 else v.trend
    day := []
    dayAt := s.now }
  if !ok then s1.raise0 62
  else
    let s2 := s1.vnProject false
    s2.opEvent 1083 none (match s2.worst s2.gMin allSensors with
      | some (c, i, d) => c + 16 * i + 65536 * daysReg (some d)
      | none => 0xFFFFFFFF)

def execVernierDaily (ok : Bool) (s : State) : Host.Outcome State Fault Refusal :=
  done (if s.vernRuns then (s.advanceTo (s.vern.dayAt + 8640000000000)).vernDaily ok else s)

/-! What a commit and a boundary do (R472, R499, R501) -/

/-- A commit: what R500, R503 and R504 say of the configuration is judged again. -/
def State.vernCommit (s : State) : State :=
  let g := if s.modeIs .harebell then s.flt.preGrade else s.dev.grade
  let free := (s.lowerGrade (Grade.code g)).isSome || !s.vern.exhausted
  (s.modVern fun v => { v with exhausted := v.exhausted && !free }).vnProject true

/-- PROOF_STAT shows no pass in progress. -/
def State.proofAgain (s : State) : State := (s.setBit rLcs_PROOF_STAT 3 false).setFld rLcs_PROOF_STAT 8 8 0

/-- The grade changes: BUDGET fields are reloaded, and every proof-test pass in progress starts again (R13, R96 step 2, R416, R501). -/
def State.setGrade (s : State) (g : Grade) : State :=
  let k := Grade.code g
  let s1 := s.each allEntries fun x e => x.setFld (rPair_SE_W2 e.1 e.2) 0 16 (x.budgetAt e.1 e.2 k)
  if s.dev.grade = g then s1
  else (((((s1.modDev fun d => { d with grade := g }).modLcs fun l => { l with slices := [] }).proofAgain).bump rVern_GRADE_CNT).opEvent 1029 none
    (Grade.code s.dev.grade + 256 * k)).vnShow

/-- The lowest grade that admits every entry of every essential partition (R471); the ceiling bounds it. -/
def State.harebellGrade (s : State) : Grade :=
  let ok (g : Nat) : Bool := s.vnCeil ≤ g && allEntries.all fun x =>
    !s.bit (rPair_SE_W0 x.1 x.2) 4 || !s.ptEssential (s.sePart x.1 x.2) || (s.rule5 x.1 x.2 g && s.rule6 x.1 x.2 g)
  match (List.range 3).reverse.find? ok with
  | some g => gradeOf g
  | none => s.dev.grade

/-- Step 2 of R96: a grade change requested; in HAREBELL the grade of R471. -/
def State.gradeStep (s : State) : State :=
  match s.dev.gradePend with
  | none => s
  | some g =>
    let s1 := s.modDev fun d => { d with gradePend := none }
    if s.modeIs .harebell then s1.setGrade s1.harebellGrade
    else if s1.cfgAdm (Grade.code g) then s1.setGrade g else s1

/-- The grade at a RESUME's boundary (R472). -/
def State.resumeGrade (s : State) : State :=
  let ok (k : Nat) : Bool := Grade.code s.flt.preGrade ≤ k && s.cfgAdm k && s.timeAdm k
  match (List.range 3).find? ok with
  | some k => s.setGrade (gradeOf k)
  | none => s

end Sys2Proof.Machine
end

