-- ==== Sys2Proof/Machine/Live.lean ====
section
/-! DEFINITION. The live conditions (R549) and what is judged on them: the highest live class (R477), a DORMANT request (R17), a
RESUME (R472). -/

namespace Sys2Proof.Machine

open Sys2Proof

/-- Is a source's injection held (R473, R474)? -/
def State.injHeld (s : State) (n : Nat) : Bool :=
  match (s.inj (srcPage n)).hold with
  | some (k, _, _) => decide (k = n)
  | none => false

/-- Is a fabric configured (R16)? -/
def State.fabOn (s : State) : Bool := s.rd rFab_CONF_MAP ≠ 0

/-- Live conditions of sources 0–95. -/
def State.liveLow (s : State) (n : Nat) : Bool :=
  if n < 18 then s.alm n ≠ .normal
  else match n with
    | 32 => s.bit rOtp_OTP_STAT 1
    | 34 => s.bit rOtp_OTP_STAT 3
    | 49 => s.bit rRng_RNG_STAT 2
    | 56 => s.vern.margin = 2
    | 57 => s.vnWarn3
    | 58 => s.vern.short
    | 59 => s.vern.exhausted
    | 61 => !s.vern.limits.isEmpty
    | 64 => s.bit rSup_SUP_STAT 1
    | 65 => s.bit rSup_SUP_STAT 2
    | 66 => s.ngl.vbakSeen && !s.bit rSup_SUP_STAT 3
    | 67 => s.ngl.vbakSeen && decide (s.fld rSup_V_VBAK 0 16 < 2000)
    | 68 => s.bit rSup_SUP_STAT 4
    | 76 => s.ngl.alarm ≠ 0
    | 78 => !s.ngl.valid
    | 79 => !s.ngl.xtalOk
    | _ => false

/-- Live conditions of the fabric and the network. -/
def State.liveNet (s : State) (n : Nat) : Bool :=
  if 256 ≤ n ∧ n < 320 then
    let p := (n - 256) / 8
    match (n - 256) % 8 with
    | 0 => s.bit (rPort_PT_CFG p) 0 && !s.portUp p && (s.port p).wasUp
    | 5 => s.portState p = 6
    | 6 => (portLanes p).any fun l => s.fld (rLane_EYE_H l) 0 8 < s.fld (rLane_LN_CFG l) 24 8
    | _ => false
  else match n with
    | 320 => Tab.get (fun _ => false) s.fab.loss 0
    | 321 => Tab.get (fun _ => false) s.fab.loss 1
    | 326 => anyBelow 16 fun p => (s.part p).suspended
    | 330 => s.fabOn && s.fld rFab_FAB_STAT 0 2 ≠ 2
    | 331 => s.isBridge && 1 < s.spineM && !s.bit rFab_FAB_STAT 11
    | 352 => (Tab.get (fun _ => false) s.net.linkUp 0 && !s.ethUp 0) || Tab.get (fun _ => false) s.net.heldDown 0
    | 356 => (Tab.get (fun _ => false) s.net.linkUp 1 && !s.ethUp 1) || Tab.get (fun _ => false) s.net.heldDown 1
    | 360 => anyBelow 64 fun c => (s.conn c).st = 3
    | 366 => anyBelow 64 fun c => (s.conn c).st = 4
    | 369 => s.net.ptpLost
    | 370 => s.net.keyNone.any (· ≠ 128)
    | 371 => s.ivHeld
    | _ => false

/-- Live conditions of the field and of time. -/
def State.liveField (s : State) (n : Nat) : Bool :=
  if 384 ≤ n ∧ n < 768 then
    if n % 2 = 0 then !(s.ch ((n - 384) / 2)).wl.isEmpty else !(s.ch ((n - 384) / 2)).fl.isEmpty
  else if 768 ≤ n ∧ n < 816 then
    if n % 2 = 0 then !(s.bank ((n - 768) / 2)).hl.isEmpty else !(s.bank ((n - 768) / 2)).sl.isEmpty
  else if 816 ≤ n ∧ n < 880 then
    let u := (n - 816) / 2
    s.spdState u = 5 && (if n % 2 = 0 then s.spdCause u ≠ 7 else s.spdCause u = 7)
  else match n with
    | 928 => s.syncState = 3
    | 929 => s.syncState = 2 && decide (s.syncLim < (asSigned 32 (s.rd rMer_OFFSET).toNat).natAbs)
    | 933 => 1000 < s.mer.slew.natAbs
    | 947 => s.host.wasUp && !s.bit rHost_LINK_STAT 0
    | _ => false

/-- Does the condition of a source hold (R549)? A held injection is the condition at the detector's input (R474). -/
def State.live (s : State) (n : Nat) : Bool :=
  (liveCap n && s.injHeld n)
  || (if n < 96 then s.liveLow n
    else if 216 ≤ n ∧ n < 232 then s.ptMode (n - 216) = 4
    else if 232 ≤ n ∧ n < 248 then !(s.part (n - 232)).forces.isEmpty
    else if n < 384 then s.liveNet n
    else s.liveField n)

/-- The class in force of a source: the higher of its base class and, escalated, of its escalated class. -/
def State.classNow (s : State) (n : Nat) : Nat :=
  let v := s.pol n
  if escShown v s.now (s.fcnt n) then max (polBase v) (polEsc v) else polBase v

/-- The sources with a live condition. -/
def State.liveList (s : State) : List Nat := (List.range 1024).filter s.live

/-- FLT_STAT.TOP: the highest class in force among live conditions (R477). -/
def State.topClass (s : State) : Nat := s.liveList.foldl (fun m n => max m (s.classNow n)) 0

/-- Is a fault at class DEGRADE or above live (R17)? -/
def State.degradeLive (s : State) : Bool := s.liveList.any fun n => 2 ≤ s.classNow n

/-- Is a SAFE output on (R17)? -/
def State.safeOutOn (s : State) : Bool :=
  anyBelow 192 fun n => s.bit (rCh_CH_CFG n) 4 && (if s.role n = 13 || s.role n = 14 then !s.bit (rCh_AN_STAT n) 3 else s.swIsOn n)

/-- Why a DORMANT request is refused (R17, R526): 1 a SAFE output on, 2 a partition running, 3 a live fault, 5 the mode. -/
def State.dormRefuse (s : State) : Option Nat :=
  if !s.modeIs .operate then some 5
  else if s.safeOutOn then some 1
  else if anyBelow 16 fun p => s.ptMode p = 1 && !s.bit (rPart_PT_MODE p) 3 then some 2
  else if s.degradeLive then some 3 else none

end Sys2Proof.Machine
end

