-- ==== Sys2Proof/Machine/Power.lean ====
section
/-! DEFINITION. Power, DORMANT and Nightglass (ch. 20): supply monitors (R510), gating of blocks (R31, R32, R512), DORMANT entry and
wake (R514 to R518, R326, R327), the RTC (R520), vigil inputs (R521 to R523), the backup log (R524). -/

namespace Sys2Proof.Machine

open Sys2Proof

/-! The RTC: events of its count (R520) -/

/-- Meridian at which a running count reaches `c`. -/
def State.rtcAt (s : State) (c : Nat) : Nat := s.ngl.base + ((c - s.ngl.cnt.toNat) * 100000000 + 32767) / 32768

/-- Time passes until the count reaches `c`. -/
def State.rtcTo (s : State) (c : Nat) : State :=
  if s.tbRuns then (s.advanceTo (s.rtcAt c)).rtcSet c else s.rtcSet c

/-- The count of the alarm (R527). -/
def State.rtcAlarmAt (s : State) : Nat := s.rd64 rNgl_ALARM_LO % 2 ^ 48

/-! The backup log (R524) -/

/-- Write an entry; the oldest is overwritten when the log is full. -/
def State.blPut (s : State) (code input : Nat) (alarm : Bool) : State :=
  let v := s.rtcNow + 2 ^ 48 * (code + 16 * input) + 2 ^ 56 * (b2n (!s.dev.vlogValid) + 2 * b2n (s.modeIs .dormant) + 4 * b2n alarm)
  let full := s.ngl.held = 64
  let head := (s.ngl.head + 1) % 64
  let lost := s.ngl.fresh = 64
  let s1 := s.modNgl fun n => { n with
    log := Tab.set (fun _ => 0) n.log n.head (BitVec.ofNat 64 v)
    head := head
    held := min 64 (n.held + 1)
    overwr := if full then satAdd 16 n.overwr 1 else n.overwr
    fresh := min 64 (n.fresh + 1)
    imp := if lost then head else n.imp }
  s1.when (full && s.dev.vlogValid) fun x => x.raise0 77

/-- Copy the oldest entry not yet imported to the Logbook as event 1,081 (R524; log 53). -/
def State.blImportOne (s : State) : State :=
  let e := Tab.get (fun _ => 0) s.ngl.log s.ngl.imp
  let s1 := (s.event 1081).logAdd ⟨s.now, 1081, 0, 3, none, false, 1, 0, e⟩
  s1.modNgl fun n => { n with imp := (n.imp + 1) % 64, fresh := n.fresh - 1 }

/-- At each local readiness and each wake: import, and VG_ALARM for every alarm bit that is set (R522, R524). -/
def State.nglReady (s : State) : State :=
  let s1 := s.each (List.range s.ngl.fresh) fun x _ => x.blImportOne
  s1.each ((List.range 4).filter s.ngl.alarm.getLsbD) fun x k => x.raise 76 k 0

/-! DORMANT entry (R515) -/

/-- DORM_STAT: refused, with its cause, and the event (R514, R17). -/
def State.dormRefused (s : State) (cause : Nat) : State :=
  (s.wrN rSup_DORM_STAT (2 + 16 * cause)).opEvent 1030 none cause

/-- Enter DORMANT at this boundary (R515): Meridian and the timers stop at the next rising edge of the 32.768 kHz clock, N0 (R326). -/
def State.dormEnter (s : State) : State :=
  let s1 := ((s.setMode .dormant).logFlush).bump rSup_DORM_CNT
  let n0 := (s.rtcNow + 1) % 2 ^ 48
  let s2 := (s.advanceTo (s.rtcAt n0)).now
  let s3 := (s1.setNow s2).rtcSet n0
  let s4 := (s3.modMer fun m => { m with n0 := n0 }).each (List.range 48) fun x t =>
    if (x.timer t).run = .running then x.tHold t .running else x
  let s5 := (s4.setFld rRng_RNG_STAT 0 2 0).wr rRng_RNG_DATA 0
  let s6 := s5.each (List.range 64) fun x c => x.modConn c fun y => { y with
    sent := false
    nextSf := 0 }
  s6.modDev fun d => { d with pllLocked := false, dormPend := false }

/-- A DORMANT request is evaluated (R17). -/
def State.dormEval (s : State) : State :=
  if !s.dev.dormPend then s
  else match s.dormRefuse with
    | some c => (s.modDev fun d => { d with dormPend := false }).dormRefused c
    | none => s.dormEnter

/-- A request is latched (R514). -/
def State.dormRequest (s : State) (alarmUse : Bool) : State :=
  ((s.wrN rSup_DORM_STAT 1).modDev fun d => { d with dormPend := true }).modNgl fun n => { n with armed := alarmUse }

/-- A write of DORM_CMD.ENTER: in DORMANT it asks for nothing; without MAINT or ADMIN it is refused with cause 4 (R514). -/
def State.dormAsk (s : State) (m : Master) (alarmUse : Bool) : State :=
  if s.modeIs .dormant then s.noteWrite m rSup_DORM_CMD
  else
    let s1 := s.cmdWrite m rSup_DORM_CMD (fun x => x.holdsMA m) fun x => x.dormRequest alarmUse
    if s.holdsMA m then s1 else s1.dormRefused 4

def execDormantEnterReq (m : Master) (alarmUse : Bool) (s : State) : Host.Outcome State Fault Refusal := done (s.dormAsk m alarmUse)

/-! The field check of R288, in SELFTEST and at a wake (R517) -/

/-- A bank out of range skips steps 3 and 4 (R288). -/
def bankSkips (f : FieldFind) (b : Nat) : Bool := f.supply.any fun x => x.1.val = b && supplyKind x.2 ≠ 0

/-- The check passes: no DI_COMP, and no failure of steps 3 and 4 in a bank that runs them (R288). -/
def fieldOk (f : FieldFind) : Bool :=
  f.comp.isEmpty && (f.rail.all fun n => bankSkips f (n.val / 8)) && f.shut.all fun b => bankSkips f b.val

/-- Steps 1 and 2: the bank supplies, the wiring kinds and the comparators; the banks show their health (R288, R291). -/
def State.fieldCheck (s : State) (f : FieldFind) : State :=
  let s1 := s.each f.supply fun x b => x.supplyRead b.1.val b.2
  let s2 := s1.each f.wiring fun x w => (x.chHere w.1.val w.2.val false).devWrite w.1.val 0 .fault
  let s3 := s2.each f.comp fun x n => (x.chHere n.val 1 true).devWrite n.val 0 .fault
  s3.each (List.range 24) State.bankShow

/-! Wake (R517, R326, R327) -/

/-- Meridian and the running timers are made up (R326, R327); times held as Meridian move with it where DORMANT does not count
(R435, R497, R514). -/
def State.makeUp (s : State) (n1 : Nat) : State :=
  if s.ngl.kept then
    let e := (n1 + 2 ^ 48 - s.mer.n0) % 2 ^ 48
    let acc := e * 100000000 + (s.rd rMer_MK_FRAC).toNat
    let add := acc / 32768
    let m0 := s.now
    let s1 := ((s.wrN rMer_MK_FRAC (acc % 32768)).wrN rMer_MK_ELAPSED (min e 0xFFFFFFFF)).wr64 rMer_MK_ADD_LO add
    let s2 := (s1.setNow (m0 + add)).tMakeupAll m0 (m0 + add)
    let s3 := (s2.modSess .pcie fun x => { x with lastWr := x.lastWr + add }).modSess .spi fun x => { x with lastWr := x.lastWr + add }
    s3.modVern fun v => { v with dayAt := v.dayAt + add }
  else s.raise0 931

/-- The synchronisation state after a wake: a source is to be acquired again (R322, R326). -/
def State.syncAfterWake (s : State) : State :=
  s.setSync (if s.ngl.kept && (s.syncState = 0 || s.syncState = 4) then 0 else 1)

/-- Every channel and speed index is written v = 0, QUAL INIT (R517 step 3). -/
def State.fieldInit (s : State) : State :=
  (s.each (List.range 224) fun x i => x.devWrite i 0 .init).each (List.range 192) fun x n => x.modCh n fun c => { c with word := (0, .init) }

/-- The wake sequence (R517). `cause`: 1 command, 2 RTC alarm, 3 vigil; `field`: what the field wake check finds. The count at the restart
of Meridian, and WAKE_TIME, lie within the spec's bounds and are else open (log 6). -/
def State.wake (s : State) (cause input : Nat) (field : FieldFind) : State :=
  let n1 := (s.rtcNow + s.freeVal.toNat % 18) % 2 ^ 48
  let t := s.useFree.freeVal.toNat % 541
  let s1 := s.useFree.useFree.modDev fun d => { d with pllLocked := true }
  let s2 := (s1.makeUp n1).rtcSet n1
  let s3 := (((s2.wrN rSup_DORM_STAT (3 + 256 * cause + 1024 * input)).wrN rSup_WAKE_TIME t).modNgl fun n => { n with armed := false })
  let s4 := s3.syncAfterWake.modNet fun x => { x with
    ivHold := true
    ptpAt := s3.now
    ptp := [] }
  let s5 := (s4.setMode .sync).fieldInit.nglReady
  let s6 := s5.fieldCheck field
  if fieldOk field then s6.tryOperate else (s6.raise0 69).safeState 69 1

/-- A write of DORM_CMD.WAKE in DORMANT (R514): the authenticated command of R18, or ignored and recorded. -/
def State.wakeCmd (s : State) (m : Master) (field : FieldFind) : State :=
  if s.holdsMA m then s.wake 1 0 field else s.wrN rSup_DORM_STAT (2 + 16 * 4)

/-- The WAKE write arrives `dt` counts after the last event of Nightglass; outside DORMANT it has no effect. -/
def execDormantWakeCmd (m : Master) (dt : BitVec 32) (field : FieldFind) (s : State) : Host.Outcome State Fault Refusal :=
  done (if s.modeIs .dormant then (s.rtcSet (s.rtcNow + dt.toNat)).wakeCmd m field else s)

/-- The RTC alarm of a DORMANT device whose request armed it, and whose count has not passed it (R18, R514). -/
def execRtcAlarm (field : FieldFind) (s : State) : Host.Outcome State Fault Refusal :=
  done (if s.modeIs .dormant && s.ngl.armed && s.rtcNow ≤ s.rtcAlarmAt then (s.rtcSet s.rtcAlarmAt).wake 2 0 field else s)

/-! Vigil inputs (R521 to R523) -/

/-- VG_CFG.EN of an input. -/
def State.vgEn (s : State) (k : Nat) : Bool := s.bit rNgl_VG_CFG k

/-- What a contact reads: 0 open, 1 closed, 2 between the two limits: as before (R521). -/
def vgReads (c : Fin 3) (old : Bool) : Bool :=
  match c with
  | 0 => false
  | 1 => true
  | _ => old

/-- A registered change of an input (R521, R522). -/
def State.vgChange (s : State) (k : Nat) (closed : Bool) : State :=
  let alarm := !s.dev.vlogValid || !(s.modeIs .operate || s.modeIs .harebell)
  let bit : BitVec 4 := 1#4 <<< k
  let s1 := s.modNgl fun n => { n with level := if closed then n.level ||| bit else n.level &&& ~~~ bit }
  let s2 := if alarm then (s1.blPut (if closed then 2 else 1) k true).modNgl fun n => { n with alarm := n.alarm ||| bit } else s1
  s2.when s.dev.vlogValid fun x => x.opEvent 1080 none (k + 256 * b2n closed + 65536 * x.rtcNow)

/-- The enabled inputs that a sample finds changed. -/
def State.vgChanged (s : State) (c : Nat → Fin 3) : List Nat :=
  (List.range 4).filter fun k => s.vgEn k && vgReads (c k) (s.ngl.level.getLsbD k) ≠ s.ngl.level.getLsbD k

/-- A sample, every 250 ms on the Nightglass clock; a change wakes a DORMANT device (R18, R521). -/
def State.vgSample (s : State) (c : Nat → Fin 3) (field : FieldFind) : State :=
  let s1 := s.rtcTo ((s.rtcNow / 8192 + 1) * 8192)
  let ks := s1.vgChanged c
  let s2 := s1.each ks fun x k => x.vgChange k (vgReads (c k) (s1.ngl.level.getLsbD k))
  match ks with
  | k :: _ => if s.modeIs .dormant && s.dev.vlogValid then s2.wake 3 k field else s2
  | [] => s2

def execVigilSample (c0 c1 c2 c3 : Fin 3) (field : FieldFind) (s : State) : Host.Outcome State Fault Refusal :=
  done (s.vgSample (fun k => match k with
    | 0 => c0
    | 1 => c1
    | 2 => c2
    | _ => c3) field)

/-- A write of VG_ACK: MAINT alone, and only while the input reads closed; the bit clears once its change-log entry stands (R523). -/
def State.vgAckWrite (s : State) (m : Master) (v : Nat) : State :=
  s.each ((List.range 4).filter (natBit v)) fun x k =>
    if x.ngl.level.getLsbD k then x.clogGuard (x.clogRole m) 0 (masterNum m) 0xA0 k [] (.vgAck k)
    else x.clogNote (x.clogRole m) 0 (masterNum m) 1 0xA0 k []

def execVgAck (m : Master) (v : BitVec 4) (s : State) : Host.Outcome State Fault Refusal :=
  done (s.cmdWrite m rNgl_VG_ACK (fun x => x.holdsMaint m) fun x => x.vgAckWrite m v.toNat)

/-- The entry stands: the alarm bit clears, if the input still reads closed (R523). -/
def State.vgAcked (s : State) (k : Nat) : State :=
  if s.ngl.level.getLsbD k then s.modNgl fun n => { n with alarm := n.alarm &&& ~~~ (1#4 <<< k) } else s

/-! The crystal and the count (R519, R520) -/

/-- The load of the count from Meridian, on lock and every hour (R520). -/
def State.rtcLoad (s : State) : State :=
  let c := s.now * 32768 / 100000000 % 2 ^ 48
  let old := s.rtcNow
  let moved := 32768 ≤ (if c ≤ old then old - c else c - old)
  let s1 := (s.rtcSet c).modNgl fun n => { n with valid := true, kept := true }
  s1.when moved fun x => x.blPut 6 0 false

def execRtcLoad (s : State) : Host.Outcome State Fault Refusal :=
  done (if s.synced && s.tbRuns then s.rtcLoad else s)

/-- NGL_XTAL: the count is not kept until the next load (R520). -/
def State.xtalBad (s : State) : State :=
  (s.modNgl fun n => { n with xtalOk := false, kept := false }).when (s.dev.vlogValid && s.ngl.xtalOk) fun x => x.raise0 79

/-- The crystal measured against CLK_TB over 10 s, in ppm (R520). -/
def execXtalMeasure (ppm : BitVec 16) (s : State) : Host.Outcome State Fault Refusal :=
  done (
    if !s.tbRuns then s
    else
      let s1 := (s.advanceTo (s.nextMultiple 1000000000)).wrN rNgl_XTAL_PPM ppm.toNat
      if 500 < ppm.toInt.natAbs then s1.xtalBad else s1.modNgl fun n => { n with xtalOk := true })

/-- The oscillator monitor finds the crystal stopped (R520). -/
def execXtalStop (s : State) : Host.Outcome State Fault Refusal := done s.xtalBad

/-- Below 2.2 V with VLOG absent the count is lost (R519). -/
def execNglCountLost (s : State) : Host.Outcome State Fault Refusal :=
  done (if s.dev.vlogValid then s
    else (s.useFree.rtcSet s.freeVal.toNat).modNgl fun n => { n with valid := false, kept := false })

/-! Supply monitors (R510) -/

/-- VLOG has been outside 10.8 to 13.2 V, or inside it, for 1 ms: `mv` millivolts. -/
def State.vlogRange (s : State) (mv : Nat) : State :=
  let low := decide (mv < 10800)
  let high := decide (13200 < mv)
  let s1 := s.wrN rSup_V_VLOG mv
  let s2 := (s1.when (low && !s.bit rSup_SUP_STAT 1) fun x => x.raise0 64).when (high && !s.bit rSup_SUP_STAT 2) fun x => x.raise0 65
  (s2.setBit rSup_SUP_STAT 1 low).setBit rSup_SUP_STAT 2 high

def execVlogOutOfRange (mv : BitVec 16) (s : State) : Host.Outcome State Fault Refusal :=
  done (if s.dev.vlogValid then s.vlogRange mv.toNat else s)

/-- VBAK as sampled every 10 s; with VLOG absent nothing samples it. -/
def State.vbakSample (s : State) (mv : Nat) : State :=
  let low := decide (mv < 2600)
  let was := s.ngl.vbakSeen && !s.bit rSup_SUP_STAT 3
  let s1 := ((s.wrN rSup_V_VBAK mv).modNgl fun n => { n with vbakSeen := true }).setBit rSup_SUP_STAT 3 (!low)
  s1.when (low && !was) fun x => (x.raise0 66).blPut 5 0 false

def execVbakSample (mv : BitVec 16) (s : State) : Host.Outcome State Fault Refusal :=
  done (if s.dev.vlogValid then (s.advanceTo (s.nextMultiple 1000000000)).vbakSample mv.toNat else s)

/-- VBAK below 2.0 V while VLOG is valid. -/
def execVbakAbsent (mv : Fin 2000) (s : State) : Host.Outcome State Fault Refusal :=
  let was := s.ngl.vbakSeen && decide (s.fld rSup_V_VBAK 0 16 < 2000)
  done (if s.dev.vlogValid then
      ((s.wrN rSup_V_VBAK mv.val).modNgl fun n => { n with vbakSeen := true }).when (!was) fun x => x.raise0 67
    else s)

/-- The die temperature, 0.1 °C, held for 10 ms; above 125 °C TEMP_HIGH. -/
def State.dieTemp (s : State) (t : Int) : State :=
  let high := decide (1250 < t)
  let s1 := (s.wrN rSup_T_DIE (ofSigned 16 t)).wrN rSup_T_DIE_MAX (ofSigned 16 (max t (asSigned 16 (s.fld rSup_T_DIE_MAX 0 16))))
  (s1.when (high && !s.bit rSup_SUP_STAT 4) fun x => x.raise0 68).setBit rSup_SUP_STAT 4 high

def execTempHigh (t : BitVec 16) (s : State) : Host.Outcome State Fault Refusal :=
  done (if s.dev.vlogValid then s.dieTemp t.toInt else s)

/-! Gating (R31, R32, R512) -/

/-- May the block of a page power-gate now (R512)? -/
def State.mayPowerGate (s : State) (pg : Nat) : Bool :=
  match pageBlock pg with
  | some (.pair, n) => !s.anyEntry n (fun _ => true)
  | some (.port, p) => !s.bit (rPort_PT_CFG p) 0
  | some (.lane, l) => !(lanePort l).any fun p => s.bit (rPort_PT_CFG p) 0
  | some (.eth, k) => !s.ethOn k
  | some (.bank, b) => allBelow 8 fun c => !(s.isAi (8 * b + c) || s.role (8 * b + c) = 13 || s.role (8 * b + c) = 14)
  | some (.xfer, _) => s.fld rXfer_XF_CTRL 0 4 = 0
  | some (.otp, _) => decide (3 ≤ s.fld rLcs_BOOT_STEP 0 4)
  | _ => false

/-- PM_CTRL.POLICY; 3 is AUTO (R31). -/
def State.pmPolicy (s : State) (pg : Nat) : Nat := s.fld (rPg_PM_CTRL pg) 0 2

/-- OFF_REFUSED: POLICY = OFF is set and not honoured (R31). -/
def State.offRefused (s : State) (pg : Nat) : Bool :=
  s.pmPolicy pg = 2 && (s.cfg.used.contains pg || !s.mayPowerGate pg)

/-- A block with no work for IDLE_DLY gates itself: power-gated where R512 lets it and `power` holds, else clock-gated. POLICY = OFF is
refused to a block the configuration uses, or that never power-gates: OFF_REFUSED shows it (R31). -/
def State.autoGate (s : State) (pg : Nat) (power : Bool) : State :=
  let may := s.mayPowerGate pg
  match s.pmPolicy pg with
  | 1 => s
  | 2 => if s.offRefused pg then s else s.setFld (rPg_PM_STAT pg) 0 2 2
  | _ => s.setFld (rPg_PM_STAT pg) 0 2 (if may && power then 2 else 1)

def execPmAutoGate (pg : Fin 448) (power : Bool) (s : State) : Host.Outcome State Fault Refusal :=
  done (if (pageBlock pg.val).isSome && !s.modeIs .dormant then s.autoGate pg.val power else s)

/-- A gated block wakes for work or an access; one that exceeds its wake time raises PM_WAKE_LATE. -/
def State.pmWake (s : State) (pg : Nat) (late : Bool) : State :=
  if s.fld (rPg_PM_STAT pg) 0 2 = 0 then s
  else (s.wakePage pg).when late fun x => x.raise 70 0 pg

def execPmWake (pg : Fin 448) (late : Bool) (s : State) : Host.Outcome State Fault Refusal :=
  done (if (pageBlock pg.val).isSome && !s.modeIs .dormant then s.pmWake pg.val late else s)

end Sys2Proof.Machine
end

