-- ==== Sys2Proof/Machine/Views.lean ====
section
/-! DEFINITION. What a read of a register returns (R5, R23, R30): the register file, and the registers that show state held
elsewhere. A view has no side effect; those of RC, RL and
RNG_DATA reads stand with the read commands. -/

namespace Sys2Proof.Machine

open Sys2Proof

/-- A number as a register. -/
def word (v : Nat) : Word := BitVec.ofNat 32 v

/-! The common page layout (R30, R31, R33) -/

/-- Where the last value a write applied stands for the registers that the device itself also changes, or that are banked (R33). -/
def lw (a : Nat) : Nat :=
  if a = rMap_DE_LO || a = rMap_DE_HI || a = rCfg_STG_OFF || a = rCfg_SESS_REQ || a = rCfg_FRC_SEL || a = rLog_HOST_RP
    || a = rKeys_KEY_RETIRE_LO || a = rKeys_KEY_RETIRE_HI then a + 0x20000000 else a

/-- What a register contributes to PG_CRC: the bits of its RW and RWL fields as last written (R33). -/
def State.crcWord (s : State) (a : Nat) (r : RegSpec) : List Byte := natLe 4 (s.rd (lw a) &&& (r.rw ||| r.rwl)).toNat

/-- PG_CRC (R33). -/
def State.pgCrc (s : State) (pg : Nat) : Word :=
  crc32c ((List.range 1024).flatMap fun i =>
    let a := 0x1000 * pg + 4 * i
    match regSpecAt a with
    | some r => if i ≠ 3 && (r.rw ||| r.rwl) ≠ 0 then s.crcWord a r else []
    | none => [])

/-- The live conditions of a page as bits of its EV_RAW (R37). -/
def State.evLive (s : State) (pg : Nat) : Nat :=
  bitMask 32 fun b => (List.range 1024).any fun n => evBit n = some (pg, b) && s.live n

/-- PG_STAT: READY of a block that is enabled, once start-up has made it ready; a live source of the block; the reading master's expert
privilege (R31). -/
def State.pgStat (s : State) (m : Option Master) (pg : Nat) : Word :=
  let fault := (List.range 1024).any fun n => srcPage n = pg && s.live n
  let x := match m with
    | some k => s.holdsExpert k
    | none => false
  let ready := s.bit (rPg_PG_CTRL pg) 0 && decide (s.fld rLcs_BOOT_STEP 0 4 = 10)
  setBits (setBits (setBits (s.rd (rPg_PG_STAT pg)) 0 1 (b2n ready)) 2 1 (b2n fault)) 3 1 (b2n x)

/-- INJ_STAT (R473). -/
def State.injStat (s : State) (m : Option Master) (pg : Nat) : Word :=
  let x := s.inj pg
  let armed := m.isSome && x.armedBy = m && s.now < x.armedUntil
  word (b2n armed + 2 * b2n x.hold.isSome + 4 * b2n x.done + 8 * x.result + 256 * x.count)

/-- EV_RAW of a TMR group: MATCH of its channels, and their TMR_FAULT conditions, CAPQ_OVF and OVF_LOST, as T_STAT holds them (R340, R342;
log 148). -/
def State.tmrRaw (s : State) (g : Nat) : Nat :=
  bitMask 32 fun b => if b < 16 then s.bit (rTmr_T_STAT (16 * g + b)) 4
    else s.fld (rTmr_T_STAT (16 * g + b - 16)) 6 2 ≠ 0

def State.viewCommon (s : State) (m : Option Master) (b : Block) (i pg o : Nat) : Word :=
  match o with
  | 0x00 => word (Block.pgType b + 65536 * i + 0x01000000)
  | 0x04 => 0x302
  | 0x10 => s.pgStat m pg
  | 0x14 => s.rd (rPg_EV_RAW pg) ||| word (s.evLive pg ||| if b = .tmr then s.tmrRaw i else 0)
  | 0x28 => setBits (s.rd (rPg_PM_STAT pg)) 4 1 (b2n (s.offRefused pg))
  | 0x34 => s.injStat m pg
  | 0x3C => s.pgCrc pg
  | _ => s.rd (0x1000 * pg + o)

/-! Selected and computed registers, block by block -/

/-- The half of a wide number a register shows. -/
def half (hi : Bool) (v : Nat) : Word := if hi then word (v / 2 ^ 32) else word v

/-- XQ_SIZE: other values read back as 4 (R47). -/
def clampLog2 (v : Word) : Word := if 4 ≤ natBits v.toNat 0 4 ∧ natBits v.toNat 0 4 ≤ 12 then v else setBits v 0 4 4

def State.viewXfer (s : State) (o : Nat) (v : Word) : Word :=
  let q n := Tab.get (fun _ => XqSt.reset) s.host.xq n
  if o = 0x44 then word (bitMask 4 (fun n => (q n).busy.isSome) + 256 * bitMask 4 (fun n => (q n).wait.isSome))
  else if 0x100 ≤ o && o % 0x20 = 8 then clampLog2 v else v

def State.viewEng (s : State) (o : Nat) (v : Word) : Word :=
  match o with
  | 0x40 => word s.engStat
  | 0x50 => word s.minor
  | _ => v

/-- The register a debugger has selected (R192, R194). -/
def State.dbgValue (s : State) (n : Nat) : Nat :=
  let u := 2 * n + (if s.cmode n = 4 && s.bit (rPair_DBG_SEL n) 8 then 1 else 0)
  let k := s.fld (rPair_DBG_SEL n) 0 6
  let c := s.core u
  if k < 32 then (Tab.get (fun _ => (0 : Csw)) c.ctx.c k).toNat
  else if k < 48 then (s.readP u (k - 32)).toNat
  else if k = 48 then c.pc else if k = 49 then c.ctx.flags.toNat else 0

def State.viewPair (s : State) (n o : Nat) (v : Word) : Word :=
  match o with
  | 0x44 =>
    let run u := (s.core u).inSlot
    if run (2 * n) then word (min (s.core (2 * n)).cyc 65535) else if run (2 * n + 1) then word (min (s.core (2 * n + 1)).cyc 65535) else v
  | 0x404 => setBits v 8 6 (if (s.pair n).replayAt = s.now then (s.pair n).replay.length else 0)
  | 0x41C => half false (s.dbgValue n)
  | 0x420 => half true (s.dbgValue n)
  | _ => v

/-- The bytes of a partition's program window in a bank of a core's program SRAM (R80, R82). -/
def State.windowBytes (s : State) (u p bank : Nat) : List Byte :=
  Mem.bytes s.mem.pgm (u * 0x100000 + bank * 0x80000 + 4 * s.fld (rPart_PGM_BASE p) 0 17) (4 * s.fld (rPart_PGM_SIZE p) 0 18)

/-- The same in its pair's main core. -/
def State.pgmBytes (s : State) (p bank : Nat) : List Byte := s.windowBytes (2 * s.ptPair p) p bank

/-- The CRC that the core running a partition keeps of its inactive window (R82). -/
def State.inactCrcOf (s : State) (u p : Nat) : Word := crc32c (s.windowBytes u p (1 - s.actBank p))

def State.viewPart (s : State) (p o : Nat) (v : Word) : Word :=
  match o with
  | 0x5C => setBits v 3 1 (b2n s.cfg.staging)
  | 0x64 => s.inactCrcOf (s.coreFor (s.ptPair p) p) p
  | _ => v

/-- The readable-as-signal list: page, register offset, width (R157, R159). -/
def rslEntry (i : Nat) : Option (Nat × Nat × Nat) :=
  if i = 0 then some (0x000, 0x40, 3)
  else if i = 1 then some (0x020, 0x40, 14)
  else if i = 2 then some (0x020, 0x50, 8)
  else if i = 3 then some (0x020, 0x54, 16)
  else if i < 8 then some (0x021 + (i - 4), 0x40, 16)
  else if i < 24 then some (0x028 + (i - 8), 0x44, 5)
  else if i = 24 then some (0x078, 0x40, 9)
  else none

def State.viewMap (s : State) (o : Nat) (v : Word) : Word :=
  if o = 0x40 then setBits (setBits v 2 1 (b2n s.cfg.staging)) 1 1 (b2n s.editBusy)
  else if 0x100 ≤ o && o < 0x200 then
    match rslEntry ((o - 0x100) / 4) with
    | some (pg, off, w) => word (pg + 512 * (off / 4) + 2 ^ 24 * (w - 1) + 2 ^ 31)
    | none => 0
  else v

/-- The Ephemeris page as read (R195). A scrub is one step, so EPH_STAT.SCRUB_BUSY reads 0 (log 126). -/
def State.viewEph (s : State) (o : Nat) (v : Word) : Word :=
  let p := s.fld rEph_REC_SEL 0 4
  match o with
  | 0x40 =>
    let buddy := if !s.bit rFab_FAB_CFG 21 then 0 else if s.buddyLost then 3
      else if !s.eng.resync.isEmpty || s.eng.mirOut.any (·.resync.isSome) then 1 else 2
    setBits (setBits v 16 2 buddy) 0 1 (b2n (!s.modeIs .boot && !s.modeIs .dormant))
  | 0x50 => word (s.part p).gen
  | 0x6C => word ((s.sf + 65536 - (s.part p).mirSf % 65536) % 65536)
  | _ => v

/-- The diagnostic view of a local index (R74): v, QUAL, CHECK_OK. A word that fails its check has no value: the v shown is a free
value (log 6). -/
def State.viewIndex (s : State) (idx : Nat) : Word :=
  let w := s.imgCsw (8 * idx) (s.selfId idx)
  let ok := cswValid (s.localA idx) w (s.selfId idx)
  let v := if ok then cswVal (s.localA idx) w (s.selfId idx) else natBits s.freeVal.toNat 0 16
  word (v + 65536 * Qual.code (cswQual w) + 2 ^ 20 * b2n ok)

def State.viewSpd (s : State) (u o : Nat) (v : Word) : Word :=
  match o with
  | 0x5C => s.viewIndex (192 + u)
  | 0x60 => word (ageAt s.sf (s.imgRd (8 * (192 + u))))
  | 0x74 => setBits v 0 3 (s.spd u).q.length
  | _ => v

/-- The sequence period P, ticks (R299): the match period of the timer that triggers it, or the sequence length. -/
def State.seqPeriod (s : State) (b : Nat) : Nat :=
  if s.bit (rBank_SEQ_CFG b) 0 then
    let t := s.fld (rBank_SEQ_CFG b) 1 6
    (s.tCmp t + 1) * 2 ^ s.tPsc t
  else s.seqTicks b

def State.viewCh (s : State) (n o : Nat) (v : Word) : Word :=
  match o with
  | 0x54 => setBits v 4 1 (b2n (s.armHeld n))
  | 0x58 => s.viewIndex n
  | 0x5C => word (ageAt s.sf (s.imgRd (8 * n)))
  | 0x134 => if s.isAi n then word ((s.seqPeriod (n / 8) + s.slotTicks n) / 100) else v
  | _ => v

def State.viewBank (s : State) (b o : Nat) (v : Word) : Word :=
  match o with
  | 0x104 => if s.seqUsed b then word (s.seqTicks b / 100) else v
  | 0x108 => if s.seqUsed b then word (s.seqPeriod b / 100) else v
  | _ => v

def State.viewMer (s : State) (o : Nat) (v : Word) : Word :=
  match o with
  | 0x40 => half false s.now
  | 0x44 => half true s.now
  | 0x48 => half false s.sf
  | 0x4C => half true s.sf
  | 0x5C => word (ofSigned 32 s.mer.slew)
  | 0x64 => setBits v 0 16 s.syncLim
  | _ => v

/-- T_STAT.STATE of a run state (R342). -/
def TimRun.code : TimRun → Nat
  | .idle => 0 | .running => 1 | .done => 2 | .frozen => 3

def State.viewTmr (s : State) (g o : Nat) (v : Word) : Word :=
  if o = 0x40 then word (bitMask 16 fun i => (s.timer (16 * g + i)).run = .running)
  else if o = 0x44 then word (bitMask 16 fun i => (s.timer (16 * g + i)).run = .done)
  else if o < 0x100 || 0x400 ≤ o then v
  else
    let t := 16 * g + (o - 0x100) / 0x30
    match (o - 0x100) % 0x30 with
    | 0x04 => word (s.tValue t)
    | 0x08 => if t < 47 && s.tChain (t + 1) then word (s.tValue (t + 1)) else 0
    | 0x18 => setBits (setBits v 0 2 (TimRun.code (s.timer t).run)) 10 3 (s.timer t).q.length
    | 0x1C => (s.timer t).q.headD 0
    | _ => v

/-- TOKEN_STAT of a partition (R375). -/
def State.tokenStat (s : State) (p : Nat) : Nat :=
  let mobile := s.bit (rPart_PT_CFG p) 1
  let mirror := s.bit rEph_MIR_RX_CFG p
  natBits (s.tok p).owner 0 12 + 4096 * b2n (s.tok p).held + 8192 * b2n (s.part p).suspended + 16384 * b2n mobile + 32768 * b2n mirror

/-- The entry TBL_SEL selects; zero past the table's end (R375). -/
def State.fabSelected (s : State) : Nat :=
  let e := s.fld rFab_TBL_SEL 4 14
  let t := s.fld rFab_TBL_SEL 0 2
  if e < s.fabCount t then s.fabEntry t e else 0

def State.viewFab (s : State) (o : Nat) (v : Word) : Word :=
  match o with
  | 0x5C => word (s.fabCount 1 + s.fabCount 3 + 65536 * s.fabCount 2)
  | 0x78 => word (s.tok (s.fld rFab_TOKEN_SEL 0 4)).epoch
  | 0x7C => word (s.tokenStat (s.fld rFab_TOKEN_SEL 0 4))
  | 0x8C => half false s.fabSelected
  | 0x90 => half true s.fabSelected
  | _ => v

/-- The entry of the safe-frame tables that TBL_SEL selects (R399). -/
def State.safeSelected (s : State) : Nat :=
  let e := s.fld rSafe_TBL_SEL 4 13
  let t := s.fld rSafe_TBL_SEL 0 1
  if e < Tab.get (fun _ => 0) s.net.tblCnt t then s.safeEntry (8192 * t + e) else 0

/-- How many connections a condition holds for. -/
def State.connCount (s : State) (f : Conn → Bool) : Nat := ((List.range 64).filter fun c => f (s.conn c)).length

def State.viewSafe (s : State) (o : Nat) (v : Word) : Word :=
  let c := s.fld rSafe_CONN_SEL 0 6
  let x := s.conn c
  match o with
  | 0x44 => word (s.connCount (fun y => y.st = 2) + 65536 * s.connCount (fun y => y.st = 3 || y.st = 4))
  | 0x64 => x.cfg
  | 0x68 => word x.id
  | 0x6C => word x.wd
  | 0x70 => word (x.st + 16 * s.connWords c + 65536 * b2n x.lastKsel + 131072 * b2n x.lastPath)
  | 0x74 => word x.seqL
  | 0x78 => half false x.tsL
  | 0x7C => half true x.tsL
  | 0x80 => word x.lastEpoch
  | 0x84 => word x.gap
  | 0x88 => word x.dup
  | 0x8C => word x.old
  | 0x90 => word (x.auth0 + 65536 * x.auth1)
  | 0x94 => word (x.crc0 + 65536 * x.crc1)
  | 0xA4 => half false s.safeSelected
  | 0xA8 => half true s.safeSelected
  | _ => v

/-- ETH_STAT shows the PTP state (R398). -/
def State.viewPtp (s : State) (k : Nat) (v : Word) : Word := setBits v 2 3 (s.ptpState k)

/-- KEY_STAT.STATE of a slot: empty, pending, in use, receive only (R392, R400). -/
def State.keyState (s : State) (o k : Nat) : Nat :=
  let x := s.keySlot o k
  if !x.present then 0 else if s.now < x.start then 1 else if s.txSlot o = some k then 2 else 3

/-- The key check value (R393). -/
def kcv (x : KeySlot) : Nat :=
  if x.present then natBits (Config.gmacTag x.key (List.replicate 12 0) (List.replicate 16 0)).toNat 0 24 else 0

def State.viewKeys (s : State) (o : Nat) (v : Word) : Word :=
  match o with
  | 0x6C => word (s.keyState s.keyOwner s.keyIdx + 4 * natBits v.toNat 2 3 + 256 * kcv (s.keySlot s.keyOwner s.keyIdx))
  | 0x70 => word (s.keySlot s.keyOwner s.keyIdx).epoch
  | _ => v

def State.viewLcs (s : State) (o : Nat) (v : Word) : Word :=
  if 0x60 ≤ o && o < 0x78 then
    let lp := Tab.get (fun _ => 0) s.lcs.lastPass ((o - 0x60) / 4)
    setBits v 0 24 (if lp = 0 then 0xFFFFFF else min ((s.now + 1 - lp) / 100000000) 0xFFFFFF)
  else v

/-- The change-log entry whose SEQ CLOG_SEL names; zero where the ring no longer holds it (R448, R451). -/
def State.clogShown (s : State) (i : Nat) : Word :=
  let q := (s.rd rCfg_CLOG_SEL).toNat
  if Mem.w32 s.mem.clog (64 * (q % 4096)) = word q then Mem.w32 s.mem.clog (64 * (q % 4096) + 4 * i) else 0

def State.viewCfg (s : State) (m : Option Master) (o : Nat) (v : Word) : Word :=
  let a := 0x7C000 + o
  if isBanked a then
    match m with
    | some k =>
      let w := s.rd (bk k a)
      if o = 0xA8 then
        setBits (setBits w 0 1 (b2n ((s.sess k).role ≠ 0))) 16 16
          (if (s.sess k).role = 0 then 0 else ((s.sess k).lastWr + 90000000000 - s.now) / 100000000)
      else w
    | none => 0
  else match o with
    | 0x40 => word (b2n s.cfg.staging + 2 * b2n s.cfg.checked + 4 * b2n s.cfg.yesAt.isSome + 8 * b2n s.cfg.switchT.isSome
        + 16 * b2n (s.cfg.unchainedBefore ≠ 0))
    | 0x118 => match m with
      | some k => setBits v 8 6 (s.part (s.fld (bk k rCfg_FRC_SEL) 0 4)).forces.length
      | none => v
    | _ => if 0x140 ≤ o && o < 0x180 then s.clogShown ((o - 0x140) / 4) else v

def State.viewFlt0 (s : State) (o : Nat) (v : Word) : Word :=
  match o with
  | 0x40 => word (s.topClass + 8 * b2n s.liveList.isEmpty + 16 * b2n s.flt.safeLine + 32 * b2n s.flt.shadowOk
      + 64 * b2n (s.modeIs .harebell) + 128 * b2n s.flt.degradePend + 256 * s.flt.pairOff.toNat)
  | 0x58 => word (bitMask 18 fun k => s.alm k = .alarm)
  | _ => v

def State.viewFlt1 (s : State) (o : Nat) (v : Word) : Word :=
  if o = 0x40 then word (bitMask 32 fun k => s.rd (rFlt1_STICKY k) ≠ 0)
  else if 0x180 ≤ o && o < 0x200 then word (bitMask 32 fun i => s.live (8 * (o - 0x180) + i))
  else if 0x280 ≤ o && o < 0x300 then
    word (bitMask 32 fun i => escShown (s.pol (8 * (o - 0x280) + i)) s.now (s.fcnt (8 * (o - 0x280) + i)))
  else v

def State.viewFlt2 (s : State) (o : Nat) (v : Word) : Word :=
  let n := s.fld rFlt2_CNT_SEL 0 10
  let c := s.fcnt n
  match o with
  | 0x44 => word (c.wcnt + 256 * b2n (escShown (s.pol n) s.now c))
  | 0x48 => half false c.ws
  | 0x4C => half true c.ws
  | 0x54 => word c.total
  | _ => v

def State.viewFlt3 (s : State) (o : Nat) (v : Word) : Word :=
  let n := s.fld rFlt3_POL_SEL 0 10
  let cap (x : BitVec 64) : Nat := setBits x 59 1 (b2n (liveCap n)) |>.toNat
  match o with
  | 0x44 => half false (cap (s.pol n))
  | 0x48 => half true (cap (s.pol n))
  | 0x4C => half false (cap (defPol n))
  | 0x50 => half true (cap (defPol n))
  | _ => v

def State.viewLog (s : State) (o : Nat) (v : Word) : Word :=
  match o with
  | 0x44 => word (s.log.fill + 2 ^ 18 * b2n (!s.logAdmits 1) + 2 ^ 20 * s.log.coal.length)
  | _ => v

def State.viewEvt (s : State) (o : Nat) (v : Word) : Word :=
  match o with
  | 0x40 => word (b2n s.intN)
  | 0x48 => (s.route (s.fld rEvt_RT_SEL 0 11)).setWidth 32
  | 0x58 => word (bitMask 32 fun k => s.rd (rEvt_PEND k) ≠ 0)
  | 0x5C => word (bitMask 16 fun k => s.rd (rEvt_PEND (32 + k)) ≠ 0)
  | _ => v

/-- The least margin of a sensor in the last 24 h. -/
def State.least24 (s : State) (code i : Nat) : Option Int :=
  minInt (s.vern.hrs.filterMap fun t => Tab.get (fun _ => none) t (senKey code i))

/-- A margin in a sensor's own units: picoseconds for the canaries and oscillators, whose margins are held in halves. -/
def ownUnits (code : Nat) (m : Option Int) : Nat :=
  ofSigned 16 (match m with
    | some x => if code ≤ 1 then x / 2 else x
    | none => 0)

def State.viewVern (s : State) (o : Nat) (v : Word) : Word :=
  let c := s.fld rVern_SEL 0 4
  let i := s.fld rVern_SEL 4 8
  match o with
  | 0x5C => word (ownUnits c (s.margin c i) + 65536 * ownUnits c (s.least24 c i))
  | 0x60 => word (daysReg (s.proj c i s.gMin))
  | _ => v

/-- Pages whose PM_STAT shows a state. -/
def State.pmCount (s : State) (k : Nat) : Nat := (allPages.filter fun pg => s.fld (rPg_PM_STAT pg) 0 2 = k).length

def State.viewSup (s : State) (o : Nat) (v : Word) : Word :=
  match o with
  | 0x40 => setBits v 0 1 (b2n s.dev.vlogValid)
  | 0x68 => word (s.pmCount 1 + 65536 * s.pmCount 2)
  | _ => v

def State.viewNgl (s : State) (o : Nat) (v : Word) : Word :=
  let g := s.ngl
  let e := (Tab.get (fun _ => (0 : BitVec 64)) g.log (s.fld rNgl_BL_SEL 0 6)).toNat
  match o with
  | 0x40 => word (b2n g.valid + 2 * b2n g.kept + 4 * b2n (!s.dev.vlogValid) + 8 * b2n g.xtalOk + 16 * g.level.toNat
      + 256 * g.alarm.toNat + 4096 * s.fld rNgl_VG_CFG 0 4)
  | 0x44 => half false s.rtcNow
  | 0x48 => half true s.rtcNow
  | 0x5C => word (g.head + 256 * g.held + 65536 * g.overwr)
  | 0x64 => half false e
  | 0x68 => half true e
  | 0x6C => word g.imp
  | _ => v

/-- SYS: DEV_STAT.MODE, at the first register after the common layout (R15, R157; log 57). -/
def State.viewSys (s : State) (o : Nat) (v : Word) : Word := if o = 0x40 then word (DevMode.code s.dev.mode) else v

/-- A block's registers from 0x040 on. -/
def State.viewBlock (s : State) (m : Option Master) (b : Block) (i o : Nat) (v : Word) : Word :=
  match b with
  | .sys => s.viewSys o v
  | .eth => if o = 0x54 then s.viewPtp i v else v
  | .clk | .otp | .port | .lane | .host => v
  | .rng => if o = 0x44 then 0 else v
  | .lcs => s.viewLcs o v
  | .vern => s.viewVern o v
  | .flt0 => s.viewFlt0 o v
  | .flt1 => s.viewFlt1 o v
  | .flt2 => s.viewFlt2 o v
  | .flt3 => s.viewFlt3 o v
  | .log => s.viewLog o v
  | .evt => s.viewEvt o v
  | .ngl => s.viewNgl o v
  | .sup => s.viewSup o v
  | .xfer => s.viewXfer o v
  | .mer => s.viewMer o v
  | .tmr => s.viewTmr i o v
  | .eng => s.viewEng o v
  | .pair => s.viewPair i o v
  | .part => s.viewPart i o v
  | .map => s.viewMap o v
  | .eph => s.viewEph o v
  | .fab => s.viewFab o v
  | .safe => s.viewSafe o v
  | .keys => s.viewKeys o v
  | .cfg => s.viewCfg m o v
  | .bank => s.viewBank i o v
  | .spd => s.viewSpd i o v
  | .ch => s.viewCh i o v

/-- What a read of the 4-aligned BAR0 offset `a` returns, without its side effect: a WO register and a place without a register read
as zero (R5, R6). `m` is the reading master; none: XFER. -/
def State.view (s : State) (m : Option Master) (a : Nat) : Word :=
  match pageBlock (a / 0x1000), regSpecAt a with
  | some (b, i), some r =>
    if r.wo then 0
    else if a % 0x1000 < 0x40 then s.viewCommon m b i (a / 0x1000) (a % 0x1000)
    else s.viewBlock m b i (a % 0x1000) (s.rd a)
  | _, _ => 0

/-! The LED drives on J5 (R543) -/

/-- Drive of an LED pin: sinking, or sinking half of every half second. -/
inductive Led where
  | off | on | flash
deriving DecidableEq, Repr

/-- The code of LED_0..3: the step of R401 in progress, or the mode. -/
def State.ledCode (s : State) : Nat :=
  if !s.dev.vlogValid then 0
  else match s.dev.mode with
    | .boot => if s.lcs.retry then min 10 (s.fld rLcs_BOOT_STEP 0 4 + 1) else 1
    | .selftest => min 10 (s.fld rLcs_BOOT_STEP 0 4 + 1)
    | .sync => 0xB
    | .operate => 0xC
    | .harebell => 0xD
    | .halted => 0xE
    | .dormant => 0xF

/-- The drive of LED_k, none without VLOG: the code, flashing while BOOT retries a step; any partition in RUN; a live condition. -/
def State.led (s : State) (k : Nat) : Led :=
  let on (b : Bool) : Led := if b then .on else .off
  if !s.dev.vlogValid then .off
  else if k < 4 then
    if !natBit s.ledCode k then .off else if s.modeIs .boot && s.lcs.retry then .flash else .on
  else if k = 4 then on (anyBelow 16 fun p => s.ptMode p = 1)
  else if k = 5 then on (!s.liveList.isEmpty)
  else .off

/-- Is the register at `a` the low half of a wide value (R40)? -/
def isLow (a : Nat) : Bool :=
  match regSpecAt a with
  | some r => r.rl
  | none => false

end Sys2Proof.Machine
end

