-- ==== Sys2Proof/Machine/Xfer.lean ====
section
/-! DEFINITION. XFER (R46 to R51) and the PCI Express link (R45, R53). -/

namespace Sys2Proof.Machine

open Sys2Proof

def State.xq (s : State) (q : Nat) : XqSt := Tab.get (fun _ => XqSt.reset) s.host.xq q
def State.modXq (s : State) (q : Nat) (f : XqSt → XqSt) : State :=
  s.modHost fun h => { h with xq := Tab.modify (fun _ => XqSt.reset) h.xq q f }

/-- Descriptors in the ring: 2^LOG2 (R46, R47). -/
def State.xqRing (s : State) (q : Nat) : Nat := 2 ^ natBits (clampLog2 (s.rd (rXfer_XQ_SIZE q))).toNat 0 4

/-- Posted descriptors: TAIL − HEAD (R46). -/
def State.xqHeld (s : State) (q : Nat) : Nat :=
  (s.fld (rXfer_XQ_TAIL q) 0 13 + 8192 - s.fld (rXfer_XQ_HEAD q) 0 13) % 8192

/-- The host posts descriptors (R46). -/
def State.xqTail (s : State) (q : Nat) (v : Word) : State :=
  let n := (natBits v.toNat 0 13 + 8192 - s.fld (rXfer_XQ_HEAD q) 0 13) % 8192
  if s.xqRing q < n then s.raise0 937 else s.wrN (rXfer_XQ_TAIL q) (natBits v.toNat 0 13)

def execXqTailWrite (m : Master) (q : Fin 4) (v : BitVec 32) (s : State) : Host.Outcome State Fault Refusal :=
  done (s.regCmd m (rXfer_XQ_TAIL q.val) fun x => x.xqTail q.val v)

/-- A 32-bit write of XQ_SIZE, XQ_BASE_LO (staged, R42) or XQ_BASE_HI, ignored while a descriptor is posted (R46). -/
def State.xqConfig (s : State) (m : Master) (q : Nat) (reg : Nat) (v : Word) : State :=
  let lo := rXfer_XQ_BASE_LO q
  if s.xqHeld q ≠ 0 then s.raise0 937
  else match reg with
    | 0 => s.wrN (rXfer_XQ_SIZE q) (natBits v.toNat 0 4)
    | 1 => s.modMaster m fun x => { x with staged := some (lo, v) }
    | _ =>
      let s1 := match s.stagedFor m (lo + 4) with
        | some w => s.wr lo w
        | none => s
      (s1.wr (lo + 4) v).modMaster m fun x => { x with staged := none }

/-- Register 0 XQ_SIZE, 1 XQ_BASE_LO, 2 XQ_BASE_HI of a queue. -/
def xqReg (q reg : Nat) : Nat := match reg with
  | 0 => rXfer_XQ_SIZE q
  | 1 => rXfer_XQ_BASE_LO q
  | _ => rXfer_XQ_BASE_HI q

def execXqConfigWrite (m : Master) (q : Fin 4) (reg : Fin 3) (v : BitVec 32) (s : State) : Host.Outcome State Fault Refusal :=
  done (s.regCmd m (xqReg q.val reg.val) fun x => x.xqConfig m q.val reg.val v)

/-- A write of XF_CTRL: a queue whose QEN clears stops; a descriptor that only waits has not begun (R50; log 58). -/
def State.xfCtrl (s : State) (v : Word) : State :=
  (s.wrN rXfer_XF_CTRL (natBits v.toNat 0 4)).each (List.range 4) fun x q =>
    if natBit v.toNat q then x else x.modXq q fun y => { y with wait := none }

def execXfQenClear (m : Master) (q : Fin 4) (s : State) : Host.Outcome State Fault Refusal :=
  done (s.regCmd m rXfer_XF_CTRL fun x => x.xfCtrl (setBits (x.rd rXfer_XF_CTRL) q.val 1 0))

/-! A descriptor (R48) -/

def descOp (d : Desc) : Nat := natBits d.ctrl.toNat 0 3
def descIrq (d : Desc) : Bool := d.ctrl.getLsbD 3
def descTrig (d : Desc) : Bool := d.ctrl.getLsbD 4
def descTmr (d : Desc) : Nat := natBits d.ctrl.toNat 5 6

/-- The format check: reserved codes and bits, LEN and alignment. -/
def descFormatOk (d : Desc) : Bool :=
  decide ((descOp d) ≤ 2) && decide (natBits d.ctrl.toNat 11 21 = 0) && (!descTrig d || decide ((descTmr d) < 48)) && d.zero = 0
  && decide (d.len.toNat % 8 = 0) && decide (8 ≤ d.len.toNat) && decide (d.len.toNat ≤ 65536)
  && decide (d.src.toNat % 8 = 0) && decide (d.dst.toNat % 8 = 0)

/-- Bytes of the memory that OP names. -/
def descRoom (d : Desc) : Nat := match descOp d with
  | 0 => 0x200000
  | 1 => 0x400000
  | _ => 0x10000000

/-- The range check: SRC and LEN within the memory that OP names. -/
def descRangeOk (d : Desc) : Bool := decide (d.src.toNat + d.len.toNat ≤ (descRoom d))

/-- The bytes a copy moves, in 8-byte units, without side effect (R51): a register copy does not wake a gated block, though R32 has an
access wake it (log 159). -/
def State.xferBytes (s : State) (d : Desc) : List Byte :=
  match descOp d with
  | 0 => Mem.bytes s.mem.img d.src.toNat d.len.toNat
  | 1 => Mem.bytes s.mem.logm d.src.toNat d.len.toNat
  | _ => (List.range (d.len.toNat / 4)).flatMap fun i => natLe 4 (s.view none (d.src.toNat + 4 * i)).toNat

/-- A descriptor ends: RESULT and TSTAMP are written back, XQ_HEAD moves on, XQ_DONE counts, and IRQ raises the queue's completion
event (R48, R50). -/
def State.xqEnd (s : State) (q : Nat) (d : Desc) (code tstamp : Nat) : State :=
  let h := s.fld (rXfer_XQ_HEAD q) 0 13
  let at_ := s.rd64 (rXfer_XQ_BASE_LO q) + 32 * (h % s.xqRing q)
  let s1 := s.emit (.dma (at_ + 24) (natLe 4 (1 + 2 * code) ++ natLe 4 tstamp))
  let s2 := ((s1.wrN (rXfer_XQ_HEAD q) ((h + 1) % 8192)).bump (rXfer_XQ_DONE q)).modXq q fun x => { x with busy := none, wait := none }
  s2.when (descIrq d) fun x => x.opEvent (1064 + q) none h

/-- May XFER master the bus: a link that is up and Bus Master Enable, outside DORMANT (R26, R516)? -/
def State.xferOn (s : State) : Bool := s.bit rHost_LINK_STAT 0 && s.bit rHost_LINK_STAT 8 && !s.modeIs .dormant

/-- Match triggers a timer has issued. -/
def State.fired (s : State) (t : Nat) : Nat := (s.timer t).fired

/-- A copy begins. -/
def State.xqBegin (s : State) (q : Nat) (d : Desc) (seen : Nat) : State :=
  s.modXq q fun x => { x with busy := some (d, s.now, seen), wait := none }

/-- The descriptor at the head starts; with TRIG = 1 it waits for the next match trigger after it reached the head (R49). `d` is what
XFER fetches from the ring; a descriptor that waits has been fetched. With PG_CTRL.EN = 0 the block is idle (R31). -/
def State.xqStart (s : State) (q : Nat) (d : Desc) : State :=
  if !s.bit (rPg_PG_CTRL 0x014) 0 || !s.bit rXfer_XF_CTRL q || (s.xq q).busy.isSome || s.xqHeld q = 0 || !s.xferOn then s
  else match (s.xq q).wait with
    | some (w, seen) => if seen < s.fired (descTmr w) then s.xqBegin q w (seen + 1) else s
    | none =>
      if !descFormatOk d then (s.raise0 936).xqEnd q d 1 s.now
      else if !descRangeOk d then (s.raise0 937).xqEnd q d 1 s.now
      else if descTrig d then s.modXq q fun x => { x with wait := some (d, s.fired (descTmr d)) }
      else s.xqBegin q d (s.fired (descTmr d))

def execXferDescStart (q : Fin 4) (d : Desc) (s : State) : Host.Outcome State Fault Refusal := done (s.xqStart q.val d)

/-- A copy ends (R48, R49): its bytes stand in host memory; a second trigger since it began is an overrun. A copy does not go on
while XFER may not master the bus (R26). -/
def State.xqDone (s : State) (q : Nat) : State :=
  match (s.xq q).busy with
  | some (d, t, seen) =>
    if !s.xferOn then s else
    let above := (descTrig d) && decide (seen < s.fired (descTmr d))
    let s1 := (s.emit (.dma d.dst.toNat (s.xferBytes d))).when above fun x => x.raise0 939
    s1.xqEnd q d (if above then 3 else 0) t
  | none => s

def execXferCopyDone (q : Fin 4) (s : State) : Host.Outcome State Fault Refusal := done (s.xqDone q.val)

/-- A PCIe error: during the copy of queue `q`, after `n` bytes, which does not go on while XFER may not master the bus (R26); or, with no
queue, of an MSI-X write (R50, R53). -/
def State.xferErr (s : State) (q : Option (Fin 4)) (n : Nat) : State :=
  match q with
  | none => s.raise0 938
  | some k =>
    match (s.xq k.val).busy with
    | some (d, t, _) => if !s.xferOn then s else ((s.emit (.dma d.dst.toNat ((s.xferBytes d).take n))).raise0 938).xqEnd k.val d 2 t
    | none => s

def execXferPcieErr (q : Option (Fin 4)) (n : BitVec 16) (s : State) : Host.Outcome State Fault Refusal :=
  done (s.xferErr q n.toNat)

/-! The link (R45, R53) -/

def execPcieLinkUp (speed : Fin 3) (width : Fin 2) (s : State) : Host.Outcome State Fault Refusal :=
  done (((s.setFld rHost_LINK_STAT 0 8 (1 + 2 * (speed.val + 1) + 16 * (width.val + 1)))).modHost fun h => { h with wasUp := true })

def execPcieLinkDown (s : State) : Host.Outcome State Fault Refusal :=
  done (if s.bit rHost_LINK_STAT 0 then (s.setFld rHost_LINK_STAT 0 8 0).raise0 947 else s)

def execPcieUncorr (s : State) : Host.Outcome State Fault Refusal := done (s.raise0 948)

end Sys2Proof.Machine
end

