-- ==== Sys2Proof/Machine/Image.lean ====
section
/-! DEFINITION. An Almanac image in flash (R439 to R441): header, section directory, trailer, sections, register records; the
checks of format, signature, target, level and version (R442). `b` is the flash address of the copy. -/

namespace Sys2Proof.Machine

open Sys2Proof

/-- A little-endian number of `n` bytes in flash. -/
def State.fl (s : State) (a n : Nat) : Nat := leNat (Mem.bytes s.mem.flash a n)

/-- IMG_LEN, and FLAGS.EXPERT, FLAGS.SET of the header (R439). -/
def State.imgLen (s : State) (b : Nat) : Nat := s.fl (b + 16) 4
def State.imgExpert (s : State) (b : Nat) : Bool := natBit (s.fl (b + 7) 1) 0
def State.imgIsSet (s : State) (b : Nat) : Bool := natBit (s.fl (b + 7) 1) 1

/-- A section: SID, flash address, LENGTH, CRC-32C (R439). -/
structure Sect where
  sid : Nat
  at_ : Nat
  len : Nat
  crc : Nat
deriving DecidableEq, Repr

/-- The section directory (R439). -/
def State.imgDir (s : State) (b : Nat) : List Sect :=
  (List.range (s.fl (b + 14) 2)).map fun i =>
    let d := b + 64 + 16 * i
    ⟨s.fl d 2, b + s.fl (d + 4) 4, s.fl (d + 8) 4, s.fl (d + 12) 4⟩

/-- The section of an SID, the first where several have it (log 59). -/
def State.sect (s : State) (b sid : Nat) : Option Sect := (s.imgDir b).find? (·.sid = sid)

/-- The image hash (R440) and the fabric hash (R347, R440). -/
def State.imgHash (s : State) (b : Nat) : BitVec 256 := Config.sha256 (Mem.bytes s.mem.flash b (s.imgLen b))
def State.fabHash (s : State) (b : Nat) : Nat :=
  match s.sect b 0x08 with
  | some x => leNat ((hashBytes (Config.sha256 (Mem.bytes s.mem.flash x.at_ x.len))).take 4)
  | none => 0

/-- Does the header have its fixed values (R439)? -/
def State.headerOk (s : State) (b : Nat) : Bool :=
  decide (s.fl b 4 = 0x4E4D4C41) && decide (s.fl (b + 4) 2 = 1) && (s.fl (b + 6) 1 = 1 || s.fl (b + 6) 1 = 2)
  && decide (s.fl (b + 7) 1 < 4) && decide (s.fl (b + 12) 2 < 4096) && decide (s.imgLen b ≤ 0x800000)
  && decide (64 + 16 * s.fl (b + 14) 2 ≤ s.imgLen b) && (s.imgIsSet b || s.fl (b + 28) 4 = 0)
  && (Mem.bytes s.mem.flash (b + 32) 32).all (· = 0)

/-- Does a directory entry name a section of the table, or one to ignore, that lies in the image and has its CRC (R439, R441)? -/
def State.sectOk (s : State) (b : Nat) (x : Sect) : Bool :=
  ((1 ≤ x.sid && x.sid ≤ 0x0E) || 0x80 ≤ x.sid) && decide ((x.at_ - b) % 8 = 0) && decide (x.at_ - b + x.len ≤ s.imgLen b)
  && decide ((crc32c (Mem.bytes s.mem.flash x.at_ x.len)).toNat = x.crc)

/-! Register records (R441) -/

/-- May a section's records name a page? -/
def sectPage (sid pg : Nat) : Bool :=
  match sid with
  | 0x07 => match pageBlock pg with
    | some (.ch, _) | some (.bank, _) | some (.spd, _) | some (.tmr, _) => true
    | _ => false
  | 0x08 => match pageBlock pg with
    | some (.fab, _) | some (.port, _) | some (.lane, _) => true
    | _ => false
  | 0x09 => match pageBlock pg with
    | some (.eth, _) => true
    | _ => false
  | 0x0B => match pageBlock pg with
    | some (.vern, _) => true
    | _ => false
  | 0x0E => match pageBlock pg with
    | some (.mer, _) | some (.evt, _) | some (.log, _) | some (.ngl, _) => true
    | _ => false
  | _ => false

/-- A register record: page, offset, value. -/
structure RegRec where
  pg : Nat
  off : Nat
  v : Word
deriving DecidableEq, Repr

def State.regRecAt (s : State) (a : Nat) : RegRec := ⟨s.fl a 2, s.fl (a + 2) 2, Mem.w32 s.mem.flash (a + 4)⟩

/-- A counted table: a 4-byte count, then entries of 8 bytes (R441). -/
def State.countedTable (s : State) (a : Nat) : List (BitVec 64) :=
  (List.range (min (s.fl a 4) 0x100000)).map fun i => Mem.w64 s.mem.flash (a + 4 + 8 * i)

/-- The `k`-th of the counted tables that start at `a`. -/
def State.kthTable (s : State) (a : Nat) : Nat → Nat
  | 0 => a
  | k + 1 =>
    let t := s.kthTable a k
    t + 4 + 8 * s.fl t 4

/-- Do the tables that a section has after its records fill what lies from `a` to its end: the four of FABRIC, or the 64 connections and two
of CONNECTIONS, none with more entries than TBL_SEL names (R375, R399, R441)? -/
def State.tablesFit (s : State) (x : Sect) (a : Nat) : Bool :=
  let t := if x.sid = 0x08 then a else a + 2048
  let n := if x.sid = 0x08 then 4 else 2
  decide (s.kthTable t n = x.at_ + x.len)
    && (List.range n).all fun k => decide (s.fl (s.kthTable t k) 4 ≤ if x.sid = 0x08 then 16384 else 8192)

/-- How many register records a section has: those before its tables, where the section has tables (log 59). -/
def State.recCount (s : State) (x : Sect) : Nat :=
  if x.sid = 0x08 || x.sid = 0x09 then
    ((List.range (x.len / 8 + 1)).find? fun n => s.tablesFit x (x.at_ + 8 * n)).getD 0
  else x.len / 8

/-- The register records of a section. -/
def State.recsOf (s : State) (x : Sect) : List RegRec := (List.range (s.recCount x)).map fun i => s.regRecAt (x.at_ + 8 * i)

/-- The sections of register records. -/
def recSids : List Nat := [0x07, 0x08, 0x09, 0x0B, 0x0E]

/-- The records of an image's section. -/
def State.sectRecs (s : State) (b sid : Nat) : List RegRec :=
  match s.sect b sid with
  | some x => s.recsOf x
  | none => []

/-- Where the tables of a section start, after its records. -/
def State.tablesAt (s : State) (x : Sect) : Nat := x.at_ + 8 * s.recCount x

/-! The sections' own lengths -/

/-- VALID level-1 entries of the MAP section (R145, R441). -/
def State.mapPages (s : State) (x : Sect) : List (Nat × Nat) :=
  (List.range 4096).filterMap fun j =>
    let e := Mem.w64 s.mem.flash (x.at_ + 8 * j)
    if l1Valid e then some (l1Ptr e, j) else none

/-- Do blocks of a partition word, a count or length, and as many units of `size` bytes fill `left` bytes from `a` (R441)? At most `fuel`. -/
def State.blocksFit (s : State) (size : Nat) : Nat → Nat → Nat → Bool
  | 0, _, left => left = 0
  | fuel + 1, a, left =>
    let n := 8 + size * s.fl (a + 4) 4
    left = 0 || (decide (n ≤ left) && s.blocksFit size fuel (a + n) (left - n))

/-- Is a section laid out as R441 says? FBPARAM, whose records are as many as the windows hold, is `ruleFb`'s. -/
def State.sectShape (s : State) (x : Sect) : Bool :=
  match x.sid with
  | 0x01 => 8 ≤ x.len && (x.len - 8) % 24 = 0 && s.fl (x.at_ + 1) 7 = 0 && (List.range ((x.len - 8) / 24)).all fun i =>
    let a := x.at_ + 8 + 24 * i
    s.fl a 1 < 16 && s.fl (a + 2) 2 = 0 && s.fl (a + 22) 2 = 0
  | 0x02 => x.len = 1024 && (List.range 16).all fun p => s.fl (x.at_ + 64 * p + 56) 4 < 2 && s.fl (x.at_ + 64 * p + 60) 4 = 0
  | 0x03 => s.blocksFit 4 (x.len / 8 + 1) x.at_ x.len
  | 0x04 => s.blocksFit 1 (x.len / 8 + 1) x.at_ x.len
  | 0x05 => x.len = 0x8000 + 4096 * (s.mapPages x).length + 4096
  | 0x0A => x.len = 8192
  | 0x0C => x.len % 64 = 0 && (List.range (x.len / 64)).all fun i =>
    s.fl (x.at_ + 64 * i + 2) 1 < 2 && s.fl (x.at_ + 64 * i + 3) 1 = 0 && s.fl (x.at_ + 64 * i + 60) 4 = 0
  | 0x0D => x.len = 4 + 36 * s.fl x.at_ 4 && (List.range (s.fl x.at_ 4)).all fun i => s.fl (x.at_ + 4 + 36 * i + 2) 2 = 0
  | 0x07 | 0x0B | 0x0E => x.len % 8 = 0 && (s.recsOf x).all fun r => sectPage x.sid r.pg && r.off % 4 = 0 && r.off < 0x1000
  | 0x08 | 0x09 => s.tablesFit x (s.tablesAt x) && (s.recsOf x).all fun r => sectPage x.sid r.pg && r.off % 4 = 0 && r.off < 0x1000
  | _ => true

/-- The sections an image must have (R441). -/
def State.mustHave (s : State) (b : Nat) : List Nat := [0x01, 0x02, 0x05, 0x0A] ++ (if s.imgIsSet b then [0x0D] else [])

/-- The first failing section of the format check; 0 for the header (R442). -/
def State.formatBad (s : State) (b : Nat) : Option Nat :=
  if !s.headerOk b then some 0
  else match (s.imgDir b).find? fun x => !s.sectOk b x || (x.sid < 0x80 && !s.sectShape x) with
    | some x => some x.sid
    | none => (s.mustHave b).find? fun k => (s.sect b k).isNone

/-- Does the trailer verify: SHA-256 of the key is ROOT_HASH, and the signature over the image hash checks (R440)? -/
def State.sigOk (s : State) (b : Nat) : Bool :=
  let t := b + s.imgLen b
  let key := Mem.bytes s.mem.flash t 64
  let root := (List.range 8).flatMap fun i => natLe 4 (s.otpWord (12 + i)).toNat
  decide (hashBytes (Config.sha256 key) = root) && Config.ecdsaOk key (Mem.bytes s.mem.flash (t + 64) 64) (s.imgHash b)

/-- Does a copy verify, so that it can be committed: format and signature, and TARGET is this slot (R440, R443, R447)? -/
def State.copyOk (s : State) (k : Nat) : Bool :=
  let b := copyAt k
  (s.formatBad b).isNone && s.sigOk b && decide (s.fl (b + 12) 2 = s.dev.slot.toNat)

end Sys2Proof.Machine
end

