-- ==== Sys2Proof/Machine/ProgScan.lean ====
section
/-! DEFINITION. What a commit reads off a program (R107, R113): the restrictions of R143, the LOOP nesting of R552, and which value a
coded register may hold at an FB or an STS (R247, R265, R268). A slot's branches all go forward (R124), so one pass in program order does;
at a LOOP every register may hold what its body writes to it as well. -/

namespace Sys2Proof.Machine

open Sys2Proof

/-! Fields of an instruction word (R107) -/

def wOp (w : Word) : Nat := natBits w.toNat 26 6
def wD (w : Word) : Nat := natBits w.toNat 21 5
def wA (w : Word) : Nat := natBits w.toNat 16 5
def wB (w : Word) : Nat := natBits w.toNat 11 5
def wImm (w : Word) : Nat := natBits w.toNat 0 16
def wFb (w : Word) : Nat := natBits w.toNat 10 6
def wInst (w : Word) : Nat := natBits w.toNat 0 10

/-- Outputs of a block (R212). -/
def fbOuts (f : Nat) : Nat := [0, 3, 4, 3, 4, 3, 2, 2, 2, 2, 2, 3, 4, 3, 4, 3, 2, 3, 4].getD f 0

/-- Coded registers an instruction writes (R113). -/
def wWrites (w : Word) : List Nat :=
  let o := wOp w
  if o = 0x1C then (List.range (fbOuts (wFb w))).map (wD w + ·)
  else if o = 1 || o = 2 || o = 4 || (8 ≤ o && o ≤ 0x17) || (0x18 ≤ o && o ≤ 0x1A) then [wD w]
  else []

/-- The program of a partition in a bank of its main core: instruction words from PGM_BASE on. -/
def State.program (s : State) (p bank : Nat) : List Word :=
  (List.range (s.fld (rPart_PGM_SIZE p) 0 18)).map fun i =>
    Mem.w32 s.mem.pgm (pgmAt (2 * s.ptPair p) bank (s.fld (rPart_PGM_BASE p) 0 17 + i))

/-! R143, R552 -/

/-- Is a word restricted for a class (R143)? `si`: the export entries with SAFE_INT. -/
def wRestricted (safe : Bool) (si : List Nat) (w : Word) : Bool :=
  if safe then wOp w = 2
  else (wOp w = 3 && si.contains (wImm w % 512)) || (wOp w = 0x1C && (wFb w = 17 || wFb w = 18))

/-- Does a LOOP lie inside the body of another (R552)? `left`: instructions of a body still to come. -/
def loopNested : Nat → List Word → Bool
  | _, [] => false
  | left, w :: ws =>
    if wOp w = 0x22 then decide (0 < left) || loopNested (max (left - 1) (natBits w.toNat 0 8)) ws
    else loopNested (left - 1) ws

/-! Values at an instruction (R265, R268) -/

/-- Where a word a register may hold comes from. -/
inductive Source where
  /-- no signal: reset, a constant, a computed word -/
  | other
  /-- an import entry, loaded by LDS; `copied`: and then moved by CMOV or CSEL -/
  | entry (e : Nat) (copied : Bool)
  /-- some import entry: LDS.X -/
  | someEntry
  /-- a retained variable: LDV -/
  | retained (k : Nat)
  /-- OUT of a GROUP instance -/
  | group (i : Nat)
deriving DecidableEq, Repr

/-- What each of the 32 coded registers may hold, over the paths so far. -/
abbrev Known := List (List Source)

def knownNone : Known := List.replicate 32 [.other]

def Source.copy : Source → Source
  | .entry e _ => .entry e true
  | x => x

/-- What one of two paths gives. -/
def knownJoin (a b : List Source) : List Source := a ++ b.filter fun x => !a.contains x

def knownMeet (a b : Known) : Known := (a.zip b).map fun x => knownJoin x.1 x.2

/-- What a register may hold. -/
def Known.reg (k : Known) (r : Nat) : List Source := k.getD r [.other]

/-- After an instruction. -/
def knownStep (k : Known) (w : Word) : Known :=
  let k1 := (wWrites w).foldl (fun k r => k.set r [.other]) k
  if wOp w = 1 then k1.set (wD w) [.entry (wImm w % 4096) false]
  else if wOp w = 2 then k1.set (wD w) [.someEntry]
  else if wOp w = 4 then k1.set (wD w) [.retained (wImm w % 1024)]
  else if wOp w = 0x0F then k1.set (wD w) ((k.reg (wA w)).map Source.copy)
  else if wOp w = 0x13 then k1.set (wD w) ((knownJoin (k.reg (wA w)) (k.reg (wB w))).map Source.copy)
  else if wOp w = 0x1C && wFb w = 18 then k1.set (wD w) [.group (wInst w)]
  else k1

/-- What the registers may hold in the body of a LOOP: what they held, or what instructions of the body leave in them, passed on through at
most `n` turns. -/
def knownLoop (body : List Word) : Nat → Known → Known
  | 0, k => k
  | n + 1, k => knownLoop body n (body.foldl (fun k w => knownMeet k (knownStep k w)) k)

/-- A path with `k` reaches index `i`. -/
def knownReach (t : Tab Known) (i : Nat) (k : Known) : Tab Known :=
  match Tab.get (fun _ => []) t i with
  | [] => Tab.set (fun _ => []) t i k
  | x => Tab.set (fun _ => []) t i (knownMeet x k)

/-- The successors of the instruction at index `i` (R124, R125). -/
def knownNext (t : Tab Known) (i : Nat) (k : Known) (w : Word) (rest : List Word) : Tab Known :=
  let k1 := knownStep k w
  match wOp w with
  | 0x20 => knownReach t (i + wImm w) k1
  | 0x21 => knownReach (knownReach t (i + 1) k1) (i + wImm w % 4096) k1
  | 0x22 =>
    let l := natBits w.toNat 0 8
    let body := knownLoop (rest.take l) 8 k1
    knownReach (knownReach t (i + 1) body) (i + l + 1) k1
  | 0x23 => t
  | 0x3C => t
  | _ => knownReach t (i + 1) k1

/-- The instructions that a slot can reach from index `i` on, each with what it finds in the coded registers. -/
def knownGo (t : Tab Known) : Nat → List Word → List (Word × Known)
  | _, [] => []
  | i, w :: ws =>
    match Tab.get (fun _ => []) t i with
    | [] => knownGo t (i + 1) ws
    | k => (w, k) :: knownGo (knownNext t i k w ws) (i + 1) ws

/-- The reachable instructions of a partition's program in a bank, from the entries of its slots. -/
def State.scanBank (s : State) (p bank : Nat) : List (Word × Known) :=
  let n := s.ptPair p
  let starts := (List.range 64).filter fun e => s.bit (rPair_SE_W0 n e) 4 && s.sePart n e = p
  let t := starts.foldl (fun t e => Tab.set (fun _ => []) t (s.fld (rPair_SE_W3 n e) 0 17) knownNone) ([] : Tab Known)
  knownGo t (s.fld (rPart_PGM_BASE p) 0 17) (s.program p bank)

/-- The same of its active bank. -/
def State.scan (s : State) (p : Nat) : List (Word × Known) := s.scanBank p (s.actBank p)

/-- Signal ID of an import entry (R132). -/
def State.importId (s : State) (p e : Nat) : Nat := natBits (Mem.w32 s.mem.img (s.impAt p e)).toNat 0 21

/-- The signal ID of the import entry a source names; `copies`: also after a move. -/
def State.sourceId (s : State) (p : Nat) (copies : Bool) : Source → Option Nat
  | .entry e c => if e < s.winHdr p 8 && (copies || !c) then some (s.importId p e) else none
  | _ => none

/-- The signal ID whose word a register holds on every path: all its sources give one. -/
def State.regId (s : State) (p : Nat) (copies : Bool) (k : Known) (r : Nat) : Option Nat :=
  match (k.reg r).map (s.sourceId p copies) with
  | some id :: xs => if xs.all (· = some id) then some id else none
  | _ => none

/-- The signal ID a register was last loaded with, where the program shows it. -/
def State.knownId (s : State) (p : Nat) (k : Known) (r : Nat) : Option Nat := s.regId p false k r

/-- Does a pair of registers hold the two signals, one each? -/
def State.holdsPair (s : State) (p : Nat) (k : Known) (r : Nat) (a b : Nat) : Bool :=
  match s.knownId p k r, s.knownId p k (r + 1) with
  | some x, some y => (x = a && y = b) || (x = b && y = a)
  | _, _ => false

/-- R265: does the program hold an FB of code `f` whose two channel inputs of one pair are signals `a` and `b`? -/
def State.pairRead (s : State) (p f a b : Nat) : Bool :=
  (s.scan p).any fun x => wOp x.1 = 0x1C && wFb x.1 = f && (s.holdsPair p x.2 (wA x.1) a b
    || (f = 9 && s.holdsPair p x.2 (wA x.1 + 2) a b))

/-- The signal ID of the import entry whose word a register holds, loaded or copied, where the program shows it. -/
def State.wordId (s : State) (p : Nat) (k : Known) (r : Nat) : Option Nat := s.regId p true k r

/-- The signals a word may come from: of an import entry its own, and of a produced signal of this device what its partition stores there;
of a retained variable what the program stores in it; of LDS.X every import. `n` bounds the relays followed (R247; log 164). -/
def State.originIds (s : State) : Nat → Nat → Source → List Nat
  | 0, _, _ => []
  | n + 1, p, x =>
    let stored (q op : Nat) (at_ : Nat → Bool) : List Nat := (s.scan q).flatMap fun y =>
      if wOp y.1 = op && at_ (wImm y.1) then (y.2.reg (wA y.1)).flatMap (s.originIds n q) else []
    let from_ (id : Nat) : List Nat := id :: (if id / 512 = s.dev.slot.toNat && 256 ≤ id % 512 then
      match s.producer (id % 512) with
      | some q => stored q 3 fun k => natBits (Mem.w32 s.mem.img (s.expAt q (k % 512))).toNat 0 9 = id % 512
      | none => []
      else [])
    match x with
    | .entry e _ => if e < s.winHdr p 8 then from_ (s.importId p e) else []
    | .someEntry => (List.range (s.winHdr p 8)).flatMap fun e => from_ (s.importId p e)
    | .retained k => stored p 5 fun i => i % 1024 = k
    | _ => []

/-- The SPEED and FAN instances of a partition, each with the signal IDs its speed input may read (R212). -/
def State.speedBlocks (s : State) (p : Nat) : List (Nat × Nat × List Nat) :=
  (s.scan p).flatMap fun x =>
    if wOp x.1 = 0x1C && (wFb x.1 = 12 || wFb x.1 = 13) then
      [(wFb x.1, wInst x.1, (x.2.reg (wA x.1 + (wFb x.1 - 12))).flatMap (s.originIds 4 p))]
    else []

/-- R225 for the calls of a GROUP instance: MS_1..MS_(n−1) are signals of as many distinct devices of this ring, and GO of a member
that does not coordinate is the signal of one of them. The image names no other member: this is what one device can check of the ring and
count rules (log 133). -/
def State.groupWired (s : State) (p i n : Nat) (coord : Bool) : Bool :=
  ((s.scan p).filter fun x => wOp x.1 = 0x1C && wFb x.1 = 18 && wInst x.1 = i).all fun x =>
    let ms := (List.range (n - 1)).filterMap fun k => s.wordId p x.2 (wA x.1 + 2 + k)
    let devs := ms.map (· / 512)
    ms.length = n - 1 && ms.eraseDups.length = n - 1 && (devs.all fun v => v / 32 = s.dev.slot.toNat / 32)
    && (coord || (match s.wordId p x.2 (wA x.1 + 1) with
      | some g => devs.contains (g / 512)
      | none => false))

/-- The exports of a partition that an OUT of a GROUP instance is stored to: instance and produced index (R268). -/
def State.groupOuts (s : State) (p : Nat) : List (Nat × Nat) :=
  (s.scan p).filterMap fun x =>
    match x.2.reg (wA x.1) with
    | [.group i] =>
      if wOp x.1 = 3 && wImm x.1 % 512 < s.winHdr p 16 then
        some (i, natBits (Mem.w32 s.mem.img (s.expAt p (wImm x.1 % 512))).toNat 0 9)
      else none
    | _ => none

end Sys2Proof.Machine
end

