-- ==== Sys2Proof/Machine/Load.lean ====
section
/-! DEFINITION. The configuration an image makes (R441): the machine as it would stand with each section of the image applied. A commit
checks its rules on it (R442), and the switch puts it in force. -/

namespace Sys2Proof.Machine

open Sys2Proof

/-! Registers -/

/-- A memory with a range erased. -/
def Mem.clear (m : Mem) (lo hi : Nat) : Mem := m.filter fun c => decide (c.1 < lo) || decide (hi ≤ c.1)

/-- Every RWL field, and the owner of every page, goes back to its reset value (R5, R550; log 59). -/
def clearRwl (t : Tab Word) : Tab Word :=
  t.filterMap fun e =>
    if 0x10000000 ≤ e.1 then some e
    else match regSpecAt e.1 with
      | some r =>
        let own : Word := if e.1 % 0x1000 = 0x38 then 0x8F else 0
        let v := (e.2 &&& ~~~ (r.rwl ||| own)) ||| (r.rst &&& r.rwl)
        if v = r.rst then none else some (e.1, v)
      | none => some e

/-- The device sets the RW and RWL fields of a register. -/
def State.putReg (s : State) (a : Nat) (v : Word) : State :=
  match regSpecAt a with
  | some r =>
    let m := r.rw ||| r.rwl
    s.wr a ((s.rd a &&& ~~~ m) ||| (v &&& m))
  | none => s

/-- A register record (R441): OWNER with its owner (R550), initial trims where flash holds none (R311), routing entries (R490), EPOCH, which
comes from the Almanac (R341; log 148); the expected PG_CRC sets nothing. -/
def State.putRec (s : State) (r : RegRec) : State :=
  let a := page r.pg + r.off
  let ch := r.pg - 0x100
  if r.off = 0x3C then s
  else if r.off = 0x38 then
    let own : Word := match pageBlock r.pg with
      | some (.ch, _) | some (.spd, _) => 0x8F
      | _ => 0
    s.wr a (r.v &&& (0x30000#32 ||| own))
  else if 0x100 ≤ r.pg && (r.off = 0x118 || r.off = 0x11C) then
    (if (Tab.get (fun _ => none) s.cfg.trims ch).isSome then s else s.wr a r.v)
  else if a = rEvt_RT_DATA then s.routeWrite r.v
  else if a = rMer_EPOCH_LO || a = rMer_EPOCH_HI then s.wr a r.v
  else s.putReg a r.v

/-- The trims held in flash; none where it holds none (R311). -/
def State.flashTrims (s : State) : State :=
  s.each (List.range 192) fun x n =>
    let t := (Tab.get (fun _ => none) x.cfg.trims n).getD (0, 0)
    (x.wr (rCh_TRIM_OFF n) t.1).wr (rCh_TRIM_GAIN n) t.2

/-! Partitions and schedule -/

/-- Flash address of a partition's record, and whether it is VALID (R441). -/
def partRec (x : Sect) (p : Nat) : Nat := x.at_ + 64 * p
def State.partValid (s : State) (x : Sect) (p : Nat) : Bool := natBit (s.fl (partRec x p + 56) 4) 0

/-- The VALID partitions that PROD_MAP gives an index 256 + i. -/
def State.prodOf (s : State) (x : Sect) (i : Nat) : List Nat :=
  (List.range 16).filter fun p => s.partValid x p && natBit (s.fl (partRec x p + 24 + i / 8) 1) (i % 8)

/-- PARTITIONS (R103, R441). -/
def State.loadParts (s : State) (x : Sect) : State :=
  let put (y : State) (p : Nat) : State :=
    if !s.partValid x p then y
    else
      let w i := Mem.w32 s.mem.flash (partRec x p + 4 * i)
      (((((y.putReg (rPart_PT_CFG p) (w 0)).putReg (rPart_WIN_BASE p) (w 1)).putReg (rPart_WIN_SIZE p) (w 2)).putReg (rPart_PGM_BASE p)
        (w 3)).putReg (rPart_PGM_SIZE p) (w 4)).putReg (rPart_PGM_ALT_CRC p) (w 5)
  let s1 := (s.each (List.range 16) put).modEng fun e => { e with
    prod := (List.range 256).foldl (fun t i => match s.prodOf x i with
      | p :: _ => Tab.set (fun _ => 0) t (256 + i) (p + 1)
      | [] => t) ([] : Tab Nat) }
  let mask (bit : Nat) : Nat := bitMask 16 fun p => s1.bit (rPart_PT_CFG p) bit
  (s1.wrN rEph_MIR_TX_CFG (mask 1)).wrN rEph_MIR_RX_CFG (mask 3)

/-- The constants A_p (R60); a mirror partition has its home's (R369). -/
def State.loadA (s : State) (b : Nat) : State :=
  let seed := (List.range 4).flatMap fun i => natLe 4 (s.otpWord (4 + i)).toNat
  let img := hashBytes (s.imgHash b)
  ((List.range 16).foldl (fun (r : State × List Nat) p =>
    let h := (Config.sha256 (seed ++ natLe 1 p ++ img)).toNat / 2 ^ 240
    let a := if s.bit (rPart_PT_CFG p) 3 then (Config.mirrorA p).toNat else apSearch r.2 32768 (h ||| 0x8001)
    (r.1.wrN (rPart_A_P p) a, a :: r.2)) (s, [])).1

/-- The entries of SCHEDULE: flash addresses (R441). -/
def schedRecs (x : Sect) : List Nat := (List.range ((x.len - 8) / 24)).map fun i => x.at_ + 8 + 24 * i
def State.schedPair (s : State) (a : Nat) : Nat := s.fl a 1 % 16
def State.schedEntry (s : State) (a : Nat) : Nat := s.fl (a + 1) 1

/-- SCHEDULE (R87, R88). -/
def State.loadSched (s : State) (x : Sect) : State :=
  let s0 := (s.wrN rEng_MF_CFG (s.fl x.at_ 1 % 16)).modEng fun e => { e with budgets := [] }
  let s1 := s0.each ((schedRecs x).filter fun a => s.schedPair a < 4 && s.schedEntry a < 64) fun y a =>
    let n := s.schedPair a
    let e := s.schedEntry a
    let w i := Mem.w32 s.mem.flash (a + 4 + 4 * i)
    (((y.putReg (rPair_SE_W0 n e) (w 0)).putReg (rPair_SE_W1 n e) (w 1)).putReg (rPair_SE_W3 n e) (w 2)).modEng fun g => { g with
      budgets := (List.range 3).foldl (fun t k => Tab.set (fun _ => 0) t ((64 * n + e) * 3 + k) (s.fl (a + 16 + 2 * k) 2)) g.budgets }
  s1.each (List.range 4) fun y n =>
    let es := (List.range 64).filter fun e => y.bit (rPair_SE_W0 n e) 4
    let booked := es.foldl (fun t e => t + y.fld (rPair_SE_W1 n e) 16 13 * 2 ^ (y.mfLog2 - y.sePer n e)) 0
    ((y.wrN (rPair_ENTRIES n) es.length).wrN (rEng_PAIR_LOAD n) (booked * 10000 / (6250 * 2 ^ y.mfLog2))).modPair n fun z => { z with seBad := 0 }

/-! Programs, windows, map -/

/-- The blocks of PROGRAMS: partition, ALT, words (R441). -/
def State.pgmBlocks (s : State) : Nat → Nat → Nat → List (Nat × Bool × List Word)
  | 0, _, _ => []
  | fuel + 1, a, left =>
    let n := s.fl (a + 4) 4
    if left < 8 + 4 * n then []
    else (s.fl a 4 % 16, natBit (s.fl a 4) 4, (List.range n).map fun i => Mem.w32 s.mem.flash (a + 8 + 4 * i))
      :: s.pgmBlocks fuel (a + 8 + 4 * n) (left - (8 + 4 * n))

def State.imgPrograms (s : State) (b : Nat) : List (Nat × Bool × List Word) :=
  match s.sect b 0x03 with
  | some x => s.pgmBlocks (x.len / 8) x.at_ x.len
  | none => []

/-- Write a program into a bank of a partition's window, on both cores of its pair (R79, R98). -/
def State.writeProgram (s : State) (p bank : Nat) (ws : List Word) : State :=
  let at_ u := pgmAt (2 * s.ptPair p + u) bank (s.fld (rPart_PGM_BASE p) 0 17)
  let bs := (ws.take (s.fld (rPart_PGM_SIZE p) 0 18)).flatMap fun w => natLe 4 w.toNat
  s.modMem fun m => { m with pgm := Mem.write (Mem.write m.pgm (at_ 0) bs) (at_ 1) bs }

/-- The same at a commit: the window holds no word known as bad any more. -/
def State.putProgram (s : State) (p bank : Nat) (ws : List Word) : State :=
  (s.writeProgram p bank ws).modPart p fun x => { x with pgmBad := false }

/-- PROGRAMS (R98): a changed program goes into the inactive bank, which becomes active; an alternate program into the inactive one. -/
def State.loadPrograms (s : State) (b : Nat) : State :=
  let blocks := s.imgPrograms b
  (List.range 16).foldl (fun y p =>
    let main := (blocks.find? fun x => x.1 = p && !x.2.1).map fun x => x.2.2
    let alt := (blocks.find? fun x => x.1 = p && x.2.1).map fun x => x.2.2
    let y1 : State := match main with
      | some ws =>
        if (y.part p).pgmBad || (y.program p (y.actBank p)).take ws.length ≠ ws then
          (y.putProgram p (1 - y.actBank p) ws).setFld (rPart_PGM_STAT p) 0 1 (1 - y.actBank p)
        else y
      | none => y
    let y2 : State := match alt with
      | some ws => y1.putProgram p (1 - y1.actBank p) ws
      | none => y1
    if y2.fld (rPart_PGM_SIZE p) 0 18 = 0 then y2 else y2.wr (rPart_PGM_CRC_ACT p) (crc32c (y2.pgmBytes p (y2.actBank p)))) s

/-- The blocks of LISTS: partition, flash address and length of its window image (R441). -/
def State.listBlocks (s : State) : Nat → Nat → Nat → List (Nat × Nat × Nat)
  | 0, _, _ => []
  | fuel + 1, a, left =>
    let n := s.fl (a + 4) 4
    if left < 8 + n then [] else (s.fl a 4 % 16, a + 8, n) :: s.listBlocks fuel (a + 8 + n) (left - (8 + n))

def State.imgLists (s : State) (b : Nat) : List (Nat × Nat × Nat) :=
  match s.sect b 0x04 with
  | some x => s.listBlocks (x.len / 8) x.at_ x.len
  | none => []

/-- A timer record with its PRESET coded (R134). -/
def State.codeTimer (s : State) (p t : Nat) : State :=
  let rec_ := Mem.bytes s.mem.img (s.tmrAt p t) 32
  let body := natLe 8 (mkCsw (s.aP p) (tagTimer t) (leNat (rec_.take 2)) s.sf .good).toNat ++ (rec_.drop 8).take 12
  s.imgBytes (s.tmrAt p t) (body ++ natLe 4 (crc32c body).toNat ++ natLe 8 0)

/-- A retained variable coded (R135). -/
def State.codeVar (s : State) (p k : Nat) : State :=
  s.imgBytes (s.varAt p k) (natLe 8 (mkCsw (s.aP p) (tagVar k) (leNat (Mem.bytes s.mem.img (s.varAt p k) 2)) s.sf .good).toNat)

/-- LISTS: the windows as the image gives them, with the device's coding (R131 to R135, R441). -/
def State.loadLists (s : State) (b : Nat) : State :=
  let s0 := (s.modMem fun m => { m with img := Mem.clear m.img 0x100000 0x200000 }).modEng fun e => { e with
    imgBad := e.imgBad.filter fun a => a < 0x100000 }
  let s1 := s0.each (s.imgLists b) fun y x =>
    let y1 := y.imgBytes (y.winBase x.1) (Mem.bytes s.mem.flash x.2.1 (min x.2.2 (y.winSize x.1)))
    let y2 := y1.wrN (rPart_LIST_CNT x.1) (y1.winHdr x.1 8 % 8192 + 65536 * (y1.winHdr x.1 16 % 1024))
    if y2.winOk x.1 then
      (y2.each (List.range (y2.winHdr x.1 32)) fun z t => z.codeTimer x.1 t).each (List.range (y2.winHdr x.1 40)) fun z k => z.codeVar x.1 k
    else y2
  s1.each ((List.range 16).filter fun p => !(s.imgLists b).any (·.1 = p)) fun y p => y.wrN (rPart_LIST_CNT p) 0

/-- A level-2 page's CONST descriptors: each names a word of the pool, coded for its one partition and its ID (R147, R148). -/
def State.codeConsts (s : State) (pool : Nat) : State :=
  let j := s.dev.slot.toNat
  let e := s.imgRd (l1At j)
  if !l1Valid e then s
  else s.each (List.range 512) fun y i =>
    let d := y.imgRd (l1Ptr e + 8 * i)
    if dType d = 5 then
      y.imgBytes (0x23000 + 8 * (dOffset d % 512))
        (natLe 8 (mkCsw (y.aP (permPart d)) (512 * j + i) (s.fl (pool + 8 * (dOffset d % 512)) 2) y.sf .good).toNat)
    else y

/-- MAP (R144, R441): level 1, the level-2 pages in the order of L2_PTR, the CONST pool. -/
def State.loadMap (s : State) (x : Sect) : State :=
  let pages := (s.mapPages x).foldl (fun t e => Tab.ins e.1 e.2 t) ([] : Tab Nat)
  let s0 := s.modMem fun m => { m with img := Mem.clear (Mem.clear m.img 0x24000 0x2C000) 0x30000 0x100000 }
  let s1 := s0.imgBytes 0x24000 (Mem.bytes s.mem.flash x.at_ 0x8000)
  let s2 := s1.each (pages.zipIdx) fun y e =>
    if 0x30000 ≤ e.1.1 && e.1.1 ≤ 0xFF000 then y.imgBytes e.1.1 (Mem.bytes s.mem.flash (x.at_ + 0x8000 + 4096 * e.2) 4096) else y
  let s3 := s2.codeConsts (x.at_ + 0x8000 + 4096 * (s.mapPages x).length)
  let s4 := (s3.wrN rMap_MAP_STAT (1 + 256 * (pages.length % 256))).wrN rMap_EDIT_CNT 0
  s4.modEng fun e => { e with
    imgBad := e.imgBad.filter fun a => !inMapRegion a
    mapRep := [] }

/-! Function blocks (R199, R230) -/

/-- Instance records of FBPARAM: as many as the windows hold (log 59). -/
def State.fbRecords (s : State) : Nat := (List.range 16).foldl (fun n p => n + (if s.ptConfigured p then s.winHdr p 24 else 0)) 0

/-- An instance record of FBPARAM: partition, instance, the 64 bytes. -/
def State.fbRecordAt (s : State) (x : Sect) (i : Nat) : Nat × Nat × List Byte :=
  let a := x.at_ + 68 * i
  (s.fl a 1 % 16, s.fl (a + 2) 2, Mem.bytes s.mem.flash (a + 4) 64)

/-- A function record (R230, R441). -/
structure FnRec where
  part : Nat
  fn : Nat
  kind : Nat
  src : Nat
  filt : Nat
  per1 : Nat
  per2 : Nat
  hops : Nat
  cross : Nat
  outKind : Nat
  src2 : Nat
  blk : Nat
  wd : Nat
  lim : Nat
deriving DecidableEq, Repr

def State.fnRecAt (s : State) (a : Nat) : FnRec where
  part := s.fl a 1 % 16
  fn := s.fl (a + 1) 1 % 32
  kind := s.fl (a + 2) 1
  src := s.fl (a + 3) 1
  filt := s.fl (a + 4) 2
  per1 := s.fl (a + 6) 1 % 16
  per2 := s.fl (a + 6) 1 / 16
  hops := s.fl (a + 7) 1
  cross := s.fl (a + 8) 1
  outKind := s.fl (a + 9) 1
  src2 := s.fl (a + 10) 1
  blk := s.fl (a + 11) 1
  wd := s.fl (a + 12) 4
  lim := s.fl (a + 16) 4

/-- The function records of an image, with the windows in `s` (R230). -/
def State.fnRecs (s : State) (b : Nat) : List FnRec :=
  match s.sect b 0x06 with
  | some x =>
    let n := 68 * s.fbRecords
    (List.range ((x.len - n) / 20)).map fun i => s.fnRecAt (x.at_ + n + 20 * i)
  | none => []

/-- FBPARAM: every instance record, dynamic fields zero (R199). What a commit accepts is as carried (R200). -/
def State.loadFb (s : State) (b : Nat) : State :=
  match s.sect b 0x06 with
  | some x => s.each ((List.range s.fbRecords).map (s.fbRecordAt x)) fun y r =>
      if r.2.1 < y.winHdr r.1 24 then y.imgBytes (y.fbAt r.1 r.2.1) (resetFb r.2.2 (List.replicate 64 0)) else y
  | none => s

/-! Tables, connections, policies, roles -/

/-- Does the descriptor of a signal give a fabric receive slot CLASS = 1 (R147, R357)? -/
def State.slotSafe (s : State) (id slot : Nat) : Bool :=
  match s.descAt id with
  | some a => let d := s.imgRd a
    dType d = 3 && dOffset d = slot && dSafe d
  | none => false

/-- A receive entry with its REQ_SAFE: 1 where a descriptor of its slot has CLASS = 1 (R357). -/
def State.reqSafe (s : State) (tab : List (BitVec 64)) (v : BitVec 64) : BitVec 64 :=
  setBits v 21 1 (b2n (tab.any fun u => natBit u.toNat 53 && natBits u.toNat 39 14 = natBits v.toNat 39 14
    && s.slotSafe (natBits u.toNat 0 21) (natBits v.toNat 39 14)))

/-- The four tables of FABRIC (R357, R375) and CFG_HASH. -/
def State.loadFabric (s : State) (b : Nat) : State :=
  let tabs : List (List (BitVec 64)) := match s.sect b 0x08 with
    | some x =>
      let tab (t : Nat) := s.countedTable (s.kthTable (s.tablesAt x) t)
      [(tab 0).map (s.reqSafe (tab 0)), tab 1, tab 2, tab 3]
    | none => []
  (s.modFab fun f => { f with
    tbl := tabs.zipIdx.foldl (fun t x => x.1.zipIdx.foldl (fun u e => Tab.set (fun _ => 0) u (16384 * x.2 + e.2) e.1) t) []
    tblCnt := tabs.zipIdx.foldl (fun t x => Tab.set (fun _ => 0) t x.2 x.1.length) []
    safeBits := [] }).wrN rFab_CFG_HASH (s.fabHash b)

/-- Connection `c` of CONNECTIONS (R399, R441). -/
def State.connRec (s : State) (a : Nat) : Conn := { Conn.reset with
  cfg := Mem.w32 s.mem.flash a
  id := s.fl (a + 4) 4
  wd := s.fl (a + 8) 4
  dstIp := s.fl (a + 12) 4
  nextHop := beNat (Mem.bytes s.mem.flash (a + 16) 6)
  dstMac := beNat (Mem.bytes s.mem.flash (a + 22) 6) }

/-- What CONNECTIONS gives a connection. -/
def Conn.config (x : Conn) : Word × Nat × Nat × Nat × Nat × Nat := (x.cfg, x.id, x.wd, x.dstIp, x.nextHop, x.dstMac)

/-- CONNECTIONS: 64 records and two tables; a connection whose record is as before stays as it stands (R382). -/
def State.loadConns (s : State) (b : Nat) : State :=
  match s.sect b 0x09 with
  | some x =>
    let a := s.tablesAt x
    let rx := s.countedTable (a + 2048)
    let tx := s.countedTable (s.kthTable (a + 2048) 1)
    let put (base : Nat) (l : List (BitVec 64)) (t : Tab (BitVec 64)) : Tab (BitVec 64) :=
      l.zipIdx.foldl (fun u e => Tab.set (fun _ => 0) u (base + e.2) e.1) t
    let s1 := s.each (List.range 64) fun y c =>
      let n := s.connRec (a + 32 * c)
      if n.config = (y.conn c).config then y else y.modConn c fun _ => n
    s1.modNet fun n => { n with
      tbl := put 8192 tx (put 0 rx [])
      tblCnt := Tab.set (fun _ => 0) (Tab.set (fun _ => 0) [] 0 rx.length) 1 tx.length }
  | none => (s.each (List.range 64) fun y c => y.modConn c fun _ => Conn.reset).modNet fun n => { n with
      tbl := []
      tblCnt := [] }

/-- A policy record of FAULT_POLICY (R463, R480). -/
def State.polRec (s : State) (x : Sect) (n : Nat) : BitVec 64 := Mem.w64 s.mem.flash (x.at_ + 8 * n)

def State.loadPolicies (s : State) (x : Sect) : State := s.each (List.range 1024) fun y n => y.setPol n (s.polRec x n)

/-- ROLES: a record takes the place of the verifier held only if its PW_GEN is greater (R436). -/
def State.loadRoles (s : State) (b : Nat) : State :=
  match s.sect b 0x0C with
  | some x => s.each ((List.range (x.len / 64)).map fun i => x.at_ + 64 * i) fun y a =>
      let role := s.fl a 1
      let p := s.fl (a + 1) 1 % 16
      let old := y.roleRec role p
      let gen := s.fl (a + 4) 4
      let new : RoleRec :=
        ⟨true, natBit (s.fl (a + 2) 1) 0, gen, s.fl (a + 8) 4, BitVec.ofNat 128 (s.fl (a + 12) 16), BitVec.ofNat 256 (s.fl (a + 28) 32)⟩
      if role = 0 || 4 ≤ role || (old.present && gen ≤ old.pwGen) then y
      else y.modCfg fun c => { c with roles := Tab.set (fun _ => RoleRec.reset) c.roles (roleKey role p) new }
  | none => s

/-! What the configuration fixes beside the sections -/

/-- Worst case of a channel, mW (R289, R314). -/
def State.chBudget (s : State) (n : Nat) : Nat :=
  let sup := 50 * b2n (s.bit (rCh_DI_CFG n) 14)
  match s.role n with
  | 1 => 80 + sup
  | 2 => 50
  | 3 => 120
  | 4 => 120
  | 5 => 80 + 50 * b2n (s.bit (rCh_DI_CFG n) 14 || s.bit (rCh_EDGE_CFG n) 16)
  | 6 => 70
  | 8 => 40
  | 9 => if s.bit (rCh_AN_CFG n) 11 then 150 else 80
  | 10 => 40
  | 11 => 40
  | 12 => 10
  | 13 => 200
  | 14 => 120
  | _ => 10

/-- P_BUDGET and TRANSIT of a bank (R272, R289, R294): a pair's second channel shows its even partner's slot. -/
def State.bankFigures (s : State) (b : Nat) : State :=
  let sum := (List.range 8).foldl (fun t c => t + s.chBudget (8 * b + c)) 0
  let slot (c : Nat) : Nat :=
    let n := 8 * b + c
    let e := if s.role n = 4 then n - 1 else n
    if s.pulses e then s.transitSlot e else 15
  (s.wrN (rBank_P_BUDGET b) sum).wrN (rBank_TRANSIT b) ((List.range 8).foldl (fun t c => t + slot c * 16 ^ c) 0)

/-- Does the configuration use the block of a page (R31)? The blocks the Almanac does not configure, XFER among them, always run
(log 158). -/
def State.pageUsed (s : State) (pg : Nat) : Bool :=
  match pageBlock pg with
  | some (.part, p) => s.ptConfigured p
  | some (.pair, n) => s.anyEntry n fun _ => true
  | some (.ch, n) => s.role n ≠ 0
  | some (.bank, b) => anyBelow 8 fun c => s.role (8 * b + c) ≠ 0
  | some (.spd, u) => s.spdMode u ≠ 0
  | some (.tmr, g) => anyBelow 16 fun i => s.tMode (16 * g + i) ≠ 0
  | some (.fab, _) => s.fabOn
  | some (.port, p) => s.bit (rPort_PT_CFG p) 0
  | some (.lane, l) => (lanePort l).any fun p => s.bit (rPort_PT_CFG p) 0
  | some (.eth, k) => s.ethOn k
  | some (.safe, _) => anyBelow 64 fun c => (s.conn c).cfg.getLsbD 0
  | some _ => true
  | none => false

/-- Owners, EN and LOCKED of every page (R31, R550). -/
def State.setPages (s : State) : State :=
  let used := allPages.filter s.pageUsed
  let s1 := s.each allPages fun y pg =>
    let y1 := match pageBlock pg with
      | some (.part, p) => y.setFld (rPg_OWNER pg) 0 8 (p + 128)
      | some (.spd, u) => if y.spdMode u = 0 then y.setFld (rPg_OWNER pg) 0 8 0 else y
      | _ => y
    (y1.setBit (rPg_PG_CTRL pg) 0 (used.contains pg)).setBit (rPg_PG_STAT pg) 1 true
  s1.modCfg fun c => { c with used := used }

/-- The machine with every section of the image at `b` applied, section by section in order. -/
def State.applyImage (s : State) (b : Nat) : State :=
  let on (sid : Nat) (f : State → Sect → State) (y : State) : State := match s.sect b sid with
    | some x => f y x
    | none => y
  let recs (sid : Nat) (y : State) : State := y.each (s.sectRecs b sid) State.putRec
  let s1 := on 0x02 State.loadParts ((s.modRegs clearRwl).modEvt fun e => { e with route := [] })
  let s2 := on 0x01 State.loadSched (s1.loadA b)
  let s3 := on 0x05 State.loadMap ((s2.loadPrograms b).loadLists b)
  let s4 := recs 0x07 (s3.loadFb b).flashTrims
  let s5 := (recs 0x08 s4).loadFabric b
  let s6 := (recs 0x09 s5).loadConns b
  let s7 := on 0x0A State.loadPolicies s6
  let s8 := recs 0x0E ((recs 0x0B s7).loadRoles b)
  let s9 := s8.modMem fun m => { m with win := (m.img.filter fun c => decide (0x100000 ≤ c.1)) }
  (s9.each (List.range 24) State.bankFigures).setPages

end Sys2Proof.Machine
end

