-- ==== Sys2Proof/Machine/Rules.lean ====
section
/-! DEFINITION. The commit rules (R442), read off the machine as the image at `b` would make it, section by section: R89 (0x01); R57, R80,
R84, R103, R182, R369 (0x02); R143, R552 (0x03); R57, R131, R133 (0x04); R148, R158 (0x05); R200, R208, R230 to R233, R265, R312 (0x06); R20,
R248, R265 to R269, R284, R312, R338 (0x07); R357, R363 (0x08); R383, R396 (0x09); R476 (0x0A). -/

namespace Sys2Proof.Machine

open Sys2Proof

/-- The configured partitions. -/
def State.parts (s : State) : List Nat := (List.range 16).filter s.ptConfigured

/-- The VALID entries of a pair, and the entries of a partition, each with its pair. -/
def State.entriesOf (s : State) (n : Nat) : List Nat := (List.range 64).filter fun e => s.bit (rPair_SE_W0 n e) 4
def State.partEntries (s : State) (p : Nat) : List (Nat × Nat) :=
  allEntries.filter fun x => s.bit (rPair_SE_W0 x.1 x.2) 4 && s.sePart x.1 x.2 = p

/-- Does an index lie in a partition's program window (R81)? `[base, base + size)` of two lists of words or bytes do not meet. -/
def apart (a n b m : Nat) : Bool := decide (a + n ≤ b) || decide (b + m ≤ a)

/-! 0x01 SCHEDULE (R89) -/

/-- Rules 1, 2 and 9 for a partition. -/
def State.schedPart (s : State) (p : Nat) : Bool :=
  let es := s.partEntries p
  let seqs := es.map fun x => s.fld (rPair_SE_W0 x.1 x.2) 20 2
  decide (1 ≤ es.length) && decide (es.length ≤ 4) && (es.all fun x => x.1 = s.ptPair p)
  && ((List.range es.length).all fun k => seqs.contains k)
  && es.all fun x => s.sePer x.1 x.2 = s.fld (rPart_PT_CFG p) 8 4

/-- Rules 2, 3, 5, 6 and 7 for an entry, 5 and 6 at grade `g`. -/
def State.schedEntryOk (s : State) (g n e : Nat) : Bool :=
  let p := s.sePart n e
  let win := s.fld (rPair_SE_W1 n e) 16 13
  decide (s.sePer n e ≤ 8) && decide (s.sePhase n e < 2 ^ s.sePer n e) && decide (1 ≤ win) && decide (s.seStart n e + win ≤ 6250)
  && (s.sePhase n e ≠ 0 || 200 ≤ s.seStart n e) && s.rule5 n e g && s.rule6 n e g
  && s.ptConfigured p && s.inPgm p (s.fld (rPair_SE_W3 n e) 0 17)

/-- Rule 4: two entries of a pair that can run in one minor frame do not overlap. -/
def State.schedApart (s : State) (n e f : Nat) : Bool :=
  let k := 2 ^ min (s.sePer n e) (s.sePer n f)
  s.sePhase n e % k ≠ s.sePhase n f % k
  || apart (s.seStart n e) (s.fld (rPair_SE_W1 n e) 16 13) (s.seStart n f) (s.fld (rPair_SE_W1 n f) 16 13)

/-- The grade in force at the commit boundary: the present one, or the new ceiling below it (R89, R498). -/
def State.commitGrade (s : State) : Nat := max (Grade.code s.dev.grade) s.vnCeil

def State.ruleSchedule (s : State) (b : Nat) : Bool :=
  let g := s.commitGrade
  s.parts.all s.schedPart
  && ((List.range 4).all fun n =>
    let es := s.entriesOf n
    (es.all (s.schedEntryOk g n)) && es.all fun e => es.all fun f => e = f || s.schedApart n e f)
  && ((List.range 4).all fun n => !(s.parts.any fun p => s.ptPair p = n && s.ptSafe p)
    || !(s.parts.any fun p => s.ptPair p = n && s.bit (rPart_PT_CFG p) 6))
  && decide (s.mfLog2 = s.parts.foldl (fun m p => max m (s.fld (rPart_PT_CFG p) 8 4)) 0)
  && (match s.sect b 0x01 with
    | some x => (schedRecs x).all fun a => s.schedPair a < 4 && s.schedEntry a < 64
    | none => false)

/-! 0x02 PARTITIONS -/

/-- 64-byte lines of a window that the slots of a partition's program in a bank can write (R182). -/
def State.bankLines (s : State) (p bank : Nat) : Nat :=
  let ws := (s.scanBank p bank).map (·.1)
  let lines (base size i : Nat) : List Nat := [(base + size * i) / 64, (base + size * i + size - 1) / 64]
  let ls := ws.flatMap fun w =>
    if wOp w = 5 then lines (s.winHdr p 36) 8 (wImm w % 1024)
    else if 0x18 ≤ wOp w && wOp w ≤ 0x1A then lines (s.winHdr p 28) 32 (wImm w % 256)
    else if wOp w = 0x1C then lines (s.winHdr p 20) 64 (wInst w)
    else []
  ls.eraseDups.length

/-- The most lines that a program of the partition can write: the one in force after the commit, or the alternate one of the image at `b`
that a SWAP puts in its place (R97, R98, R182). -/
def State.mirrorLines (s : State) (b p : Nat) : Nat :=
  max (s.bankLines p (s.actBank p))
    (if (s.imgPrograms b).any fun x => x.1 = p && x.2.1 then s.bankLines p (1 - s.actBank p) else 0)

/-- Bytes of the mirror sets that can end in minor frame `m` (R181, R182). -/
def State.mirrorBytes (s : State) (b m : Nat) : Nat :=
  (allEntries.filter fun x => s.bit (rPair_SE_W0 x.1 x.2) 4 && s.bit (rPart_PT_CFG (s.sePart x.1 x.2)) 1
      && m % 2 ^ s.sePer x.1 x.2 = s.sePhase x.1 x.2).foldl
    (fun t x => t + 1036 + 68 * s.mirrorLines b (s.sePart x.1 x.2)) 0

/-- The entries of a mirror partition have the PER_LOG2, PHASE and START of the home entries (R369; log 41). -/
def State.standbyOk (s : State) (p : Nat) : Bool :=
  !s.bit (rPart_PT_CFG p) 3 || (s.partEntries p).all fun x =>
    Config.homeEntry p (s.fld (rPair_SE_W0 x.1 x.2) 20 2) = (s.sePer x.1 x.2, s.sePhase x.1 x.2, s.seStart x.1 x.2)

/-- R80, R84, R89 rule 10 and R103 for a partition. -/
def State.partOk (s : State) (p : Nat) : Bool :=
  let cfg := s.rd (rPart_PT_CFG p)
  decide (0x100000 ≤ s.winBase p) && decide (s.winBase p + s.winSize p ≤ 0x200000)
  && decide (s.fld (rPart_PGM_BASE p) 0 17 + s.fld (rPart_PGM_SIZE p) 0 18 ≤ 131072)
  && (!s.ptSafe p || s.ptTrapRx p < 2) && (!s.ptEssential p || s.ptSafe p) && decide (natBits cfg.toNat 8 4 ≤ 8)

def State.rulePartitions (s : State) (b : Nat) : Bool :=
  let ps := s.parts
  ps.all s.partOk && ps.all s.standbyOk
  && (ps.all fun p => ps.all fun q => p = q || (apart (s.winBase p) (s.winSize p) (s.winBase q) (s.winSize q)
    && (s.ptPair p ≠ s.ptPair q || apart (s.fld (rPart_PGM_BASE p) 0 17) (s.fld (rPart_PGM_SIZE p) 0 18)
      (s.fld (rPart_PGM_BASE q) 0 17) (s.fld (rPart_PGM_SIZE q) 0 18))))
  && (match s.sect b 0x02 with
    | some x => ((List.range 256).all fun i => (s.prodOf x i).length ≤ 1) && (List.range 16).all fun p => s.partValid x p == s.ptConfigured p
    | none => false)
  && (ps.all fun p => !s.bit (rPart_PT_CFG p) 3 || (List.range 16).all fun q => q = p || s.aP q ≠ s.aP p)
  && (List.range (2 ^ s.mfLog2)).all fun m => s.mirrorBytes b m ≤ 131072

/-! 0x03 PROGRAMS -/

/-- Export entries of a partition with SAFE_INT. -/
def State.safeInts (s : State) (p : Nat) : List Nat :=
  (List.range (s.winHdr p 16)).filter fun x => natBit (Mem.w32 s.mem.img (s.expAt p x)).toNat 10

def State.programOk (s : State) (p : Nat) (ws : List Word) : Bool :=
  !(ws.any (wRestricted (s.ptSafe p) (s.safeInts p))) && !loopNested 0 ws

/-- Section 0x03 and R143, R552 for every program. The words of a window beyond a shorter block of the image are those its bank held; they are
judged with it (log 166). -/
def State.rulePrograms (s : State) (b : Nat) : Bool :=
  (s.parts.all fun p => s.programOk p (s.program p (s.actBank p)))
  && (s.imgPrograms b).all fun x => s.ptConfigured x.1 && decide (x.2.2.length ≤ s.fld (rPart_PGM_SIZE x.1) 0 18) && s.programOk x.1 x.2.2

/-! 0x04 LISTS -/

def State.listOk (s : State) (p : Nat) : Bool :=
  let idx x := natBits (Mem.w32 s.mem.img (s.expAt p x)).toNat 0 9
  s.winOk p
  && ((List.range (s.winHdr p 8)).all fun e => s.importId p e % 512 < 249 || 256 ≤ s.importId p e % 512)
  && ((List.range (s.winHdr p 16)).all fun x => s.producer (idx x) = some p && (List.range x).all fun y => idx y ≠ idx x)
  && (s.ptSafe p || (s.safeInts p).isEmpty)

def State.ruleLists (s : State) (b : Nat) : Bool :=
  s.parts.all s.listOk && (s.imgLists b).all fun x => s.ptConfigured x.1 && decide (x.2.2 ≤ s.winSize x.1)

/-! 0x05 MAP (R148, R158) -/

/-- Does a receive slot belong to an ID (rule 4)? -/
def State.slotOf (s : State) (id : Nat) (d : Csw) : Bool :=
  match dType d with
  | 3 => (List.range (s.fabCount 0)).any fun e => feValid (s.fabEntry 0 e) && feId (s.fabEntry 0 e) = id && feSlot (s.fabEntry 0 e) = dOffset d
  | 4 => (List.range (Tab.get (fun _ => 0) s.net.tblCnt 0)).any fun e =>
      natBit (s.safeEntry e) 44 && natBits (s.safeEntry e) 0 21 = id && natBits (s.safeEntry e) 34 10 = dOffset d
  | _ => true

/-- Rules 2 to 6 for a descriptor. -/
def State.descRule (s : State) (id : Nat) (d : Csw) : Bool :=
  let t := dType d
  dOk d id && (if t = 0 then d.toNat % 2 ^ 56 = 0
    else s.descOk id d && s.slotOf id d && ((t ≠ 3 && t ≠ 4) || id / 512 ≠ s.dev.slot.toNat)
      && (t ≠ 6 || (rslEntry (dOffset d)).isSome) && (dSafe d || !(anyBelow 16 fun p => dPerm d p && s.ptSafe p)))

/-- Rule 6 for level 1, and the page it names. -/
def State.l1Rule (s : State) (j : Nat) : Bool :=
  let e := s.imgRd (l1At j)
  l1Ok e j && (if l1Valid e then
      decide (0x30000 ≤ l1Ptr e) && decide (l1Ptr e ≤ 0xFF000) && decide (l1Ptr e % 4096 = 0) && decide (natBits e.toNat 33 23 = 0)
      && (List.range 512).all fun i => s.descRule (512 * j + i) (s.imgRd (l1Ptr e + 8 * i))
    else e.toNat % 2 ^ 56 = 0)

/-- Rules 1 and 2 for an import. -/
def State.importRule (s : State) (p id : Nat) : Bool :=
  match s.descAt id with
  | some a =>
    let d := s.imgRd a
    1 ≤ dType d && dType d ≤ 6 && dPerm d p && (!s.ptSafe p || dSafe d)
  | none => false

def State.ruleMap (s : State) (b : Nat) : Bool :=
  (List.range 4096).all s.l1Rule
  && (match s.sect b 0x05 with
    | some x => let ps := (s.mapPages x).map (·.1)
      decide (ps.eraseDups.length = ps.length)
    | none => false)
  && s.parts.all fun p => (List.range (s.winHdr p 8)).all fun e => s.importRule p (s.importId p e)

/-! 0x06 FBPARAM (R200, R208, R230 to R233, R247, R265) -/

/-- The partitions a function's chain may hold: its publisher, and with two the partitions of the first's period (log 61). -/
def State.chain (s : State) (f : FnRec) : List Nat :=
  if f.per2 = 15 then [f.part] else (s.parts.filter fun q => q ≠ f.part && s.fld (rPart_PT_CFG q) 8 4 = f.per1) ++ [f.part]

/-- SCALE of a unit's value in hundredths of a revolution per minute (R251). -/
def State.spdScale (s : State) (u : Nat) : Nat :=
  match s.fld (rSpd_SPD_CFG u) 4 2 with
  | 0 => 1
  | 1 => 10
  | _ => 100

/-- The SPEED and FAN instances of some partitions that read a unit. -/
def State.unitBlocks (s : State) (ps : List Nat) (u : Nat) : List FbRec :=
  ps.flatMap fun p => ((s.speedBlocks p).filter fun x => x.2.2.contains (s.selfId (192 + u))).map fun x =>
    fbRec (Mem.bytes s.mem.img (s.fbAt p x.2.1) 64)

/-- The limits that they have in use. -/
def State.unitLimits (s : State) (ps : List Nat) (u : Nat) : List Nat := (s.unitBlocks ps u).flatMap fbLimits

/-- The longest edge filter of a unit's channels, rounded up to 10 µs, in ticks (R247). -/
def State.unitFilt (s : State) (u : Nat) : Nat :=
  (s.spdChans u).foldl (fun m c => max m ((10 * s.fld (rCh_EDGE_CFG c) 0 16 + 999) / 1000 * 1000)) 0

/-- t_filter + t_sample of a function, ticks (R231, R247, R300); none where the chain uses no limit. -/
def State.fnSample (s : State) (f : FnRec) : Option Nat :=
  match f.kind with
  | 0 => some (1000 * f.filt + 1000)
  | 1 => some (s.seqPeriod (f.src / 8) + s.slotTicks f.src)
  | _ =>
    if s.spdMode f.src = 3 then some (1000 * f.filt + 6450)
    else match (s.unitLimits (s.chain f) f.src).filter (· ≠ 0) with
      | [] => none
      | x :: xs =>
        let k := s.fld (rSpd_SPD_CFG f.src) 8 4 + 1
        let d := s.ppr f.src * (xs.foldl min x * s.spdScale f.src)
        some (1000 * f.filt + 6250 + (600000000000 * k + d - 1) / d)

/-- The bound of a function, µs (R231); none where the chain uses no limit of its unit. -/
def State.fnBound (s : State) (f : FnRec) : Option Nat :=
  let qs := if f.per2 = 15 then [f.per1] else [f.per1, f.per2]
  let cyc := qs.map fun k => 6250 * 2 ^ k
  (s.fnSample f).map fun t0 =>
    (t0 + 2 * cyc.foldl (· + ·) 0 + cyc.foldl max 0 + 35 * f.hops + 12500 * f.cross + 100 * f.wd
      + (if f.outKind = 0 then 20000 else 100000) + 99) / 100

/-- FN_REACT_WC of a function; 0xFF_FFFF where it is not computed. -/
def State.fnReact (s : State) (f : FnRec) : Nat := min ((s.fnBound f).getD 0xFFFFFF) 0xFFFFFF

/-- Publish every bound and limit; a function that is not published has none (R103, R233). -/
def State.setReact (s : State) (b : Nat) : State :=
  let none_ := s.each (List.range 16) fun x p => x.each (List.range 32) fun y f => y.wrN (rPart_FN_REACT_WC p f) 0xFFFFFF
  none_.each ((s.fnRecs b).filter fun f => s.ptConfigured f.part) fun x f =>
    (x.wrN (rPart_FN_REACT_WC f.part f.fn) (s.fnReact f)).wrN (rPart_FN_REACT_LIM f.part f.fn) (f.lim % 2 ^ 24)

/-- The sum of CONN_WD over the connections a function's chain crosses (R396; log 61). -/
def State.legsWd (s : State) (f : FnRec) : Nat := (Config.fnLegs f.part f.fn).foldl (fun n c => n + (s.conn c.val).wd) 0

/-- The test code that feeds a DI channel. -/
def State.codeOf (s : State) (n : Nat) : Option Nat := (s.tpSrc n).map fun t => s.fld (rCh_TP_CFG t) 0 3

/-- The first partition of a function's chain: its publisher, or with two a partition of PER_1's period that imports the source; the Almanac
does not name it, so each such partition has to meet what the rule asks of the first (log 61). -/
def State.firstParts (s : State) (f : FnRec) : List Nat :=
  if f.per2 = 15 then [f.part] else s.parts.filter fun q => q ≠ f.part && s.fld (rPart_PT_CFG q) 8 4 = f.per1
    && (List.range (s.winHdr q 8)).any fun e => s.importId q e = s.selfId f.src

/-- R265 for a function of a digital channel. -/
def State.fnFilt (s : State) (f : FnRec) : Bool :=
  let filt := s.fld (rCh_DI_CFG f.src) 0 13
  let two := (f.blk = 1 || f.blk = 2 || f.blk = 3 || f.blk = 4 || f.blk = 7 || f.blk = 9) && f.src2 < 192
    && (s.codeOf f.src2).isSome && s.codeOf f.src2 ≠ s.codeOf f.src
    && !(s.firstParts f).isEmpty && (s.firstParts f).all fun p => s.pairRead p f.blk (s.selfId f.src) (s.selfId f.src2)
  decide (filt ≤ f.filt)
  && ((s.codeOf f.src).isNone || two || decide (filt + 56 + 2 * s.fld (rCh_X_TPMASK f.src) 0 5 ≤ f.filt))

/-- R230 to R233, R247 and R265 for a function; t_filter of a speed unit is not less than its channels' edge filters (log 164). -/
def State.fnOk (s : State) (f : FnRec) : Bool :=
  s.ptConfigured f.part && decide (f.kind ≤ 2) && decide (f.outKind ≤ 1) && decide (f.per1 ≤ 8) && (f.per2 = 15 || f.per2 ≤ 8)
  && decide (f.src < (if f.kind = 2 then 32 else 192)) && decide (f.cross ≤ 15) && decide (f.lim < 2 ^ 24)
  && decide ((s.fnBound f).getD 0xFFFFFF ≤ f.lim) && decide (s.legsWd f ≤ f.wd) && (f.kind ≠ 0 || s.fnFilt f)
  && (f.kind ≠ 1 || f.filt = 0) && (f.kind ≠ 2 || decide (s.unitFilt f.src ≤ 1000 * f.filt))

/-- Section 0x06 (R200, R208, R230 to R233); a GROUP lies in a SAFE partition with a period of 62.5 µs (R225). -/
def State.ruleFb (s : State) (b : Nat) : Bool :=
  (match s.sect b 0x06 with
    | some x => decide (68 * s.fbRecords ≤ x.len) && decide ((x.len - 68 * s.fbRecords) % 20 = 0)
      && (List.range s.fbRecords).all (fun i => s.fl (x.at_ + 68 * i + 1) 1 = 0)
      && ((List.range s.fbRecords).map (s.fbRecordAt x)).all fun r =>
        let f := fbRec r.2.2
        s.ptConfigured r.1 && decide (r.2.1 < s.winHdr r.1 24) && fbParamOk (s.imgExpert b) f
        && (f.code ≠ 18 || (s.ptSafe r.1 && s.fld (rPart_PT_CFG r.1) 8 4 = 0 && s.groupWired r.1 r.2.1 f.w0 f.opt8))
    | none => s.fbRecords = 0)
  && (s.fnRecs b).all s.fnOk

/-! 0x07 CHANNELS -/

/-- Does a SAFE partition import a local index? -/
def State.safeReads (s : State) (idx : Nat) : Bool :=
  s.parts.any fun p => s.ptSafe p && (List.range (s.winHdr p 8)).any fun e => s.importId p e = s.selfId idx

/-- Does the binding of an output meet R266? `bind`: the index; `per`: OP_PER is one a SAFE output may have. -/
def State.bindOk (s : State) (n bind : Nat) (per : Bool) : Bool :=
  match s.chOwner n with
  | none => false
  | some p => s.producer bind = some p && (!s.bit (rCh_CH_CFG n) 4 || (s.ptSafe p && per && s.exportSafe bind))

/-- R265 to R269 for a digital channel. -/
def State.chDigital (s : State) (n : Nat) : Bool :=
  let tp := s.fld (rCh_DI_CFG n) 16 8
  let par := s.bit (rCh_DO_CFG n) 9
  (s.role n ≠ 1 || tp = 255 || (decide (tp < 192) && s.role tp = 2 && tp / 48 = n / 48))
  && decide (s.fld (rCh_X_TPMASK n) 0 5 ≤ 22)
  && (s.role n ≠ 3 || (s.bindOk n (s.fld (rCh_DO_CFG n) 0 9) (s.fld (rCh_DO_CFG n) 12 3 ≠ 7)
    && (!par || n % 2 = 1 || s.role (n + 1) = 4)
    && (!s.bit (rCh_DO_CFG n) 10 || ((s.chOwner n).any fun p => (s.groupOuts p).any fun x => x.2 = s.fld (rCh_DO_CFG n) 0 9))))
  && (s.role n = 4 || !par || n % 2 = 0)
  && (s.role n ≠ 4 || (n % 2 = 1 && s.role (n - 1) = 3 && s.bit (rCh_DO_CFG (n - 1)) 9))

/-- R312 for an analogue channel, and the references of trims and substitutes. -/
def State.chAnalogue (s : State) (n : Nat) : Bool :=
  let r := s.role n
  let wired (m : Nat) : Bool := s.role m = 10 && s.anWires m ≠ 0
  let cj := s.fld (rCh_AN_CFG n) 16 8
  let ref (i : Nat) : Int := if s.anSigned n then asSigned 16 (s.fld (rCh_TRIM_REFS n) (16 * i) 16) else (s.fld (rCh_TRIM_REFS n) (16 * i) 16 : Nat)
  let band (x : Int) : Bool := if r = 9 && s.anRange n ≠ 0 then 3800 ≤ x && x ≤ 20500 else s.inRange n x
  let button (i : Nat) : Bool :=
    let k := s.fld (rCh_TRIM_BTN n) (8 * i) 8
    band (ref i) && (k = 255 || (decide (k < 192) && s.role k = 1 && (s.chOwner k).isSome && s.chOwner k = s.chOwner n))
  let subv := s.fld (rCh_AO_SUBV n) 0 16
  let sub := (if r = 14 then decide (subv ≤ 10000)
    else decide (subv ≤ 20500) && (!s.bit (rCh_AO_CFG n) 9 || decide (3800 ≤ subv)))
  (!(wired n) || (n % 2 = 0 && s.role (n + 1) = 12)) && (r ≠ 12 || (n % 2 = 1 && wired (n - 1)))
  && (r ≠ 11 || ((decide (cj < 192) && s.role cj = 10 && cj / 48 = n / 48) && (s.bit (rCh_AN_CFG n) 12 || !s.safeReads n)))
  && (!s.isAi n || (button 0 && button 1))
  && (!(r = 13 || r = 14) || (sub && s.bindOk n (s.fld (rCh_AO_CFG n) 0 9) true))

/-- R20, R312 and R338 for a bank's sequence. -/
def State.bankOk7 (s : State) (b : Nat) : Bool :=
  let l := s.seqTicks b
  let t := s.fld (rBank_SEQ_CFG b) 1 6
  let p := s.seqPeriod b
  decide ((s.rd (rBank_P_BUDGET b)).toNat ≤ 1000) && decide (l ≤ 20000000)
  && (!s.bit (rBank_SEQ_CFG b) 0 || (decide (t < 48) && decide (l ≤ p) && decide (p ≤ 20000000)
    && s.tMode t = 2 && s.bit (rTmr_T_CFG t) 9 && !s.tChain t
    && (s.ownerAt (rTmr_T_CFG t)).isSome && anyBelow 8 fun c => s.chOwner (8 * b + c) = s.ownerAt (rTmr_T_CFG t)))

/-- R248 and R284 for a speed unit. -/
def State.unitOk (s : State) (u : Nat) : Bool :=
  let mode := s.spdMode u
  let own := s.ownerAt (rSpd_SPD_CFG u)
  let ch i := s.fld (rSpd_SPD_CH u) (8 * i) 8
  let lims := s.unitLimits s.parts u
  let hi := lims.foldl max 0 * s.spdScale u
  let safe := s.safeReads (192 + u)
  let safeUnit := own.any s.ptSafe
  let win i := s.bit (rSpd_WIN u i) 31
  (mode = 0 || (own.isSome && (List.range (if mode = 1 then 1 else if mode = 2 then 2 else 3)).all fun i =>
        decide (ch i < 192) && s.chOwner (ch i) = own && (s.role (ch i) = 5 || s.role (ch i) = 6)
        && decide (s.fld (rCh_EDGE_CFG (ch i)) 0 16 * s.ppr u * hi ≤ 15000000000)
        && (s.role (ch i) ≠ 6 || s.bit (rCh_EDGE_CFG (ch i)) 17 || !safeUnit)))
      && (mode ≤ 1 || ch 0 ≠ ch 1) && decide (1 ≤ s.ppr u) && decide (s.ppr u ≤ 10000)
      && decide (10 ≤ s.fld (rSpd_T_STAND u) 0 16) && decide (s.fld (rSpd_T_STAND u) 0 16 ≤ 60000)
      && decide (2 ≤ s.fld (rSpd_MOTION u) 0 5) && decide (s.fld (rSpd_MOTION u) 0 5 ≤ 16)
      && (mode = 2 || s.fld (rSpd_MOTION u) 16 16 = 0) && (mode = 3 || !(anyBelow 4 win))
      && (mode = 0 || s.role (ch 0) ≠ 5 || !safe || s.fld (rSpd_DECEL_MAX u) 0 16 ≠ 0)
      && ((s.unitBlocks s.parts u).all fun r => (fbHasLimits r).all (· ≤ 32766))
      && allBelow 4 fun i => !win i || (decide (s.fld (rSpd_WIN u i) 0 14 < s.ppr u) && decide (s.fld (rSpd_WIN u i) 16 14 < s.ppr u)
        && decide (1 ≤ s.fld (rSpd_DWELL u i) 0 16) && decide (s.fld (rSpd_DWELL u i) 0 16 ≤ 60000))

/-- R338 for a timer. -/
def State.timerOk (s : State) (t : Nat) : Bool :=
  let own (k : Nat) : Option Nat := s.ownerAt (rTmr_T_CFG k)
  let sel := s.fld (rTmr_CAP_CFG t) 8 8
  let src := s.fld (rTmr_CAP_CFG t) 0 3
  let tgt := s.fld (rTmr_TRIG t) 0 6
  (!s.tChain t || (t ≠ 0 && own (t - 1) = own t))
  && (s.fld (rTmr_TRIG t) 6 2 = 0 || (decide (tgt < 48) && own tgt = own t))
  && (src = 0 || 5 ≤ src || (if src = 4 then decide (sel < 48) && own sel = own t else decide (sel < 192) && s.chOwner sel = own t))
  && (!(s.tMode t = 2 || s.tMode t = 3) || decide ((s.rd (rTmr_PHASE t)).toNat ≤ s.tCmp t))

def State.ruleChannels (s : State) : Bool :=
  (allBelow 192 fun n => s.role n ≠ 7 && s.role n ≠ 15 && s.chDigital n && s.chAnalogue n)
  && allBelow 24 s.bankOk7 && allBelow 32 s.unitOk && allBelow 48 s.timerOk

/-! 0x08 FABRIC, 0x09 CONNECTIONS -/

/-- Is every window of a partition short enough (R363, R396)? -/
def State.winShort (s : State) (p : Nat) : Bool :=
  (s.partEntries p).all fun x => s.fld (rPair_SE_W1 x.1 x.2) 16 13 + 50 ≤ 3125 * 2 ^ s.sePer x.1 x.2

/-- Does a partition import through a descriptor of a type? -/
def State.importsBy (s : State) (p t : Nat) : Bool :=
  (List.range (s.winHdr p 8)).any fun e => match s.descAt (s.importId p e) with
    | some a => dType (s.imgRd a) = t
    | none => false

/-- The export table holds the produced indices of the export entries with FAB = 1, each with its entry's SAFE_INT, and no other (R116, R133,
R355; log 138). -/
def State.exportsOk (s : State) : Bool :=
  let fab := s.parts.flatMap fun p => (List.range (s.winHdr p 16)).filterMap fun x =>
    let w := (Mem.w32 s.mem.img (s.expAt p x)).toNat
    if natBit w 9 then some (natBits w 0 9, natBit w 10) else none
  let tbl := ((List.range (s.fabCount 1)).map fun e => (natBits (s.fabEntry 1 e) 0 9, natBit (s.fabEntry 1 e) 9)).filter (256 ≤ ·.1)
  tbl.all fab.contains && fab.all tbl.contains

/-- Two receive entries name one slot only for the same ID, one from the home device and the other from the buddy, the member next to it
(R357, R368). -/
def State.slotShared (s : State) (v w : Nat) : Bool :=
  let home := feId v / 512 % 32
  let buddy (k : Nat) : Bool := k = s.nextPos home true || k = s.nextPos home false
  feId v = feId w && !feSpine v && !feSpine w && feOrigin v ≠ feOrigin w
    && ((feOrigin v = home && buddy (feOrigin w)) || (feOrigin w = home && buddy (feOrigin v)))

/-- R357 for the receive table. -/
def State.rxTableOk (s : State) : Bool :=
  let tab := ((List.range (s.fabCount 0)).map (s.fabEntry 0)).filter feValid
  (List.range tab.length).all fun i => (List.range i).all fun j =>
    feSlot (tab.getD i 0) ≠ feSlot (tab.getD j 0) || s.slotShared (tab.getD i 0) (tab.getD j 0)

/-- R357, R363, and the export table. -/
def State.ruleFabric (s : State) : Bool :=
  s.exportsOk && s.rxTableOk && s.parts.all fun p => !s.ptSafe p || s.winShort p
    || !(((List.range (s.winHdr p 16)).any fun x => natBit (Mem.w32 s.mem.img (s.expAt p x)).toNat 9) || s.importsBy p 3)

/-- Wire time of a producer's frame, ns (R379, R380, R383). -/
def State.frameNs (s : State) (c k : Nat) : Nat :=
  let x := s.conn c
  let pdu := 48 + 8 * s.connWords c + 16 * b2n x.auth
  let body := if x.udp then 28 + pdu else max 46 pdu
  8 * (24 + max 60 (14 + 4 * b2n (s.bit (rEth_ETH_CFG k) 2) + body))

/-- R383 for a port in superframe `q`. -/
def State.wireOk (s : State) (k q : Nat) : Bool :=
  decide (((List.range 64).filter fun c =>
    let x := s.conn c
    x.cfg.getLsbD 0 && x.cfg.getLsbD 1 && x.paths k && q % 2 ^ x.txLog2 = x.txPhase).foldl (fun t c => t + s.frameNs c k) 0 ≤ 31250)

/-- R396 for a connection. -/
def State.connOk (s : State) (c : Nat) : Bool :=
  let x := s.conn c
  !x.cfg.getLsbD 0 || (decide (s.connWords c ≤ 64) && decide (250 ≤ x.wd) && decide (x.wd ≤ 10000000)
    && (!x.cfg.getLsbD 1 || decide (125 * 2 ^ x.txLog2 + 250 ≤ x.wd))
    && (List.range c).all fun d =>
      let y := s.conn d
      !y.cfg.getLsbD 0 || y.id ≠ x.id || !((x.paths 0 && y.paths 0) || (x.paths 1 && y.paths 1)))

/-- R396 for the tables. -/
def State.safeTables (s : State) : Bool :=
  let rx := ((List.range (Tab.get (fun _ => 0) s.net.tblCnt 0)).map s.safeEntry).filter fun v => natBit v 44
  let slots := rx.map fun v => natBits v 34 10
  let tx := ((List.range 4096).map fun e => s.safeEntry (8192 + e)).filter fun v => natBit v 22
  let prod (v : Nat) : Option Nat := if natBit v 0 || natBits v 1 14 < 256 then none else s.producer (natBits v 1 14)
  decide (slots.eraseDups.length = slots.length)
  && (rx.all fun v => match s.descAt (natBits v 0 21) with
    | some a => dType (s.imgRd a) = 4 && dOffset (s.imgRd a) = natBits v 34 10
    | none => false)
  && (tx.all fun v => match prod v with
    | some p => s.ptSafe p || !natBit v 15
    | none => true)
  && s.parts.all fun p => !s.ptSafe p || s.winShort p || !(s.importsBy p 4 || tx.any fun v => prod v = some p)

def State.ruleConns (s : State) : Bool :=
  allBelow 64 s.connOk && s.safeTables && allBelow 2 fun k => allBelow 256 (s.wireOk k)

/-! 0x0A, and what holds of every section of register records (R441) -/

def State.rulePolicies (s : State) (b : Nat) : Bool :=
  match s.sect b 0x0A with
  | some x => allBelow 1024 fun n => s.polOk n (s.polRec x n)
  | none => false

/-- Expert registers only with FLAGS.EXPERT, and every expected PG_CRC. -/
def State.recsOk (s : State) (b sid : Nat) : Bool :=
  (s.sectRecs b sid).all fun r => if r.off = 0x3C then s.pgCrc r.pg = r.v else r.off < 0x400 || s.imgExpert b

/-- Does a section's content meet its rules? -/
def State.sectRules (s : State) (b sid : Nat) : Bool :=
  s.recsOk b sid && (match sid with
    | 0x01 => s.ruleSchedule b
    | 0x02 => s.rulePartitions b
    | 0x03 => s.rulePrograms b
    | 0x04 => s.ruleLists b
    | 0x05 => s.ruleMap b
    | 0x06 => s.ruleFb b
    | 0x07 => s.ruleChannels
    | 0x08 => s.ruleFabric
    | 0x09 => s.ruleConns
    | 0x0A => s.rulePolicies b
    | _ => true)

/-- The first section, in ascending SID, that breaks a rule (R442). -/
def State.rulesBad (s : State) (b : Nat) : Option Nat := ((List.range 14).map (· + 1)).find? fun k => !s.sectRules b k

/-- The machine as a copy in flash would make it. -/
def State.candidate (s : State) (k : Nat) : State :=
  let b := copyAt k
  ((s.modCfg fun c => { c with
    copy := k
    inForce := true }).applyImage b).setReact b

end Sys2Proof.Machine
end

