-- ==== Sys2Proof/Machine/Inject.lean ====
section
/-! DEFINITION. Fault injection (R473 to R475): INJ_CTRL, the detector driven at its input, the end of a HOLD. -/

namespace Sys2Proof.Machine

open Sys2Proof

/-! The gate (R431) -/

/-- The partition that owns the page of an injected source; for a timer channel's source the channel's. -/
def State.injOwner (s : State) (pg n : Nat) : Option Nat :=
  if 880 ≤ n ∧ n < 928 then s.ownerAt (rTmr_T_CFG (n - 880)) else s.ownerAt (page pg)

/-- What R431 asks of the lifecycle, the device mode and the owning partition. -/
def State.injGate (s : State) (pg n : Nat) : Bool :=
  (s.lcProvDep || s.lc = 3) && (s.modeIs .sync || s.modeIs .operate || s.modeIs .halted)
  && (s.lc = 3 || (match s.injOwner pg n with
    | some p => s.ptMode p = 2
    | none => s.allSafeQuiet))

/-- What R431 asks of the master. -/
def State.injPriv (s : State) (m : Master) : Bool := s.holdsExpert m && (s.lc ≠ 2 || s.holdsMA m)

/-- Is the page armed for the master (R473)? -/
def State.injArmed (s : State) (m : Master) (pg : Nat) : Bool := (s.inj pg).armedBy = some m && s.now < (s.inj pg).armedUntil

/-- RESULT of a GO (R473); the first that applies, in the order of the codes (log 62). -/
def State.injResult (s : State) (m : Master) (pg n mode dur : Nat) : Nat :=
  if !s.injArmed m pg then 1
  else if !s.injPriv m then 2
  else if !s.injGate pg n then 3
  else if srcPage n ≠ pg || (defClass n).isNone then 4
  else if (s.inj pg).hold.isSome || (s.inj pg).go.isSome then 5
  else if mode = 1 || (mode = 2 && liveCap n && dur ≠ 0) then 0
  else 6

/-! Driving a detector (R474, R475) -/

/-- The message that a detector holds is marked as injected. -/
def State.injMark (s : State) (n : Nat) : State :=
  s.modFlt fun f => { f with det := Tab.modify (fun _ => Det.reset) f.det n fun d => { d with inj := d.held } }

/-- A kind of a channel at its detector: the latching kinds of an output with what they do (R270, R274). -/
def State.injCh (s : State) (n kind : Nat) (f : Bool) : State :=
  if !f && s.isDo n && (kind = 4 || kind = 5) then
    let s1 := s.stuckHigh n (s.ch n).rb
    if kind = 5 then (s1.chHere n 5 false).chEnd n 4 false else s1
  else s.chHere n kind f

/-- A kind of a bank's Shutter at its detector (R279, R280); it is live while the injection holds it. -/
def State.injShut (s : State) (b kind : Nat) : State :=
  if kind = 1 then s.shutStuck b
  else
    let s1 := if kind = 2 then s.shutFail b else s.raise (769 + 2 * b) kind b
    (s1.modBank b fun x => { x with sl := markHere x.sl kind }).bankShow b

/-- Drive the detector of a source with a kind: through the alarm pair of a critical source, the logic of a channel, bank or speed
unit, or the mismatch sequence; of any other source, its message (log 63). The address hint is a free value (log 6). -/
def State.injDrive (s : State) (n kind : Nat) : State :=
  let hint := s.freeVal.toNat % 2 ^ 16
  let plain := (s.raiseInj n kind hint true).useFree
  if n < 18 then plain.alarmPair n
  else if 96 ≤ n ∧ n < 192 ∧ (n - 96) % 24 = 0 then
    let k := (n - 96) / 24
    if s.cmode k = 0 || s.cmode k = 5 then (s.useFree.mismatch k (hint % 8) .clean).injMark n else plain
  else if 384 ≤ n ∧ n < 768 then (s.injCh ((n - 384) / 2) kind (n % 2 = 1)).injMark n
  else if 768 ≤ n ∧ n < 816 then
    (if n % 2 = 0 then s.healthHere ((n - 768) / 2) kind else s.injShut ((n - 768) / 2) kind).injMark n
  else if 816 ≤ n ∧ n < 880 then (s.spdFault ((n - 816) / 2) kind hint).useFree.injMark n
  else plain

/-- The drive ends: the pair returns to normal, the channel's or bank's kind is absent from now on. -/
def State.injRelease (s : State) (n kind : Nat) : State :=
  if n < 18 then (if s.alm n = .alarm then s.setAlm n .normal else s)
  else if 384 ≤ n ∧ n < 768 then s.chGone ((n - 384) / 2) kind (n % 2 = 1)
  else if 768 ≤ n ∧ n < 816 then
    (if n % 2 = 0 then s.healthEnd ((n - 768) / 2) kind
     else (s.modBank ((n - 768) / 2) fun x => { x with sl := x.sl.filter (·.1 ≠ kind) }).bankShow ((n - 768) / 2))
  else s

/-- Does the real condition hold, or has an event of the source occurred in this cycle (R475)? -/
def State.injMeets (s : State) (n : Nat) : Bool := s.live n || ((s.det n).held && (s.det n).time = s.now)

/-- The entry of a GO is in flash: the injection takes effect, where R431 still permits it. -/
def State.injFire (s : State) (pg : Nat) : State :=
  match (s.inj pg).go with
  | none => s
  | some (n, kind, hold, dur) =>
    let s1 := s.modInj pg fun x => { x with go := none }
    if !s.injGate pg n then s1
    else
      let drive := !s.injMeets n
      let s2 := if drive then s1.injDrive n kind else s1
      let s3 := if drive && !hold then s2.injRelease n kind else s2
      s3.modInj pg fun x => { x with
        hold := if hold then some (n, kind, s.now + dur * 100000) else none
        driven := drive
        done := !hold
        count := satAdd 8 x.count 1 }

/-! INJ_CTRL -/

/-- A write of INJ_CTRL, R34 and R35 met. -/
def State.injCtrl (s : State) (m : Master) (pg : Nat) (v : Word) : State :=
  let n := natBits v.toNat 0 10
  let kind := natBits v.toNat 10 6
  let mode := natBits v.toNat 16 2
  let dur := natBits v.toNat 20 12
  let s1 := s.wr (rPg_INJ_CTRL pg) (v &&& 0xFFF3FFFF#32)
  if !natBit v.toNat 18 then s1
  else
    let r := s1.injResult m pg n mode dur
    let s2 := s1.modInj pg fun x => { x with result := r }
    let detail := natLe 2 n ++ natLe 1 kind ++ natLe 1 mode ++ natLe 2 dur
    let part := (s1.injOwner pg n).getD 0
    if r ≠ 0 then s2.clogNote (s2.clogRole m) part (masterNum m) r 0x40 pg detail
    else (s2.modInj pg fun x => { x with
      armedBy := none
      go := some (n, kind, mode = 2, dur)
      giver := some m
      done := false }).clogGuard (s2.clogRole m) part (masterNum m) 0x40 pg detail (.inject pg)

/-- INJ_CTRL is written under the rules of an expert register (R34, R473); on the KEYS page by ADMIN alone (R400). -/
def State.injWrite (s : State) (m : Master) (pg : Nat) (v : Word) : State :=
  s.expertCmd m (rPg_INJ_CTRL pg) (fun x => if pg = 0x073 then x.holdsAdmin m else x.privAt m (rPg_INJ_CTRL pg)) fun x => x.injCtrl m pg v

def execInjectGo (m : Master) (pg : Fin 448) (v : BitVec 32) (s : State) : Host.Outcome State Fault Refusal :=
  done (if (pageBlock pg.val).isSome then s.injWrite m pg.val (v ||| 0x40000#32) else s)

/-- A HOLD ends: at DUR, or at once where its gate no longer holds or the session it was given in has closed. -/
def State.injHoldEnd (s : State) (pg : Nat) : State :=
  match (s.inj pg).hold with
  | none => s
  | some (n, kind, t) =>
    let still := s.injGate pg n && (match (s.inj pg).giver with
      | some m => s.injPriv m
      | none => false)
    let s1 := if still then s.advanceTo t else s
    let s2 := if (s.inj pg).driven then s1.injRelease n kind else s1
    s2.modInj pg fun x => { x with
      hold := none
      done := true }

def execInjectHoldEnd (pg : Fin 448) (s : State) : Host.Outcome State Fault Refusal := done (s.injHoldEnd pg.val)

end Sys2Proof.Machine
end

