-- ==== Sys2Proof/Machine/Commit.lean ====
section
/-! DEFINITION. Commit within a device (R442, R443): staging, check, switch, settle; and the change-log entries that actions wait for
(R449). -/

namespace Sys2Proof.Machine

open Sys2Proof

/-! The staged image -/

/-- The flash copy not in force, into which an image is staged. -/
def State.otherCopy (s : State) : Nat := 1 - s.cfg.copy

/-- Its flash address. -/
def State.staged (s : State) : Nat := copyAt s.otherCopy

/-- R431's gate of a commit. -/
def State.commitGate (s : State) : Bool := s.lcProvDep && (s.modeIs .sync || s.modeIs .operate || s.modeIs .harebell)

/-- STG_RESULT: code and SID (R451). -/
def State.stgResult (s : State) (code sid : Nat) : State := s.wrN rCfg_STG_RESULT (code + 65536 * sid)

/-- What is staged is unchecked: the votes, the switch time of a set and a waiting entry of the switch go with the check. -/
def State.uncheck (s : State) : State :=
  (s.modCfg fun c => { c with
    commitReq := false
    checked := false
    yesAt := none
    noVote := false
    votes := []
    switchT := none
    logged := false
    queue := c.queue.filter fun e => e.2 ≠ .commit }).wr64 rCfg_SW_TIME_LO 0

/-- No image is staged. -/
def State.unstage (s : State) : State :=
  s.uncheck.modCfg fun c => { c with
    staging := false
    almNext := 0
    almLen := 0 }

/-- Begin staging: the copy is erased, what was staged is gone. -/
def State.stageNew (s : State) : State :=
  let s1 := s.unstage.modCfg fun c => { c with
    staging := true
    settle := false
    stagedFab := none }
  s1.modMem fun m => { m with flash := Mem.clear m.flash s.staged (s.staged + 0x1000000) }

/-- Bytes reach the staged copy; what has been checked is no longer what is staged. -/
def State.stageBytes (s : State) (off : Nat) (bs : List Byte) : State :=
  (s.modMem fun m => { m with flash := Mem.write m.flash (s.staged + off) bs }).uncheck

/-! The check (R442) -/

/-- Does the module's OTP admit the image's level: BL_CEIL, and BL2 only where the revision supports it (R404, R506)? -/
def State.levelOk (s : State) (bl : Nat) : Bool := decide (bl ≤ s.fld rOtp_BL_CEIL 0 4) && (bl ≠ 2 || s.fld rOtp_BL_CEIL 4 4 ≠ 1)

/-- STG_RESULT of the check of the image in copy `k`: code and SID. -/
def State.checkImage (s : State) (k : Nat) : Nat × Nat :=
  let b := copyAt k
  match s.formatBad b with
  | some sid => (4, sid)
  | none =>
    if !s.sigOk b then (3, 0)
    else if s.fl (b + 12) 2 ≠ s.dev.slot.toNat then (5, 0)
    else if !s.levelOk (s.fl (b + 6) 1) then (6, 0)
    else if s.cfg.inForce && s.fl (b + 8) 4 ≤ (s.rd rCfg_IMG_VER).toNat then (7, 0)
    else match (s.candidate k).rulesBad b with
      | some sid => (8, sid)
      | none => (2, 0)

/-- The first 16 bytes of an image hash, byte 0 least significant. -/
def State.hash16 (s : State) (b : Nat) : Nat := leNat ((hashBytes (s.imgHash b)).take 16)

/-- The program of the checked image that goes into a partition's inactive bank: a changed one, or an alternate one of an unchanged
program. A window that the image moves is written at the switch alone. -/
def State.stagedProgram (s : State) (k p : Nat) : Option (List Word) :=
  let c := s.candidate k
  let find (alt : Bool) := ((s.imgPrograms (copyAt k)).find? fun y => y.1 = p && y.2.1 = alt).map fun y => y.2.2
  if s.ptPair p = c.ptPair p && s.rd (rPart_PGM_BASE p) = c.rd (rPart_PGM_BASE p) && s.rd (rPart_PGM_SIZE p) = c.rd (rPart_PGM_SIZE p) then
    match (find false).filter fun ws => (s.program p (s.actBank p)).take ws.length ≠ ws with
    | some ws => some ws
    | none => find true
  else none

/-- The programs of the checked image are in their inactive banks before the switch (R82, R98; log 127). -/
def State.stagePrograms (s : State) (k : Nat) : State :=
  s.each (List.range 16) fun x p => match s.stagedProgram k p with
    | some ws => x.writeProgram p (1 - s.actBank p) ws
    | none => x

/-- The check completes. An image that came from the buddy is committed without more, a member of a set too (R447). -/
def State.checkDone (s : State) : State :=
  if !s.cfg.staging || s.fld rCfg_STG_RESULT 0 8 ≠ 1 then s
  else
    let r := s.checkImage s.otherCopy
    let s1 := s.stgResult r.1 r.2
    if r.1 = 2 then
      let s2 := (s1.stagePrograms s.otherCopy).modCfg fun c => { c with
        checked := true
        stagedFab := if s.imgIsSet s.staged && s.cfg.almLen = 0 then some (s.fabHash s.staged) else none
        stagedHash := s.hash16 s.staged }
      if s.cfg.almLen ≠ 0 then (s2.modCfg fun c => { c with commitReq := true }).commitGuard 4 3 else s2
    else
      ((s1.uncheck.modCfg fun c => { c with noVote := true }).raise0 952).clogNote 4 0 3 r.1 0x12 0 (natLe 2 r.2)

def execCommitCheckDone (s : State) : Host.Outcome State Fault Refusal := done s.checkDone

/-! Staging registers: ADMIN only (R34, R431) -/

/-- A command of STG_CMD outside R431's gate is discarded and recorded (log 26). -/
def State.stgGate (s : State) (m : Master) (action : Nat) (f : State → State) : State :=
  if s.commitGate then f s else s.clogNote (s.clogRole m) 0 (masterNum m) 1 action 0 []

/-- BEGIN. -/
def State.stgBegin (s : State) (m : Master) : State :=
  s.stgGate m 0x10 fun x =>
    ((((x.stageNew).wrN rCfg_STG_OFF 0).stgResult 0 0).clogNote (x.clogRole m) 0 (masterNum m) 0 0x10 0 [])

/-- CHECK: busy until COMMIT_CHECK_DONE; what an earlier check of the image brought is gone. -/
def State.stgCheck (s : State) (m : Master) : State :=
  s.stgGate m 0x12 fun x => if x.cfg.staging then x.uncheck.stgResult 1 0 else x

/-- COMMIT of a checked image that is no member of a set: the switch waits for its entry (R449) and for a boundary with no
partition in RUN or MAINTENANCE; until then STG_RESULT reads 9 where one runs. A member of a set switches as R445 says (log 64). -/
def State.stgCommit (s : State) (m : Master) : State :=
  s.stgGate m 0x12 fun x =>
    if !x.cfg.checked || x.cfg.commitReq || x.imgIsSet x.staged then x
    else
      let y := if anyBelow 16 x.ptLive then x.stgResult 9 0 else x
      (y.modCfg fun c => { c with commitReq := true }).commitGuard (x.clogRole m) (masterNum m)

/-- ABANDON: at any point before the switch. -/
def State.stgAbandon (s : State) (m : Master) : State :=
  if !s.cfg.staging then s
  else (((s.unstage).modCfg fun c => { c with stagedFab := none }).stgResult 0 0).clogNote (s.clogRole m) 0 (masterNum m) 0 0x13 0 []

/-- A write of STG_CMD: BEGIN, CHECK, COMMIT, ABANDON. -/
def State.stgCmd (s : State) (m : Master) (v : Word) : State :=
  s.cmdWrite m rCfg_STG_CMD (fun x => x.holdsAdmin m) fun x =>
    let b i := natBit v.toNat i
    let x1 := if b 0 then x.stgBegin m else x
    let x2 := if b 1 then x1.stgCheck m else x1
    let x3 := if b 2 then x2.stgCommit m else x2
    if b 3 then x3.stgAbandon m else x3

def execStgBegin (m : Master) (s : State) : Host.Outcome State Fault Refusal := done (s.stgCmd m 1)
def execStgCheck (m : Master) (s : State) : Host.Outcome State Fault Refusal := done (s.stgCmd m 2)
def execStgCommit (m : Master) (s : State) : Host.Outcome State Fault Refusal := done (s.stgCmd m 4)
def execStgAbandon (m : Master) (s : State) : Host.Outcome State Fault Refusal := done (s.stgCmd m 8)

/-- A write of STG_DATA_HI: STG_DATA_LO and it are staged at STG_OFF, which moves on by 8. `ok`: flash takes them. -/
def State.stgData (s : State) (m : Master) (v : Word) (ok : Bool) : State :=
  s.cmdWrite m rCfg_STG_DATA_HI (fun x => x.holdsAdmin m) fun x =>
    let off := (x.rd rCfg_STG_OFF).toNat / 8 * 8 % 0x800000
    let bs := natLe 4 (x.rd rCfg_STG_DATA_LO).toNat ++ natLe 4 v.toNat
    if !x.cfg.staging || !x.commitGate then x
    else ((if ok then x.stageBytes off bs else x.stgResult 10 0).wrN rCfg_STG_OFF ((off + 8) % 0x800000)).wr rCfg_STG_DATA_HI v

def execStgDataWrite (m : Master) (v : BitVec 32) (ok : Bool) (s : State) : Host.Outcome State Fault Refusal :=
  done (s.stgData m v ok)

/-! The switch (R96 step 1, R442) -/

/-- The channel bound to the OUT of each GROUP instance (R268): key 1024·partition + instance, channel + 1. -/
def State.groupBinds (s : State) : Tab Nat :=
  (List.range 16).foldl (fun t p => (s.groupOuts p).foldl (fun u x =>
    match (List.range 192).find? fun n => s.isDo n && s.chOwner n = some p && s.fld (rCh_DO_CFG n) 0 9 = x.2 with
    | some n => Tab.set (fun _ => 0) u (1024 * p + x.1) (n + 1)
    | none => u) t) []

/-- The configuration of the image in copy `k`, in force: with its version and hash, the outputs of its GROUP instances, and the
budgets of the grade in force. -/
def State.configure (s : State) (k : Nat) : State :=
  let b := copyAt k
  let c := s.candidate k
  let c1 := (c.wrN rCfg_IMG_VER (s.fl (b + 8) 4)).setHash16 (s.hash16 b)
  (c1.modEng fun e => { e with grpCh := c1.groupBinds }).setGrade (gradeOf c1.commitGrade)

/-- The registers of a page that differ from their reset values. -/
def State.pageRegs (s : State) (pg : Nat) : Tab Word := s.regs.filter fun e => e.1 / 0x1000 = pg

/-- The produced signals: recoded from the old A_p to the new one; INIT under another producer (R61, R68). -/
def State.recodeProduced (s old : State) : State :=
  s.each (List.range 256) fun x i =>
    let idx := 256 + i
    match old.producer idx, x.producer idx with
    | some p, some q =>
      if p = q then x.imgWr (8 * idx) (recodeOr (old.aP p) (x.selfId idx) (x.aP q) (x.selfId idx) (x.imgCsw (8 * idx) (x.selfId idx)))
      else x.devWrite idx 0 .init
    | _, _ => x.devWrite idx 0 .init

/-- Receive slots that hold another signal than before: INIT (R68). -/
def State.newSlots (s old : State) : State :=
  let was := (List.range (old.fabCount 0)).map (old.fabEntry 0)
  let s1 := s.each ((List.range (s.fabCount 0)).map (s.fabEntry 0)) fun x v =>
    if feValid v && !was.any (fun w => feValid w && feSlot w = feSlot v && feId w = feId v) then
      x.imgWr (0x1000 + 8 * feSlot v) (mkCsw aT (feId v) 0 x.sf .init)
    else x
  let words (x : State) : List Nat :=
    ((List.range (Tab.get (fun _ => 0) x.net.tblCnt 0)).map x.safeEntry).filter fun v => natBit v 44
  let before := (words old).map fun v => (natBits v 34 10, natBits v 0 21)
  s1.each (words s1) fun x v =>
    if before.contains (natBits v 34 10, natBits v 0 21) then x
    else x.imgWr (0x21000 + 8 * natBits v 34 10) (mkCsw aT (natBits v 0 21) 0 x.sf .init)

/-- A channel whose role changes starts afresh; its index holds INIT until it writes (R68; log 65). -/
def State.freshChannel (s : State) (n : Nat) : State :=
  let s1 := if s.swIsOn n then s.swOff n (BitVec.ofNat 16 (s.fld (rCh_RON n) 0 16)) else s
  ((s1.modCh n fun _ => ChSt.reset).chShow n).devWrite n 0 .init

/-- The field follows its new configuration (log 65). -/
def State.freshField (s old : State) : State :=
  let roleNew := (List.range 192).filter fun n => s.role n ≠ old.role n
  let bankNew := (List.range 24).filter fun b =>
    s.pageRegs (0x080 + b) ≠ old.pageRegs (0x080 + b) || anyBelow 8 fun c => s.pageRegs (0x100 + 8 * b + c) ≠ old.pageRegs (0x100 + 8 * b + c)
  let spdNew := (List.range 32).filter fun u => s.pageRegs (0x0A0 + u) ≠ old.pageRegs (0x0A0 + u)
  let s1 := s.each roleNew State.freshChannel
  let s2 := s1.each bankNew fun x b => x.modBank b fun y => { y with todo := [] }
  s2.each spdNew fun x u => (x.spdEnable u).devWrite (192 + u) 0 .init

/-- The registers that configure a timer channel. -/
def State.timerConfig (s : State) (t : Nat) : List Word :=
  [s.rd (rTmr_T_CFG t), s.rd (rTmr_CMP t), s.rd (rTmr_PHASE t), s.rd (rTmr_CAP_CFG t), s.rd (rTmr_TRIG t)]

/-- A timer with a new configuration is idle, the match triggers it has issued still counted; those with AUTOSTART are armed at the
boundary (R331, R334; log 65). -/
def State.freshTimers (s old : State) : State :=
  (s.each ((List.range 48).filter fun t => s.timerConfig t ≠ old.timerConfig t) fun x t =>
    x.modTimer t fun y => { TimSt.reset with fired := y.fired }).tAutostart

/-- Tokens at the first commit: the home device holds those of its mobile partitions at epoch 1, its buddy those it mirrors
(R368). -/
def State.firstTokens (s : State) : State :=
  s.each ((List.range 16).filter fun p => s.hasTok p && (s.tok p).epoch = 0) fun x p =>
    if x.bit (rPart_PT_CFG p) 3 then x.setTok p ⟨1, x.slotAt x.buddyPos, false, false⟩ else x.setTok p ⟨1, x.self, true, false⟩

/-- Ports, planes, mirrors and connections under the new configuration (R183, R346, R389, R549). -/
def State.freshLinks (s : State) : State :=
  let port (x : State) (p : Nat) : State :=
    let y := if !x.bit (rPort_PT_CFG p) 0 then (if x.portState p = 0 then x else x.portOff p)
      else if x.portState p = 6 then x.portDetect p else x
    y.modPort p fun z => { z with wasUp := y.portUp p }
  let s1 := (s.each (List.range 8) port).modFab fun f => { f with
    frames := []
    passed := []
    written := []
    fwd := [] }
  let s2 := (s1.wrN rEph_MIR_RX_SYNC 0).modEng fun e => { e with
    mirRx := none
    mirOut := []
    resync := []
    mirOk := [] }
  let s2 := s2.each (List.range 16) fun x p => x.modPart p fun y => { y with mirCatch := false }
  s2.connsMode (s2.modeIs .operate || s2.modeIs .harebell || s2.modeIs .halted)

/-- A pair whose configuration changes is split or rejoined at step 5 of the boundary (R185). A split is asked for in CMODE lockstep and
offline alone: a rejoin in progress goes on (R187; log 167). -/
def State.pairRequests (s : State) : State :=
  s.each (List.range 4) fun x n =>
    let core := x.anyEntry n fun e => x.bit (rPart_PT_CFG (x.sePart n e)) 6
    let mode := x.cmode n
    x.modPair n fun y => { y with
      splitReq := core && (mode = 0 || mode = 6)
      rejoinReq := !core && mode = 2 }

/-- The commit switches: every partition stopped, then the new configuration in force (R61, R96, R429, R435, R442, R489). A swap latched
while the commit was staged is refused (R98). -/
def State.commitSwitch (s : State) : State :=
  let s0 := (s.each ((List.range 16).filter fun p => (s.part p).swapPend) State.swapRefuse).stopAll
  let s1 := s0.configure s.otherCopy
  let s2 := ((s1.recodeProduced s0).newSlots s0).freshField s0
  let s3 := ((s2.freshTimers s0).firstTokens.freshLinks).pairRequests
  let s4 := (s3.endSessions.bump rEng_SCHED_GEN).opEvent 1072 none (s3.rd rCfg_IMG_VER).toNat
  let s5 := (s4.unstage.modCfg fun c => { c with
    settle := true
    stagedFab := none }).stgResult 12 0
  s5.vernCommit.tryOperate

/-- Does a commit switch at this boundary: its entry stands (R449), R431 permits it, and no partition runs, or the time of the set
has come (R442, R445)? -/
def State.switchDue (s : State) : Bool :=
  s.cfg.checked && s.cfg.logged && s.commitGate
  && (match s.cfg.switchT with
    | some t => decide (t ≤ s.now) && decide (s.now % 1600000 = 0)
    | none => s.cfg.commitReq && !anyBelow 16 s.ptLive)

/-- Does the checked schedule meet rules 5 and 6 of R89 at the grade in force at this boundary? -/
def State.switchGradeOk (s : State) : Bool :=
  let c := s.candidate s.otherCopy
  (List.range 4).all fun n => (c.entriesOf n).all fun e => c.rule5 n e c.commitGrade && c.rule6 n e c.commitGrade

/-- The commit boundary finds a schedule that breaks rule 5 or 6: the configuration in force is kept (R89, R442). -/
def State.switchRefuse (s : State) : State :=
  (((s.uncheck.stgResult 8 1).modCfg fun c => { c with noVote := true }).raise0 952).clogNote 4 0 3 8 0x12 0 (natLe 2 1)

/-- Step 1 of R96. -/
def State.switchStep (s : State) : State :=
  if !s.switchDue then s else if s.switchGradeOk then s.commitSwitch else s.switchRefuse

/-- The settle phase ends: the other flash copy is overwritten with the image in force, which then goes to the buddy (R447; log 150). -/
def execFlashSettleDone (s : State) : Host.Outcome State Fault Refusal :=
  done (
    if !s.cfg.settle then s
    else
      let n := s.imgLen (copyAt s.cfg.copy) + 128
      (s.modMem fun m => { m with
        flash := Mem.write (Mem.clear m.flash s.staged (s.staged + 0x1000000)) s.staged (Mem.bytes m.flash (copyAt s.cfg.copy) n) }).modCfg
        fun c => { c with
          settle := false
          almOwn := if s.bit rFab_FAB_CFG 21 then some 0 else none })

/-! The change log's entries reach flash (R449) -/

/-- PW_CHANGE takes effect (R436). -/
def State.pwChanged (s : State) (role part : Nat) (salt : BitVec 128) (iter : Nat) (v : BitVec 256) : State :=
  s.modCfg fun c => { c with
    roles := Tab.modify (fun _ => RoleRec.reset) c.roles (roleKey role part) fun r => { r with
      pwGen := r.pwGen + 1
      iter := iter
      salt := salt
      v := v } }

/-- An action takes effect, its entry being in flash. -/
def State.actDone (s : State) : PendAct → State
  | .forceSet p idx v => match s.forceRefuse p idx with
    | some r => s.frcStat p r
    | none => s.forceDo p idx v
  | .forceClear p idx => s.forceEnd p idx
  | .forceClearAll p => s.each ((s.part p).forces.map fun f => f.1) fun x idx => x.forceEnd p idx
  | .pwChange role part salt iter v => s.pwChanged role part salt iter v
  | .keyLoad o k key epoch start retire => s.keyPut o k key epoch start retire
  | .keyErase o k => s.keyDel o k
  | .keySetRetire o k retire => s.modKeySlot o k fun x => { x with retire := retire }
  | .trim n off z g button => s.trimDone n (off, z, g) button
  | .inject pg => s.injFire pg
  | .vgAck k => s.vgAcked k
  | .mapEdit id d inv => s.mapEdited id d inv
  | .commit => s.modCfg fun c => { c with logged := true }

/-- An action is refused: its entry could not be written. -/
def State.actRefused (s : State) : PendAct → State
  | .keyLoad .. => s.keyResult 2
  | .keyErase .. => s.keyResult 2
  | .keySetRetire .. => s.keyResult 2
  | .trim n _ _ _ button => (s.modCh n fun c => { c with trimAt := none }).setFld (rCh_TRIM_STAT n) 0 4 (4 + 8 * b2n button)
  | .inject pg => s.modInj pg fun x => { x with go := none }
  | .commit => (s.modCfg fun c => { c with commitReq := false, yesAt := none, switchT := none }).stgResult 10 0
  | _ => s

/-- The oldest waiting entry reaches flash, and its action takes effect; or flash fails. -/
def State.clogDone (s : State) (ok : Bool) : State :=
  match s.cfg.queue with
  | [] => s
  | (body, act) :: rest =>
    let s1 := s.modCfg fun c => { c with queue := rest }
    if ok then (s1.clogWrite body).actDone act else (s1.raise0 956).actRefused act

def execClogWriteDone (ok : Bool) (s : State) : Host.Outcome State Fault Refusal := done (s.clogDone ok)

end Sys2Proof.Machine
end

