-- ==== Sys2Proof/Machine/Sets.lean ====
section
/-! DEFINITION. Image sets across devices (R444 to R446), the transfer of an Almanac from the buddy (R447), and the events class
that carries their BULK frames (R354). -/

namespace Sys2Proof.Machine

open Sys2Proof

/-! The set of the staged image -/

/-- Is the staged image a member of a set that commits as one? An image from the buddy commits alone (R447). -/
def State.inSet (s : State) : Bool := s.cfg.staging && s.cfg.almLen = 0 && s.headerOk s.staged && s.imgIsSet s.staged

/-- SET_ID of the staged image. -/
def State.setId (s : State) : Nat := s.fl (s.staged + 28) 4

/-- Slot identities of the members, of the SET section (R441). -/
def State.setMembers (s : State) : List Nat :=
  match s.sect s.staged 0x0D with
  | some x => (List.range (min (s.fl x.at_ 4) 4096)).map fun i => s.fl (x.at_ + 4 + 36 * i) 2 % 4096
  | none => []

/-- ARG64 of a VOTE: the first 8 bytes of SHA-256 over the SET section (R444). -/
def State.setArg (s : State) : Nat :=
  match s.sect s.staged 0x0D with
  | some x => leNat ((hashBytes (Config.sha256 (Mem.bytes s.mem.flash x.at_ x.len))).take 8)
  | none => 0

/-- The coordinator: the member with the lowest slot identity (R444). -/
def State.coordinator (s : State) : Nat := s.setMembers.foldl min 0xFFFF
def State.isCoord (s : State) : Bool := s.inSet && s.coordinator = s.self

/-- A set message of this device. -/
def State.setMsg (s : State) (kind arg8 dest arg64 : Nat) : State := s.bulk (bulkPayload kind arg8 dest s.setId 0 0 arg64 [])

/-- The staged image is discarded with its set; its fabric hash is kept for SET_DIVERGED (R446). -/
def State.setDrop (s : State) : State := (s.unstage.stgResult 11 0).clogNote 4 0 3 0 0x13 0 []

/-- The coordinator sends ABORT, and discards its own image (R446). -/
def State.coordAbort (s : State) : State := (s.setMsg 5 0 0xFFFF 0).setDrop

/-- A vote reaches the coordinator: on a no vote it aborts; with a yes from every member and every ARG64 equal, it sets T (R445). -/
def State.voteIn (s : State) (slot yes arg : Nat) : State :=
  if !s.isCoord || !s.setMembers.contains slot || s.cfg.switchT.isSome then s
  else if yes = 0 then s.coordAbort
  else
    let vs := (slot, yes, arg) :: s.cfg.votes.filter fun v => v.1 ≠ slot
    let s1 := s.modCfg fun c => { c with votes := vs }
    let all := s.setMembers.all fun m => vs.any fun v => v.1 = m && v.2.2 = s.setArg
    if all && s.cfg.yesAt.isSome then s1.setSwitchAt ((s.now + 3200000 + 1599999) / 1600000 * 1600000) else s1

/-- This member's vote, once its check is done: yes only if the check passed and no partition is in RUN or MAINTENANCE; START is
refused from the first yes on (R445). -/
def State.ownVote (s : State) : State :=
  if !s.inSet || !(s.cfg.checked || s.cfg.noVote) then s
  else
    let yes := s.cfg.checked && !anyBelow 16 s.ptLive
    let s1 := if yes && s.cfg.yesAt.isNone then s.modCfg fun c => { c with yesAt := some s.now } else s
    let s2 := if s.cfg.checked && !yes && s.cfg.yesAt.isNone then s1.stgResult 9 0 else s1
    if s.isCoord then s2.voteIn s.self (b2n yes) s.setArg else s2.setMsg 3 (b2n yes) s.coordinator s.setArg

/-- COMMIT(T) in every superframe until T, from the coordinator (R445). -/
def State.coordCommit (s : State) : State :=
  match s.cfg.switchT with
  | some t => if s.isCoord && s.now < t then s.setMsg 4 0 0xFFFF t else s
  | none => s

/-! The buddy's image (R447) -/

/-- Flash address of the image in force at the buddy slot, and its length with its trailer; 0 where no whole image is there. -/
def buddyImage : Nat := 0x2000000
def State.buddyLen (s : State) : Nat := if s.headerOk buddyImage && (s.formatBad buddyImage).isNone then s.imgLen buddyImage + 128 else 0

/-- Fragment of an image of `len` bytes at flash address `b` from an offset on, to a slot identity. -/
def State.almSendPart (s : State) (slot b off len : Nat) : State :=
  s.bulk (bulkPayload 2 0 slot 0 off len 0 (Mem.bytes s.mem.flash (b + off) (min 16384 (len - off))))

/-- A fragment of the image in force goes to the buddy, which keeps it (R447; log 150). -/
def State.almOwnPart (s : State) : State :=
  let len := s.imgLen (copyAt s.cfg.copy) + 128
  match s.cfg.almOwn with
  | none => s
  | some off =>
    if len ≤ off then s.modCfg fun c => { c with almOwn := none }
    else (s.almSendPart (s.slotAt s.buddyPos) (copyAt s.cfg.copy) off len).modCfg fun c => { c with almOwn := some (off + 16384) }

/-- One ALM_DATA fragment per superframe: the answer to an ALM_REQ, else of this device's own image. -/
def State.almFragment (s : State) : State :=
  match s.cfg.almSend with
  | none => s.almOwnPart
  | some (slot, off) =>
    let len := s.buddyLen
    if len ≤ off then s.modCfg fun c => { c with almSend := none }
    else (s.almSendPart slot buddyImage off len).modCfg fun c => { c with almSend := some (slot, off + 16384) }

/-- ALM_REQ from an offset, to the buddy. -/
def State.almAsk (s : State) (off : Nat) : State := s.bulk (bulkPayload 1 0 (s.slotAt s.buddyPos) 0 off 0 0 [])

/-- A device in SYNC without a verified image asks its buddy in every 16 ms. -/
def execAlmReqSend (s : State) : Host.Outcome State Fault Refusal :=
  done (if s.modeIs .sync && !s.cfg.inForce then (s.advanceTo (s.nextMultiple 1600000)).almAsk s.cfg.almNext else s)

/-- The events class starts: what is due in every superframe is queued, and EVENT then BULK frames are sent (R354). -/
def execEventsClassStart (s : State) : Host.Outcome State Fault Refusal :=
  done (s.when s.trainMode fun x => (x.atTick 5625).ownVote.coordCommit.almFragment.sendEvents.sendBulk)

/-! Receiving BULK frames -/

/-- A BULK frame arrives: passed on as other frames are, and its payload, where it is of the kind and meant for this device. -/
def State.rxBulk (s : State) (p kind : Nat) (bs : List Byte) (ln : RxLine) : State × Option (List Byte) :=
  let r := s.rxPass p 6 5625 6250 bs ln
  let s1 := r.1
  let pl := frPayload bs
  let dest := leAt pl 2 2
  if r.2 && 24 ≤ frLen bs && leAt pl 0 1 = kind && (dest = s.self || dest = 0xFFFF) && frOrigin bs ≠ s.self then (s1, some pl) else (s1, none)

/-- Do a set message's SET_ID and the staged image's agree? -/
def State.setMatch (s : State) (pl : List Byte) : Bool := s.inSet && leAt pl 4 4 = s.setId

def execVoteReceive (p : Fin 8) (bs : List Byte) (ln : RxLine) (s : State) : Host.Outcome State Fault Refusal :=
  done (match s.rxBulk p 3 bs ln with
    | (s1, some pl) => if s1.setMatch pl then s1.voteIn (frOrigin bs) (leAt pl 1 1) (leAt pl 16 8) else s1
    | (s1, none) => s1)

/-- COMMIT reaches a member that holds a yes. -/
def execCommitMsgReceive (p : Fin 8) (bs : List Byte) (ln : RxLine) (s : State) : Host.Outcome State Fault Refusal :=
  done (match s.rxBulk p 4 bs ln with
    | (s1, some pl) =>
      if s1.setMatch pl && s1.cfg.yesAt.isSome && s1.cfg.switchT.isNone && s1.now ≤ leAt pl 16 8 && leAt pl 16 8 % 1600000 = 0 then
        s1.setSwitchAt (leAt pl 16 8)
      else s1
    | (s1, none) => s1)

def execAbortReceive (p : Fin 8) (bs : List Byte) (ln : RxLine) (s : State) : Host.Outcome State Fault Refusal :=
  done (match s.rxBulk p 5 bs ln with
    | (s1, some pl) => if s1.setMatch pl then s1.setDrop else s1
    | (s1, none) => s1)

/-- The buddy answers an ALM_REQ from its OFFSET on. -/
def execAlmReqReceive (p : Fin 8) (bs : List Byte) (ln : RxLine) (s : State) : Host.Outcome State Fault Refusal :=
  done (match s.rxBulk p 1 bs ln with
    | (s1, some pl) => if s1.buddyLen = 0 then s1 else s1.modCfg fun c => { c with almSend := some (frOrigin bs, leAt pl 8 4) }
    | (s1, none) => s1)

/-- A fragment is applied by its OFFSET; a gap is asked for again; the whole image is checked (R442, R447). -/
def State.almData (s : State) (pl : List Byte) : State :=
  let off := leAt pl 8 4
  let len := leAt pl 12 4
  let data := (pl.drop 24).take (len - off)
  let s1 := if s.cfg.staging && s.cfg.almLen = len then s else s.stageNew.modCfg fun c => { c with
    almNext := 0
    almLen := len }
  let s2 := s1.modMem fun m => { m with flash := Mem.write m.flash (s1.staged + off) data }
  if off = s1.cfg.almNext then
    let s3 := s2.modCfg fun c => { c with almNext := off + data.length }
    if len ≤ off + data.length then s3.stgResult 1 0 else s3
  else if s1.cfg.almNext < off then s2.almAsk s1.cfg.almNext else s2

/-- A fragment of the buddy's image in force is kept in flash; the first one begins a new image (R447; log 150). -/
def State.almKeep (s : State) (pl : List Byte) : State :=
  let off := leAt pl 8 4
  s.modMem fun m =>
    let fl := if off = 0 then Mem.clear m.flash buddyImage (buddyImage + 0x1000000) else m.flash
    { m with flash := Mem.write fl (buddyImage + off) ((pl.drop 24).take (leAt pl 12 4 - off)) }

/-- ALM_DATA: to a device without an image in force it is that device's own image; to one with an image, from its buddy, the buddy's. -/
def execAlmDataReceive (p : Fin 8) (bs : List Byte) (ln : RxLine) (s : State) : Host.Outcome State Fault Refusal :=
  done (match s.rxBulk p 2 bs ln with
    | (s1, some pl) =>
      if !(leAt pl 12 4 ≤ 0x800080 && leAt pl 8 4 ≤ leAt pl 12 4) then s1
      else if s1.cfg.inForce then
        if s1.bit rFab_FAB_CFG 21 && frOrigin bs = s1.slotAt s1.buddyPos then s1.almKeep pl else s1
      else if s1.modeIs .sync && !s1.cfg.checked then s1.almData pl
      else s1
    | (s1, none) => s1)

/-! Time limits of a set (R446) -/

/-- 2 s after the coordinator's own yes without every vote: ABORT. -/
def execSetVoteTimeout (s : State) : Host.Outcome State Fault Refusal :=
  done (match s.cfg.yesAt, s.cfg.switchT with
    | some t, none => if s.isCoord && !s.modeIs .dormant then (s.advanceTo (t + 200000000)).coordAbort else s
    | _, _ => s)

/-- 10 s after a member's yes with neither COMMIT nor ABORT: SET_ABORT. -/
def execSetAbort (s : State) : Host.Outcome State Fault Refusal :=
  done (match s.cfg.yesAt, s.cfg.switchT with
    | some t, none => if s.modeIs .dormant then s else ((s.advanceTo (t + 1000000000)).raise0 953).setDrop
    | _, _ => s)

end Sys2Proof.Machine
end

