-- ==== Sys2Proof/Machine/Startup.lean ====
section
/-! DEFINITION. Start-up (R401 to R403): the reset, the OTP store as it is sensed (R405 to R407), the steps to local readiness, the choice
of the Almanac (R443), the Logbook's reopening (R488). Each start-up runs whole, as far as it gets, at the command that begins it (log 66). -/

namespace Sys2Proof.Machine

open Sys2Proof

/-! What survives (R311, R391, R393, R413, R436, R448, R486, R519) -/

/-- Registers that a reset keeps: Nightglass's, and what flash holds. -/
def keptReg (a : Nat) : Bool :=
  (a / 0x1000 = 0x012 && 0x40 ≤ a % 0x1000)
  || [rSafe_HWM_LO, rSafe_HWM_HI, rLcs_BOOT_CNT, rLog_FL_OLDEST, rLog_SPILL_LO, rLog_SPILL_HI, rCfg_CLOG_HEAD].contains a

/-- Image SRAM at start-up: every CSW slot holds v = 0, QUAL INIT, those of the local image under their IDs; a receive slot or a word of the
CONST pool has no ID before an Almanac gives it one, and is coded under ID 0 (R68, R75, R256; log 130). -/
@[irreducible] def initImage (slot : BitVec 12) (sf : Nat) : Mem :=
  Mem.ofBytes 0 (((List.range 512).flatMap fun i => natLe 8 (mkCsw aT (slot.toNat * 512 + i) 0 sf .init).toNat)
    ++ (List.replicate 17920 (natLe 8 (mkCsw aT 0 0 sf .init).toNat)).flatten)

/-- The machine after a reset: what Nightglass, OTP and flash hold, and `logm`, Logbook SRAM. Roles, trims and the trend store are held
under the slot identity: `same`. -/
def State.wiped (s : State) (logm : Mem) (same : Bool) : State :=
  { State.reset with
    pending := s.pending
    free := s.free
    regs := s.regs.filter fun e => keptReg e.1
    dev := { Dev.reset with
      slot := s.dev.slot
      vlogValid := s.dev.vlogValid
      nreset := s.dev.nreset }
    mem := { Mems.reset with
      img := initImage s.dev.slot 0
      logm := logm
      flash := s.mem.flash
      spill := s.mem.spill
      clog := s.mem.clog }
    host := { HostIf.reset with out := s.host.out }
    cfg := { Cfg.reset with
      roles := if same then s.cfg.roles else []
      trims := if same then s.cfg.trims else []
      clogSeq := s.cfg.clogSeq
      copy := s.cfg.copy }
    lcs := { Lcs.reset with
      otp0 := s.lcs.otp0
      otp1 := s.lcs.otp1
      draws := s.lcs.draws
      lcChange := s.lcs.lcChange }
    net := { Net.reset with
      keys := s.net.keys
      ivHold := true }
    vern := { Vern.reset with trend := if same then s.vern.trend else [] }
    ngl := { s.ngl with vbakSeen := false } }

/-- In BOOT every Shutter is open through the mode request (R277, R403). -/
def State.bootRequest (s : State) : State := s.each (List.range 24) fun x b => x.setBit (rBank_BK_STAT b) 2 true

/-- Step 2: POR released, straps sampled, Meridian seeded (R321) and counting since; the boot counter (R420). -/
def State.porRelease (s : State) (cause : Nat) (env : StartEnv) : State :=
  let c := s.rtcNow
  let logm := if cause = 1 || cause = 2 then s.mem.logm else []
  let s1 := (s.wiped logm (env.straps = s.dev.slot)).bootRequest.modDev fun d => { d with slot := env.straps }
  let seed := if s1.ngl.valid then c / 32768 * 100000000 + c % 32768 * 100000000 / 32768 else 0
  let s2 := ((s1.setNow seed).modMer fun m => { m with dup := m.now }).setBit rMer_SYNC_STAT 7 s1.ngl.valid
  let s3 := ((s2.rtcSet c).setNow (seed + 10000 * env.time.val)).modMem fun m => { m with img := initImage env.straps (seed / 6250) }
  let s4 := ((s3.wrN rLcs_BOOT_CAUSE cause).wrN rLcs_BOOT_STEP 2).modNet fun x => { x with ptpAt := s3.now }
  if env.counted then (s4.bump rLcs_BOOT_CNT).modLcs fun l => { l with nonceOk := true } else s4

/-! OTP (R404 to R407) -/

/-- The lifecycle state that a code stands for (R406). -/
def lcCode (v : Word) : Option Nat :=
  if v = 0 then some 0 else if v = 0xF then some 1 else if v = 0xFF then some 2 else if v = 0xFFF then some 3 else none

/-- The code of a lifecycle state. -/
def codeOfLc : Nat → Word
  | 0 => 0 | 1 => 0xF | 2 => 0xFF | _ => 0xFFF

/-- What sensing finds of a word: its value, unburned, or no value. -/
inductive Sensed where
  | value (v : Word)
  | unburned
  | none_
deriving DecidableEq, Repr

def sensedOf : Option Word → Sensed
  | some v => .value v
  | none => .unburned

/-- The later of two lifecycle codes. -/
def laterLc (a b : Word) : Option Word :=
  match lcCode a, lcCode b with
  | some x, some y => some (if x ≤ y then b else a)
  | _, _ => none

/-- R405's rows, first match: the copies as burned; `weak`: a bit of that copy reads differently between the thresholds; `lost`: that copy
is uncorrectable; `corr`: one copy corrected. The second result: 0 nothing raised, 1 OTP_WEAK, 2 OTP_ECC_CORR, 3 OTP_INTEGRITY. -/
def senseWord (c0 c1 : Option Word) (weak0 weak1 lost0 lost1 corr lc : Bool) : Sensed × Nat :=
  let weak := weak0 || weak1
  let one (c : Option Word) (weak : Bool) : Sensed × Nat := match c with
    | some v => if weak || corr then (.none_, 3) else (.value v, 1)
    | none => (.none_, 3)
  if lost0 && lost1 then (.none_, 3)
  else if lost0 then one c1 weak1
  else if lost1 then one c0 weak0
  else if c0 = c1 then (sensedOf c0, if weak then 1 else if corr then 2 else 0)
  else match c0, c1 with
    | some a, some b => match lc, laterLc a b with
      | true, some v => (.value v, 1)
      | _, _ => (.none_, 3)
    | some a, none => one (some a) weak0
    | none, b => one b weak1

/-- What step 3 finds of word `w`. -/
def State.senseOf (s : State) (env : StartEnv) (w : Nat) : Sensed × Nat :=
  senseWord (otpAt s.lcs.otp0 w) (otpAt s.lcs.otp1 w) (env.weak.any fun x => x.1.val = w && !x.2) (env.weak.any fun x => x.1.val = w && x.2)
    (env.lost.any fun x => x.1.val = w && !x.2) (env.lost.any fun x => x.1.val = w && x.2) (env.corr.any fun x => x.val = w) (w = 2)

/-- The copy of a weak word that is weak (R426). -/
def State.weakCopy (s : State) (env : StartEnv) (w : Nat) : Bool :=
  if env.weak.any fun x => x.1.val = w && !x.2 then false
  else if env.weak.any fun x => x.1.val = w then true
  else otpAt s.lcs.otp0 w = otpAt s.lcs.est w && !env.lost.any fun x => x.1.val = w && !x.2

/-- Words whose value R405 requires in a lifecycle state. -/
def otpRequired (lc : Nat) : List Nat :=
  if lc = 0 then []
  else [0, 1, 2, 3, 4, 5, 6, 7, 8, 9, 10, 11] ++ (if lc = 2 then [12, 13, 14, 15, 16, 17, 18, 19] else [])

/-- The lifecycle state that the established word gives, if any. -/
def State.lcWord (s : State) : Option Nat := if s.lcs.noValue.contains 2 then none else lcCode (s.otpWord 2)

/-- Is the store intact: every word established, the lifecycle code one of R406's, no required word unburned? -/
def State.otpIntact (s : State) : Bool :=
  s.lcs.noValue.isEmpty && (match s.lcWord with
    | some k => (otpRequired k).all s.otpHas
    | none => false)

/-- Step 3: every word is sensed and established; the OTP page and LC_STAT show the result (R405, R426, R427). -/
def State.sense (s : State) (env : StartEnv) : State :=
  let ws := (List.range 28).map fun w => (w, s.senseOf env w)
  let s0 := s.modLcs fun l => { l with
    est := ws.foldl (fun t x => match x.2.1 with
      | .value v => Tab.set (fun _ => none) t x.1 (some v)
      | _ => t) []
    weak := (ws.filter fun x => x.2.2 = 1).map (·.1)
    noValue := (ws.filter fun x => x.2.2 = 3).map (·.1)
    weakHi := [] }
  let s1 := s0.modLcs fun l => { l with weakHi := l.weak.filter (s0.weakCopy env) }
  let corr := ws.any fun x => x.2.2 = 2
  let bad := !s1.otpIntact
  let s2 := (((s1.otpShow).setBit rOtp_OTP_STAT 0 (!bad)).setBit rOtp_OTP_STAT 2 corr).setFld rOtp_OTP_STAT 3 2 (if bad then 3 else 0)
  let s3 := (s2.wrN rOtp_MARGIN env.margin.toNat).wrN rLcs_LC_STAT (if bad then 6 else s2.lcWord.getD 0)
  let s4 := if bad then s3.setFld rOtp_BL_CEIL 0 4 1 else s3
  let s5 := (s4.when (!s4.lcs.weak.isEmpty) fun x => x.raise0 32).when corr fun x => x.raise0 33
  (s5.when bad fun x => x.raise0 34).wrN rLcs_BOOT_STEP 3

/-- The lagging copy of the lifecycle word is burned to match (R406). -/
def State.lagBurn (s : State) : State :=
  if otpAt s.lcs.otp0 2 ≠ otpAt s.lcs.otp1 2 && s.otpHas 2 then
    (s.modLcs fun l => { l with
      otp0 := Tab.set (fun _ => none) l.otp0 2 (some (s.otpWord 2))
      otp1 := Tab.set (fun _ => none) l.otp1 2 (some (s.otpWord 2)) }).setBit rLcs_LC_STAT 3 true
  else s

/-! The Logbook reopens (R413, R488) -/

/-- The multiples of `n` under which a memory lists a byte, in order. -/
def usedUnits (m : Mem) (n : Nat) : List Nat :=
  m.foldr (fun c acc => match acc with
    | x :: _ => if c.1 / n = x then acc else c.1 / n :: acc
    | [] => [c.1 / n]) []

/-- Does the record in a slot check (R481)? -/
def recOk (m : Mem) (slot : Nat) : Bool :=
  let b := Mem.bytes m (32 * slot) 32
  decide (leNat (b.drop 28) = (crc32c (b.take 28)).toNat)

/-- SEQ of the record in a slot. -/
def recSeq (m : Mem) (slot : Nat) : Nat := (Mem.w32 m (32 * slot + 8)).toNat

/-- The highest SEQ of some slots, plus one; 0 = none. -/
def nextSeq (m : Mem) (slots : List Nat) : Nat := slots.foldl (fun a k => max a (recSeq m k + 1)) 0

/-- The slot, of some, whose record has the lowest SEQ of at least `q`. -/
def seqSlot (m : Mem) (slots : List Nat) (q : Nat) : Option Nat :=
  slots.foldl (fun a k => if recSeq m k < q then a else match a with
    | some x => if recSeq m k < recSeq m x then some k else a
    | none => some k) none

/-- Keep the records that check; WP, what is not released, and the consumers' pointers follow from SEQ: the spill goes on after the highest
SEQ flash holds, host and stream begin at the oldest record kept. -/
def State.logRebuild (s : State) : State :=
  let n := s.logN
  let m0 := s.mem.logm
  let kept := (usedUnits m0 32).filter fun k => k < n && recOk m0 k
  let m := m0.filter fun c => kept.contains (c.1 / 32)
  let spilled := nextSeq s.mem.spill ((usedUnits s.mem.spill 32).filter (recOk s.mem.spill))
  let top := nextSeq m kept
  let wp := match kept.find? fun k => recSeq m k + 1 = top with
    | some k => (k + 1) % n
    | none => 0
  let dist (a : Nat) : Nat := if kept.isEmpty then 0 else let d := (wp + n - a) % n; if d = 0 then n else d
  let host := (seqSlot m kept 0).getD wp
  let spill := seqSlot m kept spilled
  let rel := if s.bit rLog_LOG_CFG 6 then host else if s.bit rLog_LOG_CFG 0 then spill.getD wp else wp
  let fill := if s.bit rLog_LOG_CFG 6 then dist host else if s.bit rLog_LOG_CFG 0 then (match spill with
    | some k => dist k
    | none => 0) else 0
  let s1 := (s.modMem fun x => { x with logm := m }).modLog fun l => { l with
    fill := fill
    rel := rel }
  let s2 := ((s1.setFld rLog_WP 0 17 wp).setFld rLog_SPILL_RP 0 17 (spill.getD wp)).setFld rLog_HOST_RP 0 17 host
  let s3 := s2.setFld rLog_STREAM_RP 0 17 rel
  if max top spilled = 0 then s3 else s3.wrN rLog_SEQ_NEXT (max top spilled)

/-- DATA of the boot record: bytes 0 to 7 of an early nonce; without one the record waits for READY, and carries a draw (R420, R488). -/
def State.bootData (s : State) : State × Nat :=
  let r := s.nonce 0x010
  match r.2 with
  | some v => (r.1, leNat ((natBe 16 v.toNat).take 8))
  | none => let d := s.rngDraw 0; (d.1, leNat ((natBe 16 d.2.toNat).take 8))

/-- The Logbook's first record of a boot, the boot record (R488, R489). -/
def State.logFirst (s : State) : State :=
  let r := s.logRebuild.bootData
  r.1.opEvent 1025 none r.2

/-- The Logbook is reopened: its first record, then the change to SELFTEST (R488, R489). -/
def State.logReopen (s : State) : State := s.logFirst.opEvent 1024 none (256 * DevMode.code s.dev.mode)

/-! The change log at start-up (R443, R449) -/

/-- The bytes of the entry of a SEQ; and whether the ring holds it. -/
def State.clogEntry (s : State) (q : Nat) : List Byte := Mem.bytes s.mem.clog (64 * (q % 4096)) 64
def State.clogHolds (s : State) (q : Nat) : Bool := q ≠ 0 && leNat ((s.clogEntry q).take 4) = q

/-- The entries held, newest first. -/
def State.clogSeqs (s : State) : List Nat :=
  ((List.range 4096).map fun i => s.cfg.clogSeq - i).filter fun q => q ≠ 0 && s.clogHolds q

/-- IMG_HASH of the newest COMMIT_SWITCH entry. -/
def State.lastSwitch (s : State) : Option Nat :=
  (s.clogSeqs.find? fun q => leNat (((s.clogEntry q).drop 16).take 2) = 0x11 && leNat (((s.clogEntry q).drop 15).take 1) = 0).map
    fun q => leNat (((s.clogEntry q).drop 20).take 16)

/-- Every LINK is verified; a break raises CLOG_CHAIN and leaves the entries before it unchained (R449). -/
def State.clogVerify (s : State) : State :=
  match s.clogSeqs.find? fun q => s.clogHolds (q - 1)
      && (s.clogEntry q).drop 52 ≠ (hashBytes (Config.sha256 (s.clogEntry (q - 1)))).take 12 with
  | some q => (s.modCfg fun c => { c with unchainedBefore := q }).raise0 957
  | none => s

/-! The Almanac (R401 steps 7 and 8, R402, R443) -/

/-- Does a copy verify and commit: format, signature, slot, level and every commit rule? -/
def State.copyFit (s : State) (k : Nat) : Bool :=
  s.copyOk k && s.levelOk (s.fl (copyAt k + 6) 1) && ((s.candidate k).rulesBad (copyAt k)).isNone

/-- The copy to commit, and whether it is the one the change log names; none without a COMMIT_SWITCH entry. -/
def State.pickCopy (s : State) : Option (Nat × Bool) :=
  match s.lastSwitch with
  | none => none
  | some h =>
    let named (k : Nat) : Bool := decide (s.hash16 (copyAt k) = h)
    match [0, 1].find? fun k => named k && s.copyFit k with
    | some k => some (k, true)
    | none => ([0, 1].find? s.copyFit).map fun k => (k, false)

/-- CMODE of a pair without an entry, with split cores, or in lockstep (R162, R185). -/
def State.pairStart (s : State) (n : Nat) : State :=
  s.setFld (rPair_PR_STAT n) 0 3
    (if !s.anyEntry n (fun _ => true) then 6
     else if s.anyEntry n (fun e => s.bit (rPart_PT_CFG (s.sePart n e)) 6) then 2 else 0)

/-- Memory BIST leaves image SRAM with INIT words; the produced signals are coded under the constants now in force (R68, R413). -/
def State.imageInit (s : State) : State := s.each (List.range 512) fun x i => x.devWrite i 0 .init

/-- Step 8: the verified copy is committed locally. -/
def State.localCommit (s : State) (k : Nat) : State :=
  let s1 := (s.configure k).imageInit.newSlots s
  let s2 := s1.each ((List.range 32).filter fun u => s1.spdMode u ≠ 0) State.spdEnable
  s2.firstTokens.each (List.range 4) State.pairStart

/-- Steps 7 and 8. -/
def State.almanac (s : State) : State :=
  let s1 := match (if s.lcProvDep then s.pickCopy else none) with
    | some (k, named) => (s.localCommit k).when (!named) fun x => x.raise0 958
    | none => ((s.imageInit.each (allPages.filter s.pageUsed) fun x pg => x.setBit (rPg_PG_CTRL pg) 0 true).each (List.range 4)
        State.pairStart).raise0 45
  s1.lagBurn.wrN rLcs_BOOT_STEP 8

/-! The steps -/

/-- A step of 2 to 4 fails or is late: the device stays in BOOT, to restart at step 2 (R402). -/
def State.bootStuck (s : State) (step : Nat) : State :=
  (s.wrN rLcs_BOOT_STEP (step - 1 + 16)).modLcs fun l => { l with retry := true }

/-- OTP integrity failure: HALTED with the defaults of R407. -/
def State.otpHalt (s : State) : State :=
  (((s.wrN rLcs_BOOT_STEP (2 + 16)).logFirst.newSvcChal).modeCause 34 1 true).setMode .halted

/-- The pairs run loosely in SELFTEST (R162). -/
def State.pairsLoose (s : State) (b : Bool) : State := s.each (List.range 4) fun x n => x.setFld (rPair_PR_STAT n) 0 3 (b2n b)

/-- A self-test fails: HALTED (R16, R402). -/
def State.testFail (s : State) (step src : Nat) : State :=
  ((((s.pairsLoose false).wrN rLcs_BOOT_STEP (step - 1 + 16)).logReopen.newSvcChal).raise0 src).safeState src 1

/-- Step 9, field self-test: its findings act, and BIST_STAT shows whether it passed (R288). -/
def State.fieldTest (s : State) (f : FieldFind) : State := (s.fieldCheck f).setBit rLcs_BIST_STAT 2 (fieldOk f)

/-- The source shown for a failed field self-test: that of the first finding that fails it (log 137). -/
def fieldCause (f : FieldFind) : Nat × Nat :=
  match f.comp, f.rail.find? (fun n => !bankSkips f (n.val / 8)), f.shut.find? (fun b => !bankSkips f b.val) with
  | n :: _, _, _ => (385 + 2 * n.val, 1)
  | _, some n, _ => (384 + 2 * n.val, 1)
  | _, _, some b => (769 + 2 * b.val, 1)
  | _, _, _ => (0, 0)

/-- Would the message that a detector holds bring a HALT, by the base class of its source or the class to which its 1 + r events
escalate it (R453, R459, R464)? -/
def State.haltsBy (s : State) (n : Nat) : Bool :=
  let v := s.pol n
  let c := (List.range (1 + (s.det n).rep)).foldl (fun c _ => fltCount v (s.det n).time c) (s.fcnt n)
  (s.det n).held && (polBase v = 4 || (c.esc && polEsc v = 4))

/-- A source other than those named whose held message brings a HALT: in SELFTEST it fails the self-test (R455). -/
def State.haltHeld (s : State) (past : List Nat) : Option Nat :=
  (s.flt.det.find? fun e => s.haltsBy e.1 && !past.contains e.1).map fun e => e.1

/-- Step 10: local readiness. -/
def State.localReady (s : State) (env : StartEnv) : State :=
  let s1 := s.clogVerify.logReopen
  let s2 := s1.newSvcChal
  let s3 := ((s2.modVern fun v => { v with dayAt := s.now }).vnShow).when (!s1.ngl.valid) fun x => x.raise0 78
  let s4 := ((s3.wrN rLcs_BOOT_STEP 10).wrN rLcs_READY_TIME env.time.val).nglReady
  (s4.setMode .sync).tryOperate

/-- Steps 5 to 10, in SELFTEST (R412, R413, R455): a loose-signature mismatch fails step 5 (R193; log 137), and a HALT-class event is a
failed self-test. What detectors hold when the collector starts, at the end of logic BIST, is judged by the policies then in force, the
defaults; what comes later by those of the Almanac. -/
def State.selfTest (s : State) (env : StartEnv) (transp : Bool) : State :=
  let s1 := (s.modDev fun d => { d with
    pllLocked := true
    mode := .selftest }).pairsLoose true |>.wrN rLcs_BOOT_STEP 4
  let s1 := s1.modFlt fun f => { f with
    running := true
    shadowOk := true }
  if !env.logic then s1.testFail 5 40
  else match env.sig with
  | n :: _ => s1.testFail 5 (116 + 24 * n.val)
  | [] =>
    let fail (x : State) (step : Nat) (c : Nat × Nat) : State := (x.wrN rLcs_BOOT_STEP (step - 1 + 16)).logReopen.newSvcChal.safeState c.1 c.2
    let s2 := (s1.setBit rLcs_BIST_STAT 0 true).wrN rLcs_BOOT_STEP 5
    match s2.haltHeld [] with
    | some n => fail s2 5 (n, 1)
    | none =>
      let s2m := s2.setBit rLcs_BIST_STAT 3 transp
      if !env.memory then s2m.testFail 6 41
      else
        let s3 := (s2m.setBit rLcs_BIST_STAT 1 true).almanac.fieldTest env.field
        if !fieldOk env.field then fail s3 9 (fieldCause env.field)
        else match s3.haltHeld (s2.flt.det.map fun e => e.1) with
          | some n => fail s3 9 (n, 1)
          | none => s3.localReady env

/-- LC_CHANGE of a lifecycle change that this start-up follows (R410). -/
def State.lcNote (s : State) : State := if s.lcs.lcChange then (s.modLcs fun l => { l with lcChange := false }).raise0 44 else s

/-- A start-up from step 2 (R401 to R403). `cause` as BOOT_CAUSE. -/
def State.startUp (s : State) (cause : Nat) (env : StartEnv) : State :=
  let s1 := s.porRelease cause env
  let late (k : Nat) : Bool := env.fails.any fun f => f.val = k
  if late 0 then s1.bootStuck 2
  else if late 1 then s1.bootStuck 3
  else
    let s2 := s1.sense env
    if s2.bit rOtp_OTP_STAT 3 then s2.otpHalt.lcNote
    else if late 2 then s2.bootStuck 4
    else (s2.selfTest env (cause = 1 || cause = 2)).lcNote

/-! The commands -/

/-- VLOG valid, `dt` counts of the RTC after the last event of Nightglass: step 1, then step 2 on, unless nRESET is held. -/
def execVlogValid (dt : BitVec 32) (env : StartEnv) (s : State) : Host.Outcome State Fault Refusal :=
  done (
    if s.dev.vlogValid then s
    else
      let s1 := (s.rtcSet (s.rtcNow + dt.toNat)).modDev fun d => { d with vlogValid := true }
      let s2 := s1.blPut 4 0 false
      if s2.dev.nreset then s2 else s2.startUp (if s.lcs.starting then 3 else 0) env)

/-- 100 ms after a step that failed or was late: step 2 again (R402). -/
def execStartupRetry (env : StartEnv) (s : State) : Host.Outcome State Fault Refusal :=
  done (
    if !s.lcs.retry || !s.dev.vlogValid || s.dev.nreset then s
    else
      let s1 := if s.bit rLcs_BOOT_STEP 4 then s.rtcSet (s.rtcNow + 3277) else s
      s1.startUp (s.fld rLcs_BOOT_CAUSE 0 3) env)

/-- VLOG lost: POR asserted, BOOT; Nightglass records it, running from VBAK (R510, R519, R524). -/
def execVlogLost (s : State) : Host.Outcome State Fault Refusal :=
  done (
    if !s.dev.vlogValid then s
    else
      let s1 := (s.rtcSet s.rtcNow).modDev fun d => { d with vlogValid := false }
      let s2 := s1.blPut 3 0 false
      (s2.wiped [] true).bootRequest.modLcs fun l => { l with starting := s.modeIs .boot || s.modeIs .selftest })

/-- To BOOT from any mode: outputs off, Shutters open, channel indices INIT (R16, R256, R403). -/
def State.toBoot (s : State) : State :=
  let s1 := s.each ((List.range 192).filter s.swIsOn) fun x n => x.swOff n (BitVec.ofNat 16 (x.fld (rCh_RON n) 0 16))
  (s1.setMode .boot).each (List.range 192) fun x n => x.devWrite n 0 .init

/-- nRESET or nRESET_AUX asserted. -/
def execNresetAssert (s : State) : Host.Outcome State Fault Refusal :=
  let s1 := s.modDev fun d => { d with nreset := true }
  done (if s.dev.vlogValid then s1.toBoot else s1)

/-- nRESET released: start-up from step 2. -/
def execNresetRelease (env : StartEnv) (s : State) : Host.Outcome State Fault Refusal :=
  done (
    if !s.dev.nreset then s
    else
      let s1 := s.modDev fun d => { d with nreset := false }
      if s.dev.vlogValid then s1.startUp 1 env else s1)

/-! Lifecycle changes (R406, R410) -/

/-- The lifecycle word is burned, copy 0 first, each copy verified: the third copy count says which verification fails, 0 none, 1 that of
copy 1, 2 that of copy 0. -/
def State.lcBurn (s : State) (state : Nat) (fails : Fin 3) : State :=
  match fails with
  | 0 => s.otpSet 2 (codeOfLc state)
  | 1 => (s.modLcs fun l => { l with otp0 := Tab.set (fun _ => none) l.otp0 2 (some (codeOfLc state)) }).raise0 35
  | _ => s.raise0 35

/-- BOOT, and the start-up that follows; while nRESET is asserted the device stays in BOOT, and the start-up is the one of its release
(R403). -/
def State.restart (s : State) (cause : Nat) (env : StartEnv) : State := if s.dev.nreset then s.toBoot else s.toBoot.startUp cause env

/-- The start-up that ends a lifecycle change: LC_CHANGE is raised in it. -/
def State.changed (s : State) (cause : Nat) (env : StartEnv) : State := (s.modLcs fun l => { l with lcChange := true }).restart cause env

/-- May LC_CMD.ADVANCE be given: in BLANK by the SPI master without a session, in PROVISIONING by ADMIN? -/
def State.mayAdvance (s : State) (m : Master) : Bool :=
  if s.lc = 0 then m = .spi && (s.sess m).role = 0 else s.holdsAdmin m

/-- Do R410's conditions for ADVANCE hold? -/
def State.advanceOk (s : State) : Bool :=
  !s.bit rOtp_OTP_STAT 4
  && (if s.lc = 0 then [0, 1, 3, 4, 5, 6, 7, 8, 9, 10, 11, 20, 21, 22, 23, 24, 25, 26, 27].all s.otpHas
      else s.lc = 1 && [12, 13, 14, 15, 16, 17, 18, 19].all s.otpHas && s.lcs.weak.isEmpty && allBelow 16 fun p => s.ptMode p = 0)

/-- LC_CMD.ADVANCE: recorded, burned, and followed by a start-up. -/
def State.advance (s : State) (m : Master) (fails : Fin 3) (next : State → State) : State :=
  let note (x : State) (r : Nat) : State := x.clogNote (x.clogRole m) 0 (masterNum m) r 0x80 (s.lc + 1) []
  if !s.advanceOk then note s 1
  else if fails ≠ 0 then note (s.lcBurn (s.lc + 1) fails) 4
  else next (note (s.lcBurn (s.lc + 1) 0) 0)

def execLcAdvance (m : Master) (fails : Fin 3) (env : StartEnv) (s : State) : Host.Outcome State Fault Refusal :=
  done (s.cmdWrite m rLcs_LC_CMD (fun x => x.mayAdvance m) fun x => x.advance m fails fun y => y.changed 1 env)

/-! Service actions (R408, R437) -/

/-- Bytes of SVC_BUF. -/
def State.svcBytes (s : State) (lo n : Nat) : List Byte :=
  (((List.range 39).flatMap fun i => natLe 4 (s.rd (rCfg_SVC_BUF i)).toNat).drop lo).take n

/-- The hash the public key must have: ROOT_HASH where it was established, else the service key's. -/
def State.svcRoot (s : State) : List Byte :=
  if [12, 13, 14, 15, 16, 17, 18, 19].all s.otpHas then (List.range 8).flatMap fun i => natLe 4 (s.otpWord (12 + i)).toNat
  else hashBytes Config.serviceKeyHash

/-- Does the command in SVC_BUF check: action, identity, challenge, key and signature? -/
def State.svcOk (s : State) (action : Nat) : Bool :=
  decide (leNat (s.svcBytes 0 4) = action) && decide (leNat (s.svcBytes 4 8) = s.rd64 rOtp_DEV_ID_LO)
  && decide (s.cfg.svcChal ≠ 0) && decide (leNat (s.svcBytes 12 16) = s.cfg.svcChal.toNat)
  && decide (hashBytes (Config.sha256 (s.svcBytes 28 64)) = s.svcRoot)
  && Config.ecdsaOk (s.svcBytes 28 64) (s.svcBytes 92 64) (Config.sha256 (s.svcBytes 0 92))

/-- SVC_STAT, the record and SVC_FAIL of an action that fails. -/
def State.svcFail (s : State) (m : Master) : State :=
  (((s.wrN rCfg_SVC_STAT 3).raise0 959).clogNote (s.clogRole m) 0 (masterNum m) 1 0x81 0 []).newSvcChal

/-- RETURN: keys, Almanac copies and stored trims are erased, and LC is burned (R410). -/
def State.svcReturn (s : State) (m : Master) (fails : Fin 3) (next : State → State) : State :=
  let s1 := s.modNet fun x => { x with keys := [] }
  let s2 := s1.modMem fun x => { x with flash := Mem.clear (Mem.clear x.flash (copyAt 0) (copyAt 0 + 0x1000000)) (copyAt 1) (copyAt 1 + 0x1000000) }
  let s3 := s2.modCfg fun c => { c with trims := [] }
  if fails ≠ 0 then (s3.lcBurn 3 fails).svcFail m
  else next ((s3.lcBurn 3 0).clogNote (s3.clogRole m) 0 (masterNum m) 0 0x80 3 [])

/-- SVC_CMD.EXEC. `reset`, `returned`: what follows an action that has taken effect. -/
def State.svcExec (s : State) (m : Master) (fails : Fin 3) (reset returned : State → State) : State :=
  let note (x : State) (a : Nat) : State :=
    ((x.wrN rCfg_SVC_STAT 2).clogNote (x.clogRole m) 0 (masterNum m) 0 0x81 a []).newSvcChal
  if s.svcOk 1 then reset (note s 1)
  else if s.svcOk 2 && (s.lcWord = some 1 || s.lcWord = some 2) then (note s 2).svcReturn m fails returned
  else s.svcFail m

/-- The write of SVC_CMD by any master. -/
def State.svcWrite (s : State) (m : Master) (fails : Fin 3) (env : StartEnv) : State :=
  s.freeWrite m rCfg_SVC_CMD fun x => x.svcExec m fails (fun y => y.restart 2 env) (fun y => y.changed 2 env)

def execServiceReset (m : Master) (env : StartEnv) (s : State) : Host.Outcome State Fault Refusal := done (s.svcWrite m 0 env)
def execServiceReturn (m : Master) (fails : Fin 3) (env : StartEnv) (s : State) : Host.Outcome State Fault Refusal :=
  done (s.svcWrite m fails env)

end Sys2Proof.Machine
end

