-- ==== Sys2Proof/Machine/Boundary.lean ====
section
/-! DEFINITION. Superframe and major-frame boundaries (R56, R86, R87, R96, R97, R185 to R188, R372, R415, R432), and RESUME (R472). -/

namespace Sys2Proof.Machine

open Sys2Proof

/-- Do boundaries fall: CLK_TB runs, and start-up is over? -/
def State.frames (s : State) : Bool := s.tbRuns && !s.modeIs .boot

/-- The next multiple of `p` not yet taken; `last`: the one taken last, plus one. -/
def State.boundaryAt (s : State) (p last : Nat) : Nat := if s.now % p = 0 && last ≠ s.now + 1 then s.now else s.nextMultiple p

/-! The superframe boundary -/

/-- Write a device status index (R56). -/
def State.status (s : State) (idx v : Nat) : State := s.devWrite idx v .good

/-- The device status signals (R56). -/
def State.statusWrite (s : State) : State :=
  let s1 := s.status 224 (b2n (s.modeIs .operate))
  let s2 := s1.each (List.range 16) fun x p => x.status (225 + p) (b2n (x.ptMode p = 1))
  let s3 := (s2.status 241 (bitMask 16 s.bankOk)).status 242 (bitMask 8 fun b => s.bankOk (16 + b))
  let s4 := (s3.status 243 s.vern.margin).each (List.range 4) fun x k =>
    x.status (244 + k) (b2n (x.ngl.level.getLsbD k && !x.ngl.alarm.getLsbD k))
  let s5 := s4.status 248 (s.fld rFab_FAB_STAT 9 2)
  s5.each (List.range 7) fun x i => x.devWrite (249 + i) 0 .fault

/-- The words of held forces are written at every boundary (R432); under debug a SAFE partition's produced signals stay FAULT (R189). -/
def State.forceWrite (s : State) (p : Nat) : State :=
  s.each (s.part p).forces fun x f => x.devShow p f.1 f.2.toNat .forced

/-- A superframe begins at the present Meridian: status signals, channel and speed words, forced words, partition commands, the freshness
of imports (R424), captures (R333), the words a bridge forwards (R362), the sync class (R354), and the counts kept by superframe. -/
def State.superframe (s : State) : State :=
  let s0 := (s.modEng fun e => { e with lastSf := s.now + 1 }).fwdTake
  let s1 := (s0.modNet fun x => { x with wire := [] }).each (List.range 8) fun x p => x.modPort p fun y => { y with
    ord := 0
    tx := 0 }
  let s2 := (s1.statusWrite.each (List.range 192) State.chSuperframe).each (List.range 32) fun x u => x.spdWrite u x.now
  let s3 := ((s2.each (List.range 16) State.forceWrite).each (List.range 16) State.applyPartCmd).each (List.range 16) State.markFresh
  (s3.tCaptures 5 none).sendSync

def execSuperframeBoundary (s : State) : Host.Outcome State Fault Refusal :=
  done (if s.frames then (s.advanceTo (s.boundaryAt 6250 s.eng.lastSf)).superframe else s)

/-! Bank swaps (R97) -/

/-- Is a latched swap applied (R97, R98)? On a split pair one core alone runs the partition and latches the request, so it is not; an
unpaired pair under debug is taken as having latched it in both (log 154). -/
def State.swapOk (s : State) (p : Nat) : Bool :=
  let n := s.ptPair p
  s.cmode n ≠ 2 && !(s.part p).swapBad && decide (s.inactCrcOf (2 * n) p = s.inactCrcOf (2 * n + 1) p)
  && (!s.ptSafe p || decide (s.inactCrcOf (2 * n) p = s.rd (rPart_PGM_ALT_CRC p)))
  && !s.cfg.staging && decide (s.ptMode p ≤ 2)

/-- Step 3 of R96 for a partition. -/
def State.swapStep (s : State) (p : Nat) : State :=
  if !(s.part p).swapPend then s
  else
    if s.swapOk p then
      (((s.swapDrop p).wr (rPart_PGM_CRC_ACT p) (s.inactCrcOf (2 * s.ptPair p) p)).setFld (rPart_PGM_STAT p) 0 1 (1 - s.actBank p)).setBit
        (rPart_PGM_STAT p) 2 false
    else s.swapRefuse p

/-! Split, rejoin and offline (R162, R185 to R188, R417, R460) -/

def State.setCmode (s : State) (n k : Nat) : State := s.setFld (rPair_PR_STAT n) 0 3 k

/-- SPLIT_CTRL.PHASE. -/
def State.rejoinPhase (s : State) (n : Nat) : Nat := s.fld (rPair_SPLIT_CTRL n) 5 2
def State.setPhase (s : State) (n k : Nat) : State := s.setFld (rPair_SPLIT_CTRL n) 5 2 k

/-- Has the pair been taken out of service until the next start-up (R417, R460)? -/
def State.pairDead (s : State) (n : Nat) : Bool := s.flt.pairOff.getLsbD n || s.bit rLcs_PROOF_STAT (16 + n)

/-- Both cores are held in reset; no request is left. -/
def State.pairOffline (s : State) (n : Nat) : State :=
  let s1 := s.modPair n fun x => { x with
    offlinePend := false
    splitReq := false
    rejoinReq := false
    loadDone := false
    verifyBad := false }
  ((s1.setFld (rPair_SPLIT_CTRL n) 0 2 0).setPhase n 0).setCmode n 6

/-- The verification frame is over: lockstep, which on PAIR_0 under debug is replay debug (R190), or split again with REJOIN_FAIL (R187
step 5, R188). -/
def State.verifyEnd (s : State) (n : Nat) : State :=
  let bad := (s.pair n).verifyBad
  let s1 := ((s.modPair n fun x => { x with verifyBad := false }).setPhase n 0).setBit (rPair_SPLIT_CTRL n) 1 false
  if bad then (s1.setCmode n 2).raise (96 + 24 * n + 17) 0 0
  else (s1.setCmode n (if s1.bit (rPair_DBG_STAT n) 2 then 5 else 0)).setBit (rPair_DBG_STAT n) 1 false

/-- The copy is done: the PGM_CRC values of both banks are compared, and the pair runs a major frame in loose mode (R187 step 4). -/
def State.verifyBegin (s : State) (n : Nat) : State :=
  let side (u : Nat) : List Byte := Mem.bytes s.mem.pgm (u * 0x100000) 0x100000
  ((s.modPair n fun x => { x with
    loadDone := false
    verifyBad := decide (crc32c (side (2 * n)) ≠ crc32c (side (2 * n + 1))) }).setPhase n 2).setCmode n 1

/-- A request takes effect: split, or the rejoin's first steps (R186, R187). A request that finds the pair already as it asks lapses, and
a rejoin of a pair that debug holds unpaired (R189). -/
def State.pairAsk (s : State) (n : Nat) : State :=
  let x := s.pair n
  let s1 := (s.modPair n fun y => { y with
    splitReq := false
    rejoinReq := false }).setBit (rPair_SPLIT_CTRL n) 0 false
  if x.splitReq then (s1.setBit (rPair_SPLIT_CTRL n) 1 false).setCmode n 2
  else if x.rejoinReq && (s.cmode n = 2 || (s.cmode n = 4 && !s.bit (rPair_DBG_CTRL n) 0)) then
    (s1.modPair n fun y => { y with loadDone := false }).setPhase n 1
  else s1.setBit (rPair_SPLIT_CTRL n) 1 false

/-- Step 5 of R96 for a pair. -/
def State.pairStep (s : State) (n : Nat) : State :=
  if (s.pair n).offlinePend || s.pairDead n || !s.anyEntry n (fun _ => true) then s.pairOffline n
  else
    let s1 := if s.cmode n = 6 then s.setCmode n 0 else s
    if s1.rejoinPhase n = 2 then s1.verifyEnd n
    else if s1.rejoinPhase n = 1 then (if (s1.pair n).loadDone then s1.verifyBegin n else s1)
    else s1.pairAsk n

/-! The other actions of a boundary -/

/-- The recode units exchange service after a passing pass of the one not in service (R415, R417). -/
def State.rcuStep (s : State) : State :=
  s.when s.lcs.rcuPassed fun x => x.modLcs fun l => { l with
    rcu := 1 - l.rcu
    rcuPassed := false }

/-- Is the mirror at the buddy in sync, as far as this owner knows: a resync has been sent whole since the commit, the last request for one
and the last loss of the buddy (R183, R372; log 47)? -/
def State.mirrorThere (s : State) (p : Nat) : Bool := !s.buddyLost && s.eng.mirOk.contains p

/-- A HANDBACK returns the token, only if the home device's mirror is in sync (R372). -/
def State.handback (s : State) (p : Nat) : State :=
  let t := s.tok p
  if !t.back then s
  else if t.held && s.mirrorThere p then s.setTok p ⟨t.epoch + 1, s.slotAt s.buddyPos, false, false⟩
  else s.modTok p fun x => { x with back := false }

/-- AUTOSTART timers that ran through a step of Meridian are restarted (R325). -/
def State.rearmStep (s : State) : State :=
  if s.mer.rearm then
    (s.modMer fun m => { m with rearm := false }).each (List.range 48) fun x t =>
      if x.bit (rTmr_T_CFG t) 9 && (x.timer t).run = .running then x.tArm t else x
  else s

/-- An accepted RESUME takes effect; its grade follows as step 2 of R96 (R472). -/
def State.resumeStep (s : State) : State :=
  if !s.flt.resumePend then s
  else
    let s1 := s.modFlt fun f => { f with resumePend := false }
    if s.modeIs .harebell then (((s1.modDev fun d => { d with gradePend := none }).setMode .operate).tAutostart).wrN rFlt0_RESUME_RES 2
    else s1.wrN rFlt0_RESUME_RES 7

/-- A major frame begins at the present Meridian: R96's steps in order, and what other rules put at this boundary; a DORMANT request is
evaluated last (R17). -/
def State.majorFrame (s : State) : State :=
  let s0 := (s.modEng fun e => { e with lastMf := s.now + 1 }).bump64 rEng_MF_COUNT_LO
  let resumed := s0.flt.resumePend && s0.modeIs .harebell
  let s1 := s0.resumeStep.switchStep
  let s2 := if resumed then s1.resumeGrade else s1.gradeStep
  let s3 := (s2.each (List.range 16) State.swapStep).flushCaches
  let s4 := (s3.each (List.range 4) State.pairStep).rcuStep
  ((s4.each (List.range 16) State.handback).rearmStep).dormEval

/-- Ticks of a major frame. -/
def State.majorTicks (s : State) : Nat := 6250 * 2 ^ s.mfLog2

def execMajorFrameBoundary (s : State) : Host.Outcome State Fault Refusal :=
  done (if s.frames then (s.advanceTo (s.boundaryAt s.majorTicks s.eng.lastMf)).majorFrame else s)

/-- Meridian reaches the switch time of the set, a major-frame boundary (R445). -/
def execSetSwitchTime (s : State) : Host.Outcome State Fault Refusal :=
  done (match s.cfg.switchT with
    | some t => if s.frames && s.now ≤ t then (s.advanceTo t).majorFrame else s
    | none => s)

/-! RESUME (R472) -/

/-- Why a RESUME is not accepted, as RESUME_RES; 1: it is. Without a configured plane no plane is missing (log 67). -/
def State.resumeCode (s : State) : Nat :=
  let on := (List.range 2).filter fun k => s.fabOn && s.planeOn k
  if !s.modeIs .harebell then 7
  else if s.degradeLive then 3
  else if !on.isEmpty && !on.any fun k => s.bit rFab_FAB_STAT (9 + k) then 4
  else if s.vern.margin = 0 then 5 else 1

/-- A write of FLT_CTRL by MAINT or ADMIN. -/
def State.resumeCmd (s : State) (v : Word) : State :=
  if !v.getLsbD 0 then s
  else
    let k := s.resumeCode
    (s.wrN rFlt0_RESUME_RES k).modFlt fun f => { f with resumePend := f.resumePend || k = 1 }

/-- A write that is discarded for want of a role sets RESUME_RES to 6. -/
def State.resumeWrite (s : State) (m : Master) (v : Word) : State :=
  let s1 := s.cmdWrite m rFlt0_FLT_CTRL (fun x => x.holdsMA m) fun x => x.resumeCmd v
  if s.holdsMA m || s.asleep rFlt0_FLT_CTRL then s1 else s1.wrN rFlt0_RESUME_RES 6

def execResume (m : Master) (s : State) : Host.Outcome State Fault Refusal := done (s.resumeWrite m 1)

end Sys2Proof.Machine
end

