-- ==== Sys2Proof/Machine/Bus.lean ====
section
/-! DEFINITION. The register bus (R5, R6, R21 to R28, R31 to R42): a write or a read of any register by either master, BAR0 and
SPI frames. A write of a register that is a command of its own has that command's effect. -/

namespace Sys2Proof.Machine

open Sys2Proof

/-! Registers with no command behind them (R5, R31, R34, R35, R42) -/

/-- The roles a register's own rule names, else R34's second item. `v` is the value written. -/
def State.roleAt (s : State) (m : Master) (a : Nat) (v : Word) : Bool :=
  let pg := a / 0x1000
  if pg = 0x073 then s.holdsAdmin m
  else if a = rCfg_STG_OFF || a = rCfg_STG_DATA_LO then s.holdsAdmin m
  else if a = rCfg_FRC_SEL then s.holdsMA m || s.holdsOwner m (natBits v.toNat 0 4)
  else if a = rCfg_FRC_VAL then s.holdsMA m || s.holdsOwner m (s.fld (bk m rCfg_FRC_SEL) 0 4)
  else if (pg = 0x002 || pg = 0x003 || (0x021 ≤ pg && pg ≤ 0x024)) && 0x400 ≤ a % 0x1000 then s.holdsAdmin m
  else s.privAt m a

/-- The bits of a register that a write reaches: RW, RWL unless the page is locked; a W1S bit only sets (R5). -/
def wrBits (lk : Bool) (r : RegSpec) (old v : Word) : Word :=
  let mask := r.rw ||| (if lk then 0 else r.rwl)
  (old &&& ~~~ mask) ||| (v &&& mask) ||| (v &&& r.w1s)

/-- A running timer goes on from where it stands when T_CFG or CMP is written, and is idle where MODE becomes OFF (R330); a match due in the
same cycle is judged against the old values (R336). -/
def State.tRewrite (s : State) (a : Nat) (v : Word) : State :=
  let pg := a / 0x1000
  let o := a % 0x1000
  if 0x019 ≤ pg && pg ≤ 0x01B && 0x100 ≤ o && o < 0x400 && ((o - 0x100) % 0x30 = 0 || (o - 0x100) % 0x30 = 0x10) then
    let t := 16 * (pg - 0x019) + (o - 0x100) / 0x30
    let s1 := if s.tCounting t (s.tGoal t) && s.tAt t (s.tGoal t) = s.now then s.tMatch t else s
    if (s1.timer t).run = .idle then s1
    else if (o - 0x100) % 0x30 = 0 && natBits v.toNat 0 2 = 0 then s1.tHold t .idle
    else if (s1.timer t).run = .running then s1.tHold t .running else s1
  else s

/-- Apply a value to a register, with the low half the master staged for it (R42). The value is also kept as the last one a
write applied (R33). -/
def State.store (s : State) (m : Master) (a : Nat) (r : RegSpec) (v : Word) : State :=
  let s0 := if s.locked a then s else s.tRewrite a v
  let lk := s0.locked a
  let s1 := match s0.stagedFor m a, regSpecAt (a - 4) with
    | some w, some q =>
      let low := wrBits lk q (s0.rd (a - 4)) w
      ((s0.wr (a - 4) low).wr (lw (a - 4)) low).modMaster m fun x => { x with staged := none }
    | _, _ => s0
  let new := wrBits lk r (s1.rd a) v
  (s1.wr a new).wr (lw a) new

/-- A write of a register whose RWL fields are locked: denied where it would change one; its other fields are written (R34). -/
def State.storeLocked (s : State) (m : Master) (a : Nat) (r : RegSpec) (v : Word) : State :=
  let s1 := if (v ^^^ s.rd a) &&& r.rwl = 0 then s else s.denied m a
  if r.rw ||| r.w1s = 0 then s1 else s1.store m a r v

/-- A write of a register with no command of its own. The low half of a wide RW value is staged (R42). -/
def State.plainWrite (s : State) (m : Master) (a : Nat) (r : RegSpec) (v : Word) : State :=
  if s.asleep a then s
  else
    let s1 := s.noteWrite m a
    if !s1.mayWrite m a (s1.roleAt m a v) then s1.denied m a
    else if 0x400 ≤ a % 0x1000 && !s1.expertAt m a then s1.expertDenied m a
    else if r.rl then (if r.rw = 0 then s1 else s1.modMaster m fun x => { x with staged := some (a, v) })
    else if r.rwl ≠ 0 && s1.locked a then s1.storeLocked m a r v
    else s1.store m a r v

/-! PG_CTRL (R31, R32, R35) -/

/-- A write of EN. One that R32 ignores, or a locked page refuses, is recorded in DENY_ADDR and DENY_MASTER as a write that R34 refuses is
(log 160). -/
def State.pgEn (s : State) (m : Master) (pg : Nat) (en : Bool) : State :=
  let a := rPg_PG_CTRL pg
  if !en && s.cfg.used.contains pg then s.denied m a
  else if en = s.bit a 0 then s
  else if s.locked a then s.denied m a else s.setBit a 0 en

/-- A write of EXPERT. -/
def State.pgExpert (s : State) (m : Master) (pg : Nat) (ex : Bool) : State :=
  let a := rPg_PG_CTRL pg
  if ex && !s.bit a 1 && !s.holdsExpert m then s.expertDenied m a else s.setBit a 1 ex

/-- LOCK_REQ: the page is locked until the next reset. -/
def State.pgLock (s : State) (pg : Nat) : State := (s.setBit (rPg_PG_CTRL pg) 2 true).setBit (rPg_PG_STAT pg) 1 true

/-- A write of PG_CTRL: its fields are applied one by one, the lock last. -/
def State.pgCtrl (s : State) (m : Master) (pg : Nat) (v : Word) : State :=
  s.cmdWrite m (rPg_PG_CTRL pg) (fun x => x.roleAt m (rPg_PG_CTRL pg) v) fun x =>
    ((x.pgEn m pg (v.getLsbD 0)).pgExpert m pg (v.getLsbD 1)).when (v.getLsbD 2) fun y => y.pgLock pg

/-- The same for a page that may not exist (R6). -/
def State.pgCtrlAt (s : State) (m : Master) (pg : Nat) (v : Word) : State :=
  if (pageBlock pg).isSome then s.pgCtrl m pg v else s

def execPgEnWrite (m : Master) (pg : Fin 448) (en : Bool) (s : State) : Host.Outcome State Fault Refusal :=
  done (s.pgCtrlAt m pg.val (BitVec.ofNat 32 (b2n en + 2 * b2n (s.bit (rPg_PG_CTRL pg.val) 1))))
def execPgExpertWrite (m : Master) (pg : Fin 448) (ex : Bool) (s : State) : Host.Outcome State Fault Refusal :=
  done (s.pgCtrlAt m pg.val (BitVec.ofNat 32 (b2n (s.bit (rPg_PG_CTRL pg.val) 0) + 2 * b2n ex)))
def execLockReq (m : Master) (pg : Fin 448) (s : State) : Host.Outcome State Fault Refusal :=
  done (s.pgCtrlAt m pg.val (BitVec.ofNat 32
    (b2n (s.bit (rPg_PG_CTRL pg.val) 0) + 2 * b2n (s.bit (rPg_PG_CTRL pg.val) 1) + 4)))

/-! Commands of the blocks. Each answers none where offset `o` of its page is no command. -/

def State.wrCommon (s : State) (m : Master) (pg o : Nat) (v : Word) : Option State :=
  match o with
  | 0x0C => some (s.pgCtrl m pg v)
  | 0x2C => some (s.freeWrite m (rPg_INJ_KEY pg) fun x => x.injKey m pg v)
  | 0x30 => some (s.injWrite m pg v)
  | _ => none

/-- W1C bits of any page (R36, R37). -/
def State.wrW1c (s : State) (m : Master) (a : Nat) (v hw : Word) : State :=
  s.freeWrite m a fun x =>
    if rEvt_PEND 0 ≤ a ∧ a ≤ rEvt_PEND 47 then x.pendClear ((a - rEvt_PEND 0) / 4) v hw else x.w1c a v hw

def State.wrXfer (s : State) (m : Master) (o : Nat) (v : Word) : Option State :=
  if o = 0x40 then some (s.regCmd m rXfer_XF_CTRL fun x => x.xfCtrl v)
  else if o < 0x100 || 0x180 ≤ o then none
  else
    let q := (o - 0x100) / 0x20
    match (o - 0x100) % 0x20 with
    | 0x00 => some (s.regCmd m (xqReg q 1) fun x => x.xqConfig m q 1 v)
    | 0x04 => some (s.regCmd m (xqReg q 2) fun x => x.xqConfig m q 2 v)
    | 0x08 => some (s.regCmd m (xqReg q 0) fun x => x.xqConfig m q 0 v)
    | 0x0C => some (s.regCmd m (rXfer_XQ_TAIL q) fun x => x.xqTail q v)
    | _ => none

/-- DBG_DATA_HI writes the selected register, with the low half staged for it, else with its low half as it stands (R42, R194). -/
def State.wrDbgData (s : State) (m : Master) (n : Nat) (v : Word) : State :=
  s.expertCmd m (rPair_DBG_DATA_HI n) (fun x => x.holdsAdmin m) fun x =>
    let lo := match x.stagedFor m (rPair_DBG_DATA_HI n) with
      | some w => w.toNat
      | none => x.dbgValue n % 2 ^ 32
    (x.dbgRegWrite n (lo + 2 ^ 32 * v.toNat) (x.stagedFor m (rPair_DBG_DATA_HI n)).isSome).modMaster m fun y => { y with staged := none }

def State.wrPair (s : State) (m : Master) (n o : Nat) (v : Word) (env : WriteEnv) : Option State :=
  match o with
  | 0xB4 => some (s.cmdWrite m (rPair_SPLIT_CTRL n) (fun x => x.holdsAdmin m) fun x => x.splitCtrl n v)
  | 0x400 => some (s.dbgCmd m n fun x => x.dbgCtrl m n v env.coll)
  | 0x420 => some (s.wrDbgData m n v)
  | _ => none

def State.wrMap (s : State) (m : Master) (o : Nat) (v : Word) : Option State :=
  match o with
  | 0x54 => some (s.regCmd m rMap_DE_CMD fun x => x.deCmd m v)
  | 0x60 => some (s.regCmd m rMap_CQ_ID fun x => x.cqWrite v)
  | 0x9C => some (s.regCmd m rMap_INV_ALL fun x => x.when (v.getLsbD 0) State.flushCaches)
  | _ => none

def State.wrTmr (s : State) (m : Master) (g o : Nat) (v : Word) : Option State :=
  if o < 0x100 || 0x400 ≤ o then none
  else
    let t := 16 * g + (o - 0x100) / 0x30
    match (o - 0x100) % 0x30 with
    | 0x0C => some (s.regCmd m (rTmr_CNT_SET t) fun x => x.tCntSet m t v)
    | 0x24 => some (s.regCmd m (rTmr_T_CMD t) fun x => x.tCmd m t v)
    | _ => none

/-- TEST_CTRL: only while the lane's port is DISABLED or ISOLATED; else ignored, with HOST_EXPERT_DENIED for the WARN event that
R377 does not name (log 68). -/
def State.wrLaneTest (s : State) (m : Master) (l : Nat) (v : Word) : State :=
  let a := rLane_TEST_CTRL l
  s.expertCmd m a (fun x => x.privAt m a) fun x =>
    let idle := match lanePort l with
      | some p => x.portState p = 0 || x.portState p = 6
      | none => true
    if idle then x.wrN a (natBits v.toNat 0 3) else x.expertDenied m a

/-- Writes of the KEYS page that are no plain stores; a newly selected slot shows its RETIRE time (R400; log 55). -/
def State.wrKeys (s : State) (m : Master) (o : Nat) (v : Word) : Option State :=
  if o = 0x68 then some (s.keyCmd m v)
  else if o = 0x40 then some (s.cmdWrite m rKeys_KEY_SEL (fun x => x.holdsAdmin m) fun x =>
    let y := x.wrN rKeys_KEY_SEL (natBits v.toNat 0 7 + 256 * natBits v.toNat 8 1)
    y.wr64 rKeys_KEY_RETIRE_LO (y.keySlot y.keyOwner y.keyIdx).retire)
  else if 0x44 ≤ o && o < 0x54 then
    some (s.cmdWrite m (page 0x073 + o) (fun x => x.holdsAdmin m) fun x =>
      x.modNet fun y => { y with staged := Tab.set (fun _ => (0 : Word)) y.staged ((o - 0x44) / 4) v })
  else none

/-- MAN_SEL: in BLANK the SPI master without a session, and no other (R414). -/
def State.wrManSel (s : State) (m : Master) (v : Word) : State :=
  let set (x : State) : State := x.wrN rLcs_MAN_SEL (natBits v.toNat 0 9)
  if s.lc = 0 then s.cmdWrite m rLcs_MAN_SEL (fun x => m = .spi && (x.sess m).role = 0) set
  else s.expertCmd m rLcs_MAN_SEL (fun x => x.holdsAdmin m) set

def State.wrLcs (s : State) (m : Master) (o : Nat) (v : Word) (env : WriteEnv) : Option State :=
  match o with
  | 0x44 => some (s.cmdWrite m rLcs_LC_CMD (fun x => x.mayAdvance m) fun x =>
      x.when (v.getLsbD 0) fun y => y.advance m env.fails fun z => z.changed 1 env.start)
  | 0x400 => some (s.wrManSel m v)
  | 0x404 => if natBits v.toNat 0 2 = 0 then none else some (s.manCmd m env.ok)
  | _ => none

def State.wrCfg (s : State) (m : Master) (o : Nat) (v : Word) (env : WriteEnv) : Option State :=
  match o with
  | 0x5C => some (s.cmdWrite m rCfg_STG_DATA_LO (fun x => x.holdsAdmin m) fun x => x.wr rCfg_STG_DATA_LO v)
  | 0x60 => some (s.stgData m v env.ok)
  | 0x64 => some (s.stgCmd m v)
  | 0x80 => some (s.freeWrite m rCfg_SESS_REQ fun x => (x.sessReq m v).wr (lw rCfg_SESS_REQ) (v &&& 0x1F3))
  | 0xA4 => some (s.freeWrite m rCfg_SESS_CMD fun x => x.sessCmd m v)
  | 0x100 => some (s.partWrite m v)
  | 0x108 => some (s.fnWrite m v)
  | 0x10C => some (s.cmdWrite m rCfg_FRC_SEL (fun x => x.roleAt m rCfg_FRC_SEL v) fun x =>
      (x.wr (bk m rCfg_FRC_SEL) (v &&& 0x1FF000F)).wr (lw rCfg_FRC_SEL) (v &&& 0x1FF000F))
  | 0x114 => some (s.frcWrite m v)
  | 0x230 => if v.getLsbD 0 then some (s.svcWrite m env.fails env.start) else some (s.freeWrite m rCfg_SVC_CMD id)
  | _ =>
    if (0x94 ≤ o && o < 0xA4) || (0xC0 ≤ o && o < 0xF4) then
      some (s.freeWrite m (page 0x07C + o) fun x => x.wr (bk m (page 0x07C + o)) v)
    else if 0x190 ≤ o && o < 0x22C then some (s.freeWrite m (page 0x07C + o) fun x => x.wr (page 0x07C + o) v)
    else none

def State.wrFlt (s : State) (m : Master) (b : Block) (o : Nat) (v : Word) : Option State :=
  match b, o with
  | .flt0, 0x44 => some (s.resumeWrite m v)
  | .flt2, 0x50 => some (s.cmdWrite m rFlt2_CNT_CMD (fun x => x.holdsMA m) fun x => x.cntCmd v)
  | .flt3, 0x44 => some (s.regCmd m rFlt3_POL_LO fun x => x.polWrite m false v)
  | .flt3, 0x48 => some (s.regCmd m rFlt3_POL_HI fun x => x.polWrite m true v)
  | _, _ => none

def State.wrLog (s : State) (m : Master) (o : Nat) (v : Word) : Option State :=
  match o with
  | 0x4C => some (s.regCmd m rLog_HOST_RP fun x => x.hostRp v)
  | 0x80 => some (s.regCmd m rLog_FL_SEL fun x => x.flRead v)
  | 0xAC => some (s.regCmd m rLog_CMD fun x => x.when (v.getLsbD 0) State.logFlush)
  | _ => none

/-- A write of DORM_CMD: ENTER, with ALARM_USE; in DORMANT, WAKE (R514). -/
def State.dormWrite (s : State) (m : Master) (v : Word) (field : FieldFind) : State :=
  if s.modeIs .dormant then
    let s1 := s.noteWrite m rSup_DORM_CMD
    if v.getLsbD 1 then s1.wakeCmd m field else s1
  else if v.getLsbD 0 then s.dormAsk m (v.getLsbD 2)
  else s.cmdWrite m rSup_DORM_CMD (fun x => x.holdsMA m) id

/-- Commands of the field pages. -/
def State.wrField (s : State) (m : Master) (b : Block) (i o : Nat) (v : Word) (env : WriteEnv) : Option State :=
  match b, o with
  | .spd, 0x84 => some (s.spdCmd m i v)
  | .ch, 0x7C => some (s.chCmd m i v)
  | .ch, 0x120 => some (s.trimCmd m i v)
  | .bank, 0x68 => some (s.bankCmd m i v env.rail env.fall env.ron)
  | _, _ => none

/-- Commands of the fabric and Ethernet pages. -/
def State.wrLinks (s : State) (m : Master) (b : Block) (i o : Nat) (v : Word) : Option State :=
  match b, o with
  | .fab, 0x80 => some (s.tokenCmd m v)
  | .port, 0x74 => some (s.portCmd m i v)
  | .lane, 0x400 => some (s.wrLaneTest m i v)
  | .safe, 0x98 => some (s.safeCmd m v)
  | .keys, _ => s.wrKeys m o v
  | _, _ => none

/-- Commands of the pages of the device itself. -/
def State.wrDevice (s : State) (m : Master) (b : Block) (o : Nat) (v : Word) (env : WriteEnv) : Option State :=
  match b, o with
  | .otp, 0x408 => some (s.burnWrite m v env.ok)
  | .lcs, _ => s.wrLcs m o v env
  | .cfg, _ => s.wrCfg m o v env
  | .evt, 0x48 => some (s.regCmd m rEvt_RT_DATA fun x => x.routeWrite v)
  | .evt, 0x4C => some (s.regCmd m rEvt_VEC_ACK fun x => x.vecAck (natBits v.toNat 0 6))
  | .sup, 0x58 => some (s.dormWrite m v env.start.field)
  | .ngl, 0x50 => some (s.cmdWrite m rNgl_VG_ACK (fun x => x.holdsMaint m) fun x => x.vgAckWrite m v.toNat)
  | _, _ => none

/-- The command a register is, if it is one. -/
def State.wrBlock (s : State) (m : Master) (b : Block) (i o : Nat) (v : Word) (env : WriteEnv) : Option State :=
  match b with
  | .xfer => s.wrXfer m o v
  | .pair => s.wrPair m i o v env
  | .map => s.wrMap m o v
  | .tmr => s.wrTmr m i o v
  | .spd | .ch | .bank => s.wrField m b i o v env
  | .fab | .port | .lane | .safe | .keys => s.wrLinks m b i o v
  | .otp | .lcs | .cfg | .evt | .sup | .ngl => s.wrDevice m b o v env
  | .flt0 | .flt1 | .flt2 | .flt3 => s.wrFlt m b o v
  | .log => s.wrLog m o v
  | .sys | .clk | .rng | .vern | .mer | .eng | .part | .eph | .eth | .host => none

/-! Writes -/

/-- A 32-bit write at the 4-aligned BAR0 offset `a`. A place without a register ignores it (R6). -/
def State.busWrite (s : State) (m : Master) (a : Nat) (v : Word) (env : WriteEnv) : State :=
  match pageBlock (a / 0x1000), regSpecAt a with
  | some (b, i), some r =>
    let o := a % 0x1000
    if r.w1c ≠ 0 then s.wrW1c m a v env.hw
    else match (if o < 0x40 then s.wrCommon m (a / 0x1000) o v else s.wrBlock m b i o v env) with
      | some s1 => s1
      | none => s.plainWrite m a r v
  | _, _ => if s.asleep a then s else s.noteWrite m a

/-- Is the register at `a` the low half of a wide RW value (R42)? -/
def isWideRw (a : Nat) : Bool :=
  match regSpecAt a with
  | some r => r.rl && r.rw ≠ 0
  | none => false

/-- An 8-byte write applies both halves in one cycle, or, refused, neither (R26, R42). -/
def State.busWrite64 (s : State) (m : Master) (a : Nat) (lo hi : Word) (env : WriteEnv) : State :=
  if isWideRw a then
    if s.asleep a then s
    else (((s.noteWrite m a).modMaster m fun x => { x with staged := some (a, lo) }).busWrite m (a + 4) hi env).modMaster m fun x =>
      { x with staged := none }
  else (s.busWrite m a lo env).busWrite m (a + 4) hi env

/-- HOST_ACCESS_SIZE, with the count of R25 or of R27. -/
def State.badSize (s : State) (m : Master) : State :=
  (s.raise0 945).bump (match m with
    | .pcie => rHost_PCIE_ERR
    | .spi => rHost_SPI_ERR)

/-- A write of 4 bytes, or of 8, at offset 4·i of BAR0. -/
def State.writeIn (s : State) (m : Master) (a : Nat) (v : Word) (hi : Option Word) (env : WriteEnv) : State :=
  match hi with
  | none => s.busWrite m a v env
  | some w => if a % 8 = 0 then s.busWrite64 m a v w env else s.badSize m

/-- A write through a BAR: BAR2 discards it; BAR4 takes words of the MSI-X table (R24). Only PCIe has BARs. -/
def execRegisterWrite (m : Master) (a : BarAddr) (v : BitVec 32) (hi : Option (BitVec 32)) (env : WriteEnv) (s : State) :
    Host.Outcome State Fault Refusal :=
  let o := 4 * a.i.toNat
  done (match a.sp with
    | .bar0 => s.writeIn m o v hi env
    | .bar2 _ => s
    | .bar4 => if m = .spi then s else match hi with
      | none => s.bar4Write (o % 4096) v
      | some w => (s.bar4Write (o % 4096) v).bar4Write (o % 4096 + 4) w)

/-- A 32-bit write of the low half of a wide value. -/
def execWideLowWrite (m : Master) (i : BitVec 26) (v : BitVec 32) (env : WriteEnv) (s : State) : Host.Outcome State Fault Refusal :=
  done (s.busWrite m (4 * i.toNat) v env)

/-- A 32-bit write of its high half. -/
def execWideHighWrite (m : Master) (i : BitVec 26) (v : BitVec 32) (env : WriteEnv) (s : State) : Host.Outcome State Fault Refusal :=
  done (s.busWrite m (4 * i.toNat) v env)

/-! Reads (R5, R23, R38, R40, R41) -/

/-- The effect of reading an RC register: its reset value. SAFE shows counters of the selected connection (R399). -/
def State.rcClear (s : State) (a : Nat) (r : RegSpec) : State :=
  if a / 0x1000 = 0x072 && 0x84 ≤ a % 0x1000 then
    s.modConn (s.fld rSafe_CONN_SEL 0 6) fun x => match a % 0x1000 with
      | 0x84 => { x with gap := 0 }
      | 0x88 => { x with dup := 0 }
      | 0x8C => { x with old := 0 }
      | 0x90 => { x with auth0 := 0, auth1 := 0 }
      | _ => { x with crc0 := 0, crc1 := 0 }
  else s.wr a r.rst

/-- An access to a gated page wakes its block (R32). -/
def State.touch (s : State) (a : Nat) : State :=
  if (pageBlock (a / 0x1000)).isSome && !s.asleep a then s.wakePage (a / 0x1000) else s

/-- The pair whose DBG_DATA_LO is at `a`. -/
def dbgDataPair (a : Nat) : Option Nat := (List.range 4).find? fun n => a = rPair_DBG_DATA_LO n

/-- The live value of the register at `a`, with the effects of RC, of RNG_DATA and of a debugger's register read (R5, R190, R422). -/
def State.readLive (s0 : State) (m : Master) (a : Nat) : State × Word :=
  let s := s0.touch a
  if a = rRng_RNG_DATA then s.rngRead
  else if let some n := dbgDataPair a then (s.replayPush n .regRead, s.view (some m) a)
  else match regSpecAt a with
    | some r => (if r.rc then s.rcClear a r else s, s.view (some m) a)
    | none => (s, 0)

/-- A 32-bit read: a low half latches the high half; a high half is read from the shadow tagged for it (R40). -/
def State.busRead (s : State) (m : Master) (a : Nat) : State × Word :=
  let (s1, v) := s.readLive m a
  if isLow a then
    (s1.modMaster m fun x => { x with shadowTag := some a, shadow := s1.view (some m) (a + 4) }, v)
  else if 4 ≤ a && isLow (a - 4) && (s.master m).shadowTag = some (a - 4) then (s1, (s.master m).shadow)
  else (s1, v)

/-- An 8-byte read: both halves live, no shadow read or changed (R41). -/
def State.busRead64 (s : State) (m : Master) (a : Nat) : State × BitVec 64 :=
  let (s1, lo) := s.readLive m a
  let (s2, hi) := s1.readLive m (a + 4)
  (s2, BitVec.ofNat 64 (lo.toNat + 2 ^ 32 * hi.toNat))

/-- A read of 4 or 8 bytes, with the data it returns. -/
def State.readOut (s : State) (m : Master) (a : Nat) (wide : Bool) : State :=
  if wide then
    if a % 8 = 0 then
      let (s1, v) := s.busRead64 m a
      s1.emit (.rdata m v)
    else (s.badSize m).emit (.rdata m 0)
  else
    let (s1, v) := s.busRead m a
    s1.emit (.rdata m (v.setWidth 64))

/-- A read of the MSI-X table or the pending-bit array. -/
def State.bar4Out (s : State) (off : Nat) (wide : Bool) : State :=
  s.emit (.rdata .pcie (BitVec.ofNat 64 ((s.bar4Read off).toNat + (if wide then 2 ^ 32 * (s.bar4Read (off + 4)).toNat else 0))))

/-- A read of an RC register, or of any other that is no half of a wide value; a read of BAR2, byte for byte from offset a.i of the
Logbook SRAM, or of BAR4 (R24). In DORMANT the Logbook has no power and reads as zero (R515). -/
def execRcRegisterRead (m : Master) (a : BarAddr) (wide : Bool) (s : State) : Host.Outcome State Fault Refusal :=
  done (match a.sp with
    | .bar0 => s.readOut m (4 * a.i.toNat) wide
    | .bar2 n => if m = .spi then s
      else s.emit (.window (if s.modeIs .dormant then List.replicate n.val 0 else Mem.bytes s.mem.logm (a.i.toNat % 2 ^ 22) n.val))
    | .bar4 => if m = .spi then s else s.bar4Out (4 * a.i.toNat % 4096) wide)
def execWideLowRead (m : Master) (i : BitVec 26) (wide : Bool) (s : State) : Host.Outcome State Fault Refusal :=
  done (s.readOut m (4 * i.toNat) wide)
def execWideHighRead (m : Master) (i : BitVec 26) (s : State) : Host.Outcome State Fault Refusal :=
  done (s.readOut m (4 * i.toNat) false)

/-- A BAR0 access of another size, or not naturally aligned: zero data or discarded; a request of more than 8 bytes ends with
Completer Abort (R25). -/
def execBar0BadAccess (write long : Bool) (s : State) : Host.Outcome State Fault Refusal :=
  done (if long then (s.badSize .pcie).emit .abort else if write then s.badSize .pcie else (s.badSize .pcie).emit (.rdata .pcie 0))

/-! SPI frames (R27, R28) -/

/-- The CRC-8 over header and data as sent. -/
def spiCrc (hdr : BitVec 32) (data : BitVec 64) (w64 : Bool) : BitVec 8 :=
  crc8Go (if w64 then 64 else 32) data.toNat (crc8Go 32 hdr.toNat 0)

/-- The result of a frame, shown in the next one's status. -/
def State.spiDone (s : State) (r : Nat) : State := s.modHost fun h => { h with spiLast := r }

/-- The status word that goes out with a frame's header: the result of the frame before it (R27). -/
def State.spiStatus (s : State) : BitVec 32 := BitVec.ofNat 32 (0x5A5A0000 + s.host.spiLast)

/-- A rejected frame: result 1 or 3. Of its MISO the spec gives the status word alone (log 129). -/
def State.spiBad (s : State) (r : Nat) : State := ((s.emit (.misoStatus s.spiStatus)).bump rHost_SPI_ERR).spiDone r

/-- Detectors of R34 and R35 as if nothing were held: what a write then holds tells whether it was denied. -/
def State.undenied (s : State) : State :=
  s.modFlt fun f => { f with det := Tab.set (fun _ => Det.reset) (Tab.set (fun _ => Det.reset) f.det 944 Det.reset) 949 Det.reset }

/-- A write frame's write. -/
def State.spiApply (s : State) (a : Nat) (w64 : Bool) (data : BitVec 64) (env : WriteEnv) : State :=
  if w64 then s.busWrite64 .spi a (data.setWidth 32) ((data >>> 32).setWidth 32) env else s.busWrite .spi a (data.setWidth 32) env

/-- A write frame whose CRC checks. -/
def State.spiWrite (s : State) (a : Nat) (w64 : Bool) (data : BitVec 64) (env : WriteEnv) : State :=
  let t := s.undenied.spiApply a w64 data env
  ((s.emit (.misoStatus s.spiStatus)).spiApply a w64 data env).spiDone (if (t.det 944).held || (t.det 949).held then 2 else 0)

/-- A read frame: MISO carries the status of the previous frame, the value and their CRC. -/
def State.spiRead (s : State) (hdr : BitVec 32) (a : Nat) (w64 : Bool) : State :=
  let p : State × BitVec 64 := if w64 then s.busRead64 .spi a else
    let q := s.busRead .spi a
    (q.1, q.2.setWidth 64)
  (p.1.emit (.miso s.spiStatus p.2 (spiCrc hdr p.2 w64))).spiDone 0

/-- A frame: its header; for a write its data and CRC; whether it ended after its last CRC bit. -/
def State.spiFrame (s : State) (hdr : BitVec 32) (data : BitVec 64) (crc : Byte) (whole : Bool) (env : WriteEnv) : State :=
  let rd := hdr.getLsbD 31
  let w64 := hdr.getLsbD 30
  let a := natBits hdr.toNat 0 28
  if !whole then s.spiBad 1
  else if !rd && crc ≠ spiCrc hdr data w64 then (s.spiBad 1).raise0 946
  else if a % (if w64 then 8 else 4) ≠ 0 then (s.spiBad 3).raise0 945
  else if rd then s.spiRead hdr a w64 else s.spiWrite a w64 data env

def execSpiFrame (hdr : BitVec 32) (data : BitVec 64) (crc : BitVec 8) (whole : Bool) (env : WriteEnv) (s : State) :
    Host.Outcome State Fault Refusal :=
  done (s.spiFrame hdr data crc whole env)

end Sys2Proof.Machine
end

