-- ==== Sys2Proof/Machine/Coded.lean ====
section
/-! DEFINITION. Meanings of the coded Sextant instructions: loads and stores (R114 to R117), arithmetic and logic
(R118, R119) and timers (R120, R121). A command names the core unit u = 2·pair + core; in lockstep the main core. -/

namespace Sys2Proof.Machine

open Sys2Proof

/-- LDS Cd, e (R114). -/
def execLds (u : Fin 8) (d : Fin 32) (e : BitVec 12) (env : LoadEnv) (s : State) : Host.Outcome State Fault Refusal :=
  done (s.instr u.val true 4 12 fun x => x.loadEntry u.val d.val e.toNat env)

/-- LDS.X Cd, Pa, e: entry (Pa + e) mod 4,096; restricted to STANDARD partitions (R113, R143). -/
def execLdsX (u : Fin 8) (d : Fin 32) (a : Fin 16) (e : BitVec 12) (env : LoadEnv) (s : State) :
    Host.Outcome State Fault Refusal :=
  done (s.instr u.val (!s.runsSafe u.val) 4 12 fun x =>
    x.loadEntry u.val d.val (((x.readP u.val a.val).toNat + e.toNat) % 4096) env)

/-- STS Ca, x: check, rebase to the signal ID, stage (R116). -/
def State.storeEntry (s : State) (u a x : Nat) : Res :=
  let c := s.core u
  match s.exportEntry c.part x with
  | .error e => (s, some e)
  | .ok (idx, _, _) =>
    match s.readC u a with
    | none => (s, some .codeCheck)
    | some (v, q) => (s.stage u (.store idx (mkCsw (s.aP c.part) (s.selfId idx) (safeV v q) c.ssf q)), none)

/-- Does the class of the running partition admit a store through export entry x (R143)? SAFE_INT is taken as stored, before ECHK is
judged: R142 puts the illegal opcode first (log 119). -/
def State.storeLegal (s : State) (u x : Nat) : Bool :=
  let p := (s.core u).part
  s.runsSafe u || s.winHdr p 16 ≤ x || !natBit (Mem.w32 s.mem.img (s.expAt p x)).toNat 10

/-- STS Ca, x (R116, R143). -/
def execSts (u : Fin 8) (a : Fin 32) (x : BitVec 9) (s : State) : Host.Outcome State Fault Refusal :=
  done (s.instr u.val (s.storeLegal u.val x.toNat) 3 4 fun y => y.storeEntry u.val a.val x.toNat)

/-- LDV Cd, k: the value last staged in the slot, else the stored variable (R117). -/
def execLdv (u : Fin 8) (d : Fin 32) (k : BitVec 10) (s : State) : Host.Outcome State Fault Refusal :=
  done (s.instr u.val true 2 3 fun x =>
    let c := x.core u.val
    if x.winHdr c.part 40 ≤ k.toNat then (x, some .window)
    else
      let w := (stagedVar k.toNat c.staged).getD (x.imgCsw (x.varAt c.part k.toNat) (tagVar k.toNat))
      if cswValid (x.aP c.part) w (tagVar k.toNat) then
        x.writeC u.val d.val (cswVal (x.aP c.part) w (tagVar k.toNat)) (cswQual w)
      else (x, some .codeCheck))

/-- STV Ca, k: staged until END (R117). -/
def execStv (u : Fin 8) (a : Fin 32) (k : BitVec 10) (s : State) : Host.Outcome State Fault Refusal :=
  done (s.instr u.val true 2 3 fun x =>
    let c := x.core u.val
    if x.winHdr c.part 40 ≤ k.toNat then (x, some .window)
    else match x.readC u.val a.val with
      | none => (x, some .codeCheck)
      | some (v, q) => (x.stage u.val (.var k.toNat (mkCsw (x.aP c.part) (tagVar k.toNat) (safeV v q) c.ssf q)), none))

/-- A coded instruction of one source (R110, R111): `f` gives the value. -/
def State.coded1 (s : State) (u d a : Nat) (f : Nat → Nat) : Res :=
  match s.readC u a with
  | some (v, q) => s.writeC u d (f v) q
  | none => (s, some .codeCheck)

/-- A coded instruction of two sources; the worst quality (R67, R111). -/
def State.coded2 (s : State) (u d a b : Nat) (f : Nat → Nat → Nat) : Res :=
  match s.readC u a, s.readC u b with
  | some (v, q), some (w, r) => s.writeC u d (f v w) (qualWorse q r)
  | _, _ => (s, some .codeCheck)

/-- A result in the mode m of CADD, CSUB, CMULK: 0 WRAP, 1 USAT, 2 SSAT (R118). `x` is the exact unsigned result and
`y` the exact signed one. -/
def satMode (m : Nat) (x y : Int) : Nat :=
  match m with
  | 0 => ofSigned 16 x
  | 1 => (max 0 (min x 65535)).toNat
  | _ => ofSigned 16 (max (-32768) (min y 32767))

/-- CADD Cd, Ca, Cb, m (R118). -/
def execCadd (u : Fin 8) (d a b : Fin 32) (m : BitVec 2) (s : State) : Host.Outcome State Fault Refusal :=
  done (s.instr u.val (m ≠ 3) 3 0 fun x => x.coded2 u.val d.val a.val b.val fun v w =>
    satMode m.toNat (v + w) (asSigned 16 v + asSigned 16 w))

/-- CSUB Cd, Ca, Cb, m (R118). -/
def execCsub (u : Fin 8) (d a b : Fin 32) (m : BitVec 2) (s : State) : Host.Outcome State Fault Refusal :=
  done (s.instr u.val (m ≠ 3) 3 0 fun x => x.coded2 u.val d.val a.val b.val fun v w =>
    satMode m.toNat ((v : Int) - w) (asSigned 16 v - asSigned 16 w))

/-- CMULK Cd, Ca, k, m: k is plain, 0–255 (R118). -/
def execCmulk (u : Fin 8) (d a : Fin 32) (k : BitVec 8) (m : BitVec 2) (s : State) : Host.Outcome State Fault Refusal :=
  done (s.instr u.val (m ≠ 3) 4 0 fun x => x.coded1 u.val d.val a.val fun v =>
    satMode m.toNat ((v : Int) * k.toNat) (asSigned 16 v * k.toNat))

/-- CCMP Cd, Ca, Cb, cc (R118). -/
def execCcmp (u : Fin 8) (d a b : Fin 32) (cc : BitVec 3) (s : State) : Host.Outcome State Fault Refusal :=
  done (s.instr u.val (cc.toNat < 6) 3 0 fun x => x.coded2 u.val d.val a.val b.val fun v w =>
    b2n (ccmpHolds cc.toNat (BitVec.ofNat 16 v) (BitVec.ofNat 16 w)))

/-- Is v below w in the order of m[0]: 0 unsigned, 1 signed (R118)? -/
def ordLt (signed : Bool) (v w : Nat) : Bool :=
  if signed then decide (asSigned 16 v < asSigned 16 w) else decide (v < w)

/-- CMIN Cd, Ca, Cb, m (R118). -/
def execCmin (u : Fin 8) (d a b : Fin 32) (m : Bool) (s : State) : Host.Outcome State Fault Refusal :=
  done (s.instr u.val true 3 0 fun x => x.coded2 u.val d.val a.val b.val fun v w => if ordLt m w v then w else v)

/-- CMAX Cd, Ca, Cb, m (R118). -/
def execCmax (u : Fin 8) (d a b : Fin 32) (m : Bool) (s : State) : Host.Outcome State Fault Refusal :=
  done (s.instr u.val true 3 0 fun x => x.coded2 u.val d.val a.val b.val fun v w => if ordLt m v w then w else v)

/-- CLIM Cd, Ca, Cb, Cc, m: min(max(va, vb), vc); vb > vc gives v = 0, QUAL FAULT (R118, R119). -/
def execClim (u : Fin 8) (d a b c : Fin 32) (m : Bool) (s : State) : Host.Outcome State Fault Refusal :=
  done (s.instr u.val true 4 0 fun x =>
    match x.readC u.val a.val, x.readC u.val b.val, x.readC u.val c.val with
    | some (v, q), some (lo, ql), some (hi, qh) =>
      if ordLt m hi lo then x.writeC u.val d.val 0 .fault
      else
        let y := if ordLt m v lo then lo else v
        x.writeC u.val d.val (if ordLt m hi y then hi else y) (qualWorst [q, ql, qh])
    | _, _, _ => (x, some .codeCheck))

/-- CMOV Cd, Ca (R118). -/
def execCmov (u : Fin 8) (d a : Fin 32) (s : State) : Host.Outcome State Fault Refusal :=
  done (s.instr u.val true 2 0 fun x => x.coded1 u.val d.val a.val id)

/-- CAND Cd, Ca, Cb (R118). -/
def execCand (u : Fin 8) (d a b : Fin 32) (s : State) : Host.Outcome State Fault Refusal :=
  done (s.instr u.val true 3 0 fun x => x.coded2 u.val d.val a.val b.val fun v w => b2n (v ≠ 0 && w ≠ 0))

/-- COR Cd, Ca, Cb (R118). -/
def execCor (u : Fin 8) (d a b : Fin 32) (s : State) : Host.Outcome State Fault Refusal :=
  done (s.instr u.val true 3 0 fun x => x.coded2 u.val d.val a.val b.val fun v w => b2n (v ≠ 0 || w ≠ 0))

/-- CNOT Cd, Ca (R118). -/
def execCnot (u : Fin 8) (d a : Fin 32) (s : State) : Host.Outcome State Fault Refusal :=
  done (s.instr u.val true 2 0 fun x => x.coded1 u.val d.val a.val fun v => b2n (v = 0))

/-- CSEL Cd, Ca, Cb, Cc: va if vc ≠ 0, else vb; the operand not selected does not count for quality (R118, R119).
The v of a selector that is neither GOOD nor FORCED is 0, so it selects Cb. All three operands are checked (R110). -/
def execCsel (u : Fin 8) (d a b c : Fin 32) (s : State) : Host.Outcome State Fault Refusal :=
  done (s.instr u.val true 3 0 fun x =>
    match x.readC u.val a.val, x.readC u.val b.val, x.readC u.val c.val with
    | some (va, qa), some (vb, qb), some (vc, qc) =>
      if safeV vc qc ≠ 0 then x.writeC u.val d.val va (qualWorse qc qa)
      else x.writeC u.val d.val vb (qualWorse qc qb)
    | _, _, _ => (x, some .codeCheck))

/-- CBIT Cd, Ca, n (R118). -/
def execCbit (u : Fin 8) (d a : Fin 32) (n : BitVec 4) (s : State) : Host.Outcome State Fault Refusal :=
  done (s.instr u.val true 2 0 fun x => x.coded1 u.val d.val a.val fun v => b2n (natBit v n.toNat))

/-- CXOR Cd, Ca, Cb (R118). -/
def execCxor (u : Fin 8) (d a b : Fin 32) (s : State) : Host.Outcome State Fault Refusal :=
  done (s.instr u.val true 3 0 fun x => x.coded2 u.val d.val a.val b.val fun v w => b2n (xor (v ≠ 0) (w ≠ 0)))

/-- CABS Cd, Ca: −32,768 gives 32,767 (R118). -/
def execCabs (u : Fin 8) (d a : Fin 32) (s : State) : Host.Outcome State Fault Refusal :=
  done (s.instr u.val true 4 0 fun x => x.coded1 u.val d.val a.val fun v => min (asSigned 16 v).natAbs 32767)

/-- CCLR Cd: v = 0, QUAL GOOD (R119). -/
def execCclr (u : Fin 8) (d : Fin 32) (s : State) : Host.Outcome State Fault Refusal :=
  done (s.instr u.val true 2 0 fun x => x.writeC u.val d.val 0 .good)

/-! Coded timers (R120, R121, R134) -/

/-- A timer record's fields. -/
structure TimerRec where
  preset : Csw
  tStart : Nat
  typ : Nat
  unit : Nat
  st : Nat
  last : Bool
deriving DecidableEq, Repr

/-- The record 32 bytes hold. -/
def timerRec (b : List Byte) : TimerRec :=
  let w := leNat ((b.drop 16).take 4)
  ⟨BitVec.ofNat 64 (leNat (b.take 8)), leNat ((b.drop 8).take 8), natBits w 0 2, natBits w 2 2, natBits w 4 2, natBit w 6⟩

/-- Does the record pass RCRC (R134)? -/
def timerRecOk (b : List Byte) : Bool := decide (leNat ((b.drop 20).take 4) = (crc32c (b.take 20)).toNat)

/-- The bytes of a record. -/
def timerBytes (r : TimerRec) : List Byte :=
  let body := natLe 8 r.preset.toNat ++ natLe 8 r.tStart ++ natLe 4 (r.typ + 4 * r.unit + 16 * r.st + 64 * b2n r.last)
  body ++ natLe 4 (crc32c body).toNat ++ natLe 8 0

/-- Meridian ticks of a timer unit (R134). -/
def timerUnit : Nat → Nat
  | 0 => 1000 | 1 => 100000 | _ => 10000000

/-- One evaluation of a timer with an accepted input (R120): output and record. `t` is the slot time. A CTP input that turns true at
the very execution at which the pulse ends starts no new pulse: the change is not after the end (log 120). -/
def timerEval (r : TimerRec) (preset t : Nat) (inp first : Bool) : Bool × TimerRec :=
  match r.typ with
  | 0 =>
    if !inp then (false, { r with st := 0, last := false })
    else
      let r1 := if r.st = 0 then { r with st := 1, tStart := t } else r
      if preset ≤ t - r1.tStart then (true, { r1 with st := 2, last := true }) else (false, { r1 with last := true })
  | 1 =>
    if inp then (true, { r with st := 0, last := true })
    else
      let r1 := if r.st = 0 && r.last then { r with st := 1, tStart := t } else r
      if r1.st = 1 then
        if preset ≤ t - r1.tStart then (false, { r1 with st := 2, last := false }) else (true, { r1 with last := false })
      else (false, { r1 with last := false })
  | _ =>
    let r1 := if r.st = 0 && inp && !r.last && !first then { r with st := 1, tStart := t } else r
    let r2 := if r1.st = 1 && decide (preset ≤ t - r1.tStart) then { r1 with st := 0 } else r1
    (r2.st = 1, { r2 with last := inp })

/-- CTON, CTOF, CTP on record t: window, RCRC and preset, type, operand (R121, R142); the update is staged (R117). A record that
passes RCRC with the reserved UNIT 3 is taken as a failed record, a code check (log 121). -/
def State.codedTimer (s : State) (u d a t typ : Nat) : Res :=
  let c := s.core u
  if s.winHdr c.part 32 ≤ t then (s, some .window)
  else
    let b := (stagedTimer t c.staged).getD (Mem.bytes s.mem.img (s.tmrAt c.part t) 32)
    let r := timerRec b
    let flawed := (stagedTimer t c.staged).isNone && s.imgFlawed (s.tmrAt c.part t) 32
    if !timerRecOk b || flawed || !cswValid (s.aP c.part) r.preset (tagTimer t) || r.unit = 3 then (s, some .codeCheck)
    else if r.typ ≠ typ then (s, some .illegal)
    else match s.readC u a with
      | none => (s, some .codeCheck)
      | some (v, q) =>
        if qualLive q then
          let preset := cswVal (s.aP c.part) r.preset (tagTimer t) * timerUnit r.unit
          let (out, r') := timerEval r preset c.stime (decide (v ≠ 0)) (flagFirst c.ctx.flags)
          (s.writeC u d (b2n out) q).andThen fun x => (x.stage u (.timer t (timerBytes r')), none)
        else (s.writeC u d 0 q).andThen fun x => (x.stage u (.timer t (timerBytes { r with st := 0, last := true })), none)

/-- CTON Cd, Ca, t (R120). -/
def execCton (u : Fin 8) (d a : Fin 32) (t : BitVec 8) (s : State) : Host.Outcome State Fault Refusal :=
  done (s.instr u.val true 4 6 fun x => x.codedTimer u.val d.val a.val t.toNat 0)

/-- CTOF Cd, Ca, t (R120). -/
def execCtof (u : Fin 8) (d a : Fin 32) (t : BitVec 8) (s : State) : Host.Outcome State Fault Refusal :=
  done (s.instr u.val true 4 6 fun x => x.codedTimer u.val d.val a.val t.toNat 1)

/-- CTP Cd, Ca, t (R120). -/
def execCtp (u : Fin 8) (d a : Fin 32) (t : BitVec 8) (s : State) : Host.Outcome State Fault Refusal :=
  done (s.instr u.val true 4 6 fun x => x.codedTimer u.val d.val a.val t.toNat 2)

end Sys2Proof.Machine
end

