-- ==== Sys2Proof/Machine/FbContact.lean ====
section
/-! DEFINITION. The contact blocks: the machine of R209 with ESTOP and GUARD, PULLWIRE (R214), LCURT (R215), GLOCK (R216).
DIAG values are those of R211. -/

namespace Sys2Proof.Machine

open Sys2Proof

/-- Channel A healthy, channel B healthy (R202). -/
def healthA (e : FbEnv) : Bool := inOn (e.inp 0)
def healthB (r : FbRec) (e : FbEnv) : Bool := if r.antiv then inZero (e.inp 1) else inOn (e.inp 1)

/-- DIAG of a demand (R211). -/
def demandDiag (r : FbRec) (e : FbEnv) (ks : List Nat) : Nat := if e.unavail r ks then 5 else 2

/-- Enter DEMAND; BOTH_SEEN as D stands (R203). -/
def FbRec.toDemand (r : FbRec) (d : Bool) (diag : Nat) : FbRec := { r with st := 2, bothSeen := d, diag := diag }

/-- One invocation of the machine of R209, in the order of R201. `ha`, `hb`: health, after the tolerance of R215; `slack`:
R214; `muted`: R215. -/
def contact (r0 : FbRec) (e : FbEnv) (ha hb slack muted : Bool) : FbRec :=
  let rs := rstStep r0 (e.inp 2) e.t e.cmd
  let h := ha && hb
  let d := !ha && !hb
  let x := ha != hb
  let r : FbRec := { rs.r with t1 := runT x r0.t1 e.t, bothSeen := r0.bothSeen || d }
  let dem := demandDiag r0 e [0, 1]
  let r' :=
    if r.st = 5 then
      if rs.valid && h && !slack && !e.faulted then { r.leave 2 9 with bothSeen := false } else r
    else if e.faulted then r.lockout 5 6
    else if x && elapsed r.t1 e.t r.tDisc msTicks then r.lockout 5 7
    else if slack then
      if r.st = 0 && r.sut then { r with st := 1, diag := 16 }
      else if r.st = 1 then
        if d then { r with st := 2, sutDone := true, bothSeen := true, diag := 16 } else { r with diag := 16 }
      else if r.st = 2 then { r with diag := 16 }
      else r.toDemand d 16
    else match r.st with
      | 0 =>
        if r.sut then { r with st := 1, diag := 4 }
        else if h then (if r.mreset then { r with st := 3, diag := 3 } else { r with st := 4, diag := 1 })
        else r.toDemand d dem
      | 1 => if d then { r with st := 2, sutDone := true, bothSeen := true, diag := dem } else { r with diag := 4 }
      | 2 =>
        if h && r.bothSeen then (if r.mreset then { r with st := 3, diag := 3 } else { r with st := 4, diag := 1 })
        else if h then { r with diag := 9 }
        else { r with diag := dem }
      | 3 =>
        if !h then r.toDemand d dem else if rs.valid then { r with st := 4, diag := 1 } else { r with diag := 3 }
      | _ => if !h && !muted then r.toDemand d dem else { r with diag := 1 }
  if rs.stuck && r'.st = r0.st then { r' with diag := 8 } else r'

/-- Outputs of a contact block: Q in PERMIT, RREQ in RESET_WAIT and LOCKOUT (R209). -/
def contactOut (e : FbEnv) (r : FbRec) (extra : List Bool) : FbOut := fbQ e r (r.st = 4) (r.st = 3 || r.st = 5) extra

/-- ESTOP and GUARD (R209). -/
def evalEstop (r : FbRec) (e : FbEnv) : FbOut :=
  contactOut e (contact r e (healthA e) (healthB r e) false false) []

/-- PULLWIRE: slack while TENS is in use and not 1 (R214); SLACK is 0 GOOD where TENS is not in use (R196). -/
def evalPullwire (r : FbRec) (e : FbEnv) : FbOut :=
  let slack := r.opt8 && !inOne (e.inp 3)
  let o := contactOut e (contact r e (healthA e) (healthB r e) slack false) [slack]
  if r.opt8 then o else { o with outs := o.outs.take 3 ++ [(0, .good)] }

/-- LCURT: test-pulse tolerance in T3, one OSSD accepted at 0 and the other healthy; AUX names the lagging OSSD (R215). -/
def evalLcurt (r0 : FbRec) (e : FbEnv) : FbOut :=
  let ha := healthA e
  let hb := healthB r0 e
  let lag := if ha then e.inp 1 else e.inp 0
  let tol := (ha != hb) && inAcc r0 lag && (match lag with | some (v, _) => v = 0 | none => false)
  let t3 := if !tol then 0 else if r0.t3 = 0 || r0.aux != ha then e.t else r0.t3
  let r : FbRec := { r0 with t3 := t3, aux := if tol then ha else r0.aux }
  let within := tol && decide (e.t - t3 ≤ r.tA * 1000)
  let muted := r.opt8 && inOn (e.inp 3)
  contactOut e (contact r e (ha || within) (hb || within) false muted) []

/-- LOCKED_WAIT, or PERMIT if MRESET = 0 (R216). -/
def FbRec.locked (r : FbRec) : FbRec := if r.mreset then { r with st := 3, diag := 3 } else { r with st := 4, diag := 1 }

/-- GLOCK (R216): inputs A, B, LK, REQ, ZS, RST. A DIAG of 8 stays after the release in a state that writes none of its own (R206; log 109). -/
def evalGlock (r0 : FbRec) (e : FbEnv) : FbOut :=
  let rs := rstStep r0 (e.inp 5) e.t e.cmd
  let ha := healthA e
  let hb := healthB r0 e
  let h := ha && hb
  let d := !ha && !hb
  let x := ha != hb
  let lk := inOn (e.inp 2)
  let req := inOn (e.inp 3)
  let zs := !r0.opt8 || inOn (e.inp 4)
  let r : FbRec := { rs.r with t1 := runT x r0.t1 e.t }
  let r' :=
    if r.st = 7 then (if rs.valid && h && lk && !e.faulted then r.leave 3 3 else r)
    else if e.faulted then r.lockout 7 6
    else if x && elapsed r.t1 e.t r.tDisc msTicks then r.lockout 7 7
    else match r.st with
      | 0 => if r.sut then { r with st := 1, diag := 4 } else if h && lk then r.locked else { r with st := 1, diag := 21 }
      | 1 =>
        if r.sut && !r.sutDone then
          (if d then { r with sutDone := true, diag := 21 } else if h then { r with diag := 4 } else r)
        else if h then { r with st := 2, t3 := e.t } else r
      | 2 =>
        if !h then { r with st := 1, diag := 21 }
        else if lk then r.locked
        else if elapsed r.t3 e.t r.tB msTicks then { r with diag := 18 } else r
      | 3 =>
        if !lk || !h then r.lockout 7 17
        else if req then { r with st := 5, t2 := e.t, diag := 19 }
        else if rs.valid then { r with st := 4, diag := 1 } else r
      | 4 =>
        if !lk || !h then r.lockout 7 17
        else if req then { r with st := 5, t2 := e.t, diag := 19 } else r
      | 5 =>
        if !lk || !h then r.lockout 7 17
        else if !req then r.locked
        else if elapsed r.t2 e.t r.tA msTicks && zs then { r with st := 6, t3 := e.t, diag := 20 } else r
      | _ =>
        if !h then { r with st := 1, diag := 21 }
        else if !req && elapsed r.t3 e.t r.tC msTicks then { r with st := 2, t3 := e.t } else r
  let r'' := if rs.stuck && r'.st = r0.st then { r' with diag := 8 } else r'
  fbQ e r'' (r''.st = 4) (r''.st = 3 || r''.st = 7) [r''.st = 6]

def execFbEstop (u : Fin 8) (d a : Fin 32) (i : BitVec 10) (bad : Bool) (s : State) : Host.Outcome State Fault Refusal :=
  done (s.fb u.val d.val a.val i.toNat 1 3 3 bad (fun _ _ => true) fun _ => evalEstop)
def execFbPullwire (u : Fin 8) (d a : Fin 32) (i : BitVec 10) (bad : Bool) (s : State) : Host.Outcome State Fault Refusal :=
  done (s.fb u.val d.val a.val i.toNat 2 4 4 bad (fun r k => k < 3 || r.opt8) fun _ => evalPullwire)
def execFbGuard (u : Fin 8) (d a : Fin 32) (i : BitVec 10) (bad : Bool) (s : State) : Host.Outcome State Fault Refusal :=
  done (s.fb u.val d.val a.val i.toNat 3 3 3 bad (fun _ _ => true) fun _ => evalEstop)
def execFbGlock (u : Fin 8) (d a : Fin 32) (i : BitVec 10) (bad : Bool) (s : State) : Host.Outcome State Fault Refusal :=
  done (s.fb u.val d.val a.val i.toNat 4 6 4 bad (fun r k => k ≠ 4 || r.opt8) fun _ => evalGlock)
def execFbLcurt (u : Fin 8) (d a : Fin 32) (i : BitVec 10) (bad : Bool) (s : State) : Host.Outcome State Fault Refusal :=
  done (s.fb u.val d.val a.val i.toNat 5 4 3 bad (fun r k => k < 3 || r.opt8) fun _ => evalLcurt)

end Sys2Proof.Machine
end

