-- ==== Sys2Proof/Machine/Dispatch.lean ====
section
/-! DEFINITION. One arm per command: a direct call of its meaning. -/

namespace Sys2Proof.Machine

open Sys2Proof

/-- The effect of a command on everything but the queue. -/
def exec (i : Instr) (s : State) : Host.Outcome State Fault Refusal :=
  match i with
  | .vlogValid dt env => Sys2Proof.Machine.execVlogValid dt env s
  | .startupRetry env => Sys2Proof.Machine.execStartupRetry env s
  | .vlogLost => Sys2Proof.Machine.execVlogLost s
  | .nresetAssert => Sys2Proof.Machine.execNresetAssert s
  | .nresetRelease env => Sys2Proof.Machine.execNresetRelease env s
  | .pllLockLoss => Sys2Proof.Machine.execPllLockLoss s
  | .superframeBoundary => Sys2Proof.Machine.execSuperframeBoundary s
  | .partCmdApply p => Sys2Proof.Machine.execPartCmdApply p s
  | .majorFrameBoundary => Sys2Proof.Machine.execMajorFrameBoundary s
  | .slotStart n e ecc => Sys2Proof.Machine.execSlotStart n e ecc s
  | .slotOverrun u => Sys2Proof.Machine.execSlotOverrun u s
  | .illegalOpcode u => Sys2Proof.Machine.execIllegalOpcode u s
  | .lds u d e env => Sys2Proof.Machine.execLds u d e env s
  | .ldsX u d a e env => Sys2Proof.Machine.execLdsX u d a e env s
  | .sts u a x => Sys2Proof.Machine.execSts u a x s
  | .ldv u d k => Sys2Proof.Machine.execLdv u d k s
  | .stv u a k => Sys2Proof.Machine.execStv u a k s
  | .cadd u d a b m => Sys2Proof.Machine.execCadd u d a b m s
  | .csub u d a b m => Sys2Proof.Machine.execCsub u d a b m s
  | .cmulk u d a k m => Sys2Proof.Machine.execCmulk u d a k m s
  | .ccmp u d a b cc => Sys2Proof.Machine.execCcmp u d a b cc s
  | .cmin u d a b m => Sys2Proof.Machine.execCmin u d a b m s
  | .cmax u d a b m => Sys2Proof.Machine.execCmax u d a b m s
  | .clim u d a b c m => Sys2Proof.Machine.execClim u d a b c m s
  | .cmov u d a => Sys2Proof.Machine.execCmov u d a s
  | .cand u d a b => Sys2Proof.Machine.execCand u d a b s
  | .cor u d a b => Sys2Proof.Machine.execCor u d a b s
  | .cnot u d a => Sys2Proof.Machine.execCnot u d a s
  | .csel u d a b c => Sys2Proof.Machine.execCsel u d a b c s
  | .cbit u d a n => Sys2Proof.Machine.execCbit u d a n s
  | .cxor u d a b => Sys2Proof.Machine.execCxor u d a b s
  | .cabs u d a => Sys2Proof.Machine.execCabs u d a s
  | .cclr u d => Sys2Proof.Machine.execCclr u d s
  | .cton u d a t => Sys2Proof.Machine.execCton u d a t s
  | .ctof u d a t => Sys2Proof.Machine.execCtof u d a t s
  | .ctp u d a t => Sys2Proof.Machine.execCtp u d a t s
  | .fbEstop u d a i0 bad => Sys2Proof.Machine.execFbEstop u d a i0 bad s
  | .fbPullwire u d a i0 bad => Sys2Proof.Machine.execFbPullwire u d a i0 bad s
  | .fbGuard u d a i0 bad => Sys2Proof.Machine.execFbGuard u d a i0 bad s
  | .fbGlock u d a i0 bad => Sys2Proof.Machine.execFbGlock u d a i0 bad s
  | .fbLcurt u d a i0 bad => Sys2Proof.Machine.execFbLcurt u d a i0 bad s
  | .fbMute u d a i0 bad => Sys2Proof.Machine.execFbMute u d a i0 bad s
  | .fbEnable u d a i0 bad => Sys2Proof.Machine.execFbEnable u d a i0 bad s
  | .fbModesel u d a i0 bad => Sys2Proof.Machine.execFbModesel u d a i0 bad s
  | .fbTwohand u d a i0 bad => Sys2Proof.Machine.execFbTwohand u d a i0 bad s
  | .fbReset u d a i0 bad => Sys2Proof.Machine.execFbReset u d a i0 bad s
  | .fbEdm u d a i0 bad => Sys2Proof.Machine.execFbEdm u d a i0 bad s
  | .fbSpeed u d a i0 bad => Sys2Proof.Machine.execFbSpeed u d a i0 bad s
  | .fbFan u d a i0 bad => Sys2Proof.Machine.execFbFan u d a i0 bad s
  | .fbZone u d a i0 bad => Sys2Proof.Machine.execFbZone u d a i0 bad s
  | .fbAilim u d a i0 bad => Sys2Proof.Machine.execFbAilim u d a i0 bad s
  | .fbSeq u d a i0 bad => Sys2Proof.Machine.execFbSeq u d a i0 bad s
  | .fbSout u d a i0 bad => Sys2Proof.Machine.execFbSout u d a i0 bad s
  | .fbGroup u d a i0 bad early => Sys2Proof.Machine.execFbGroup u d a i0 bad early s
  | .br u o => Sys2Proof.Machine.execBr u o s
  | .bcc u cc a b o => Sys2Proof.Machine.execBcc u cc a b o s
  | .loop u a n l => Sys2Proof.Machine.execLoop u a n l s
  | .endSlot u f sigMain sigChk => Sys2Proof.Machine.execEndSlot u f sigMain sigChk s
  | .nop u => Sys2Proof.Machine.execNop u s
  | .add u d a b => Sys2Proof.Machine.execAdd u d a b s
  | .sub u d a b => Sys2Proof.Machine.execSub u d a b s
  | .and u d a b => Sys2Proof.Machine.execAnd u d a b s
  | .or u d a b => Sys2Proof.Machine.execOr u d a b s
  | .xor u d a b => Sys2Proof.Machine.execXor u d a b s
  | .sll u d a b => Sys2Proof.Machine.execSll u d a b s
  | .srl u d a b => Sys2Proof.Machine.execSrl u d a b s
  | .sra u d a b => Sys2Proof.Machine.execSra u d a b s
  | .mul u d a b => Sys2Proof.Machine.execMul u d a b s
  | .addi u d a imm => Sys2Proof.Machine.execAddi u d a imm s
  | .andi u d a imm => Sys2Proof.Machine.execAndi u d a imm s
  | .ori u d a imm => Sys2Proof.Machine.execOri u d a imm s
  | .movi u d imm => Sys2Proof.Machine.execMovi u d imm s
  | .movhi u d imm => Sys2Proof.Machine.execMovhi u d imm s
  | .mfs u d sel => Sys2Proof.Machine.execMfs u d sel s
  | .slt u d a b => Sys2Proof.Machine.execSlt u d a b s
  | .mapinv u e => Sys2Proof.Machine.execMapinv u e s
  | .fence u => Sys2Proof.Machine.execFence u s
  | .swap u => Sys2Proof.Machine.execSwap u s
  | .stPgm u d a imm => Sys2Proof.Machine.execStPgm u d a imm s
  | .trap u k => Sys2Proof.Machine.execTrap u k s
  | .raise u a k => Sys2Proof.Machine.execRaise u a k s
  | .lockstepMismatch n site ecc => Sys2Proof.Machine.execLockstepMismatch n site ecc s
  | .pgmScrub n bank i0 main chk => Sys2Proof.Machine.execPgmScrub n bank i0 main chk s
  | .mapScrub i0 ecc => Sys2Proof.Machine.execMapScrub i0 ecc s
  | .ephScrub i0 ecc => Sys2Proof.Machine.execEphScrub i0 ecc s
  | .stalenessSweep i0 => Sys2Proof.Machine.execStalenessSweep i0 s
  | .mapDeWrite m inv => Sys2Proof.Machine.execMapDeWrite m inv s
  | .mapDeRead m => Sys2Proof.Machine.execMapDeRead m s
  | .mapDeReservedOp m three => Sys2Proof.Machine.execMapDeReservedOp m three s
  | .mapCqQuery m v => Sys2Proof.Machine.execMapCqQuery m v s
  | .mapInvAll m => Sys2Proof.Machine.execMapInvAll m s
  | .mirrorFrameReceive p bs ln => Sys2Proof.Machine.execMirrorFrameReceive p bs ln s
  | .mirrorResync p => Sys2Proof.Machine.execMirrorResync p s
  | .pairSplitReq m n => Sys2Proof.Machine.execPairSplitReq m n s
  | .pairRejoinReq m n => Sys2Proof.Machine.execPairRejoinReq m n s
  | .rejoinLoadDone n => Sys2Proof.Machine.execRejoinLoadDone n s
  | .dbgEnable m n => Sys2Proof.Machine.execDbgEnable m n s
  | .dbgDisable m n => Sys2Proof.Machine.execDbgDisable m n s
  | .dbgHalt q n => Sys2Proof.Machine.execDbgHalt q n s
  | .dbgStep q n => Sys2Proof.Machine.execDbgStep q n s
  | .dbgResume q n => Sys2Proof.Machine.execDbgResume q n s
  | .breakpointHit n i0 => Sys2Proof.Machine.execBreakpointHit n i0 s
  | .dbgRegWrite m n v => Sys2Proof.Machine.execDbgRegWrite m n v s
  | .fnResetCmd m p i0 => Sys2Proof.Machine.execFnResetCmd m p i0 s
  | .fnResetExpire p i0 => Sys2Proof.Machine.execFnResetExpire p i0 s
  | .speedEdgeCapture u e => Sys2Proof.Machine.execSpeedEdgeCapture u e s
  | .speedStandstill u => Sys2Proof.Machine.execSpeedStandstill u s
  | .windowDwell u n => Sys2Proof.Machine.execWindowDwell u n s
  | .spdClrLatch m u => Sys2Proof.Machine.execSpdClrLatch m u s
  | .channelSample n k x => Sys2Proof.Machine.execChannelSample n k x s
  | .testPulseStart n => Sys2Proof.Machine.execTestPulseStart n s
  | .testPulseEnd n v => Sys2Proof.Machine.execTestPulseEnd n v s
  | .outputRead n ron => Sys2Proof.Machine.execOutputRead n ron s
  | .offPulseStart n ron => Sys2Proof.Machine.execOffPulseStart n ron s
  | .offPulseEnd n v => Sys2Proof.Machine.execOffPulseEnd n v s
  | .doStuckHighDetect n v => Sys2Proof.Machine.execDoStuckHighDetect n v s
  | .extFeedDetect n v => Sys2Proof.Machine.execExtFeedDetect n v s
  | .doOverloadDetect n why ron => Sys2Proof.Machine.execDoOverloadDetect n why ron s
  | .openLoadDetect n => Sys2Proof.Machine.execOpenLoadDetect n s
  | .parShareDetect n => Sys2Proof.Machine.execParShareDetect n s
  | .diCompTimeout n => Sys2Proof.Machine.execDiCompTimeout n s
  | .channelFaultClear n func k => Sys2Proof.Machine.execChannelFaultClear n func k s
  | .chClrLatch m n => Sys2Proof.Machine.execChClrLatch m n s
  | .shutterTestStart b rail fall ron => Sys2Proof.Machine.execShutterTestStart b rail fall ron s
  | .shutterTestEnd b => Sys2Proof.Machine.execShutterTestEnd b s
  | .shutterClose b supply rail => Sys2Proof.Machine.execShutterClose b supply rail s
  | .shutterCloseFail b => Sys2Proof.Machine.execShutterCloseFail b s
  | .bankClrLatch m b rail fall ron => Sys2Proof.Machine.execBankClrLatch m b rail fall ron s
  | .bankShutTest m b => Sys2Proof.Machine.execBankShutTest m b s
  | .bankSupplyFault b v => Sys2Proof.Machine.execBankSupplyFault b v s
  | .bankSupplyClear b v => Sys2Proof.Machine.execBankSupplyClear b v s
  | .groupCurrent g i0 => Sys2Proof.Machine.execGroupCurrent g i0 s
  | .fieldLinkLoss g => Sys2Proof.Machine.execFieldLinkLoss g s
  | .analogSeqStart b drift mainOk sarOk => Sys2Proof.Machine.execAnalogSeqStart b drift mainOk sarOk s
  | .analogSlotEnd b c => Sys2Proof.Machine.execAnalogSlotEnd b c s
  | .aoReadbackMeasure n v compliance limit => Sys2Proof.Machine.execAoReadbackMeasure n v compliance limit s
  | .loopSupplyRetry n held => Sys2Proof.Machine.execLoopSupplyRetry n held s
  | .trimZero m n ref => Sys2Proof.Machine.execTrimZero m n ref s
  | .trimSpan m n ref => Sys2Proof.Machine.execTrimSpan m n ref s
  | .trimClear m n => Sys2Proof.Machine.execTrimClear m n s
  | .trimButton n press => Sys2Proof.Machine.execTrimButton n press s
  | .meridianAdjust => Sys2Proof.Machine.execMeridianAdjust s
  | .merDupMismatch d => Sys2Proof.Machine.execMerDupMismatch d s
  | .syncLossTimeout => Sys2Proof.Machine.execSyncLossTimeout s
  | .offsetHighTimeout => Sys2Proof.Machine.execOffsetHighTimeout s
  | .timerMatch t => Sys2Proof.Machine.execTimerMatch t s
  | .timerOverflow t => Sys2Proof.Machine.execTimerOverflow t s
  | .timerArm m t => Sys2Proof.Machine.execTimerArm m t s
  | .timerStop m t => Sys2Proof.Machine.execTimerStop m t s
  | .timerPop m t => Sys2Proof.Machine.execTimerPop m t s
  | .timerCapture m t => Sys2Proof.Machine.execTimerCapture m t s
  | .timerCntSet m t v => Sys2Proof.Machine.execTimerCntSet m t v s
  | .portEnable p => Sys2Proof.Machine.execPortEnable p s
  | .linkSignalDetect p => Sys2Proof.Machine.execLinkSignalDetect p s
  | .linkTrained p h0 h1 w0 w1 => Sys2Proof.Machine.execLinkTrained p h0 h1 w0 w1 s
  | .linkAligned p => Sys2Proof.Machine.execLinkAligned p s
  | .trainFail p => Sys2Proof.Machine.execTrainFail p s
  | .trainRetry p => Sys2Proof.Machine.execTrainRetry p s
  | .helloReceive p bs ln => Sys2Proof.Machine.execHelloReceive p bs ln s
  | .helloTimeout p => Sys2Proof.Machine.execHelloTimeout p s
  | .linkDownDetect p fec => Sys2Proof.Machine.execLinkDownDetect p fec s
  | .portRetrain m p => Sys2Proof.Machine.execPortRetrain m p s
  | .heartbeatReceive p bs ln => Sys2Proof.Machine.execHeartbeatReceive p bs ln s
  | .linkNoticeReceive p bs ln => Sys2Proof.Machine.execLinkNoticeReceive p bs ln s
  | .tokenReceive p bs ln => Sys2Proof.Machine.execTokenReceive p bs ln s
  | .imageWindowStart spine => Sys2Proof.Machine.execImageWindowStart spine s
  | .imageFrameReceive p bs ln => Sys2Proof.Machine.execImageFrameReceive p bs ln s
  | .spineFrameReceive p bs ln => Sys2Proof.Machine.execSpineFrameReceive p bs ln s
  | .writeDeadline spine k => Sys2Proof.Machine.execWriteDeadline spine k s
  | .imageClassEnd spine => Sys2Proof.Machine.execImageClassEnd spine s
  | .planeLoss pl => Sys2Proof.Machine.execPlaneLoss pl s
  | .ringUnformed => Sys2Proof.Machine.execRingUnformed s
  | .spineUnformed => Sys2Proof.Machine.execSpineUnformed s
  | .syncFrameReceive p bs ln frac => Sys2Proof.Machine.execSyncFrameReceive p bs ln frac s
  | .mirrorClassStart => Sys2Proof.Machine.execMirrorClassStart s
  | .eventsClassStart => Sys2Proof.Machine.execEventsClassStart s
  | .eventFrameReceive p bs ln => Sys2Proof.Machine.execEventFrameReceive p bs ln s
  | .almReqReceive p bs ln => Sys2Proof.Machine.execAlmReqReceive p bs ln s
  | .almDataReceive p bs ln => Sys2Proof.Machine.execAlmDataReceive p bs ln s
  | .voteReceive p bs ln => Sys2Proof.Machine.execVoteReceive p bs ln s
  | .commitMsgReceive p bs ln => Sys2Proof.Machine.execCommitMsgReceive p bs ln s
  | .abortReceive p bs ln => Sys2Proof.Machine.execAbortReceive p bs ln s
  | .almReqSend => Sys2Proof.Machine.execAlmReqSend s
  | .tokenHandback m p => Sys2Proof.Machine.execTokenHandback m p s
  | .safeFrameSend c => Sys2Proof.Machine.execSafeFrameSend c s
  | .safeFrameReceive k udp bs => Sys2Proof.Machine.execSafeFrameReceive k udp bs s
  | .connTimeout c => Sys2Proof.Machine.execConnTimeout c s
  | .connRestart m c => Sys2Proof.Machine.execConnRestart m c s
  | .ethLinkChange k up fast => Sys2Proof.Machine.execEthLinkChange k up fast s
  | .arpRequest k mac ip target => Sys2Proof.Machine.execArpRequest k mac ip target s
  | .ptpMessage k dom msg => Sys2Proof.Machine.execPtpMessage k dom msg s
  | .ptpLoss => Sys2Proof.Machine.execPtpLoss s
  | .keyLoad m => Sys2Proof.Machine.execKeyLoad m s
  | .keyErase m => Sys2Proof.Machine.execKeyErase m s
  | .keySetRetire m => Sys2Proof.Machine.execKeySetRetire m s
  | .keyRetired o k => Sys2Proof.Machine.execKeyRetired o k s
  | .hwmUpdate => Sys2Proof.Machine.execHwmUpdate s
  | .rngReady => Sys2Proof.Machine.execRngReady s
  | .rngHealth => Sys2Proof.Machine.execRngHealth s
  | .rngReseed host => Sys2Proof.Machine.execRngReseed host s
  | .rngDataRead m => Sys2Proof.Machine.execRngDataRead m s
  | .otpBurn m ok => Sys2Proof.Machine.execOtpBurn m ok s
  | .otpReburn m ok => Sys2Proof.Machine.execOtpReburn m ok s
  | .lcAdvance m fails env => Sys2Proof.Machine.execLcAdvance m fails env s
  | .serviceReset m env => Sys2Proof.Machine.execServiceReset m env s
  | .serviceReturn m fails env => Sys2Proof.Machine.execServiceReturn m fails env s
  | .manBistLogic m pass => Sys2Proof.Machine.execManBistLogic m pass s
  | .manBistMemory m pass => Sys2Proof.Machine.execManBistMemory m pass s
  | .proofSubslice u pass => Sys2Proof.Machine.execProofSubslice u pass s
  | .proofStarved u => Sys2Proof.Machine.execProofStarved u s
  | .partStart m p => Sys2Proof.Machine.execPartStart m p s
  | .partStop m p => Sys2Proof.Machine.execPartStop m p s
  | .partMaint m p => Sys2Proof.Machine.execPartMaint m p s
  | .partReset m p => Sys2Proof.Machine.execPartReset m p s
  | .forceSet m => Sys2Proof.Machine.execForceSet m s
  | .forceClear m => Sys2Proof.Machine.execForceClear m s
  | .forceClearAll m => Sys2Proof.Machine.execForceClearAll m s
  | .sessionNewChal m => Sys2Proof.Machine.execSessionNewChal m s
  | .sessionOpen m => Sys2Proof.Machine.execSessionOpen m s
  | .sessionClose m => Sys2Proof.Machine.execSessionClose m s
  | .sessionTimeout m => Sys2Proof.Machine.execSessionTimeout m s
  | .pwChange m => Sys2Proof.Machine.execPwChange m s
  | .stgBegin m => Sys2Proof.Machine.execStgBegin m s
  | .stgDataWrite m v ok => Sys2Proof.Machine.execStgDataWrite m v ok s
  | .stgCheck m => Sys2Proof.Machine.execStgCheck m s
  | .commitCheckDone => Sys2Proof.Machine.execCommitCheckDone s
  | .stgCommit m => Sys2Proof.Machine.execStgCommit m s
  | .stgAbandon m => Sys2Proof.Machine.execStgAbandon m s
  | .flashSettleDone => Sys2Proof.Machine.execFlashSettleDone s
  | .setVoteTimeout => Sys2Proof.Machine.execSetVoteTimeout s
  | .setAbort => Sys2Proof.Machine.execSetAbort s
  | .setSwitchTime => Sys2Proof.Machine.execSetSwitchTime s
  | .clogWriteDone ok => Sys2Proof.Machine.execClogWriteDone ok s
  | .faultMessage src good lat => Sys2Proof.Machine.execFaultMessage src good lat s
  | .alarmPairAssert k => Sys2Proof.Machine.execAlarmPairAssert k s
  | .alarmPairBroken k => Sys2Proof.Machine.execAlarmPairBroken k s
  | .fltShadowSweep bad => Sys2Proof.Machine.execFltShadowSweep bad s
  | .resume m => Sys2Proof.Machine.execResume m s
  | .cntClear m hit => Sys2Proof.Machine.execCntClear m hit s
  | .cntClearAll m => Sys2Proof.Machine.execCntClearAll m s
  | .policyWrite m hi v => Sys2Proof.Machine.execPolicyWrite m hi v s
  | .injKeyWrite m pg v => Sys2Proof.Machine.execInjKeyWrite m pg v s
  | .injArmExpire pg => Sys2Proof.Machine.execInjArmExpire pg s
  | .injectGo m pg v => Sys2Proof.Machine.execInjectGo m pg v s
  | .injectHoldEnd pg => Sys2Proof.Machine.execInjectHoldEnd pg s
  | .logBucketEnd => Sys2Proof.Machine.execLogBucketEnd s
  | .flushCoal m => Sys2Proof.Machine.execFlushCoal m s
  | .logHostRpWrite m v => Sys2Proof.Machine.execLogHostRpWrite m v s
  | .logSpillWrite ok => Sys2Proof.Machine.execLogSpillWrite ok s
  | .logFlRead m v => Sys2Proof.Machine.execLogFlRead m v s
  | .vecAck m v => Sys2Proof.Machine.execVecAck m v s
  | .routingWrite m v => Sys2Proof.Machine.execRoutingWrite m v s
  | .evtPendClear m k v hw => Sys2Proof.Machine.execEvtPendClear m k v hw s
  | .evStickyClear m i0 v hw => Sys2Proof.Machine.execEvStickyClear m i0 v hw s
  | .evAgainRead m pg hw => Sys2Proof.Machine.execEvAgainRead m pg hw s
  | .rcRegisterRead m a wide => Sys2Proof.Machine.execRcRegisterRead m a wide s
  | .wideLowRead m i0 wide => Sys2Proof.Machine.execWideLowRead m i0 wide s
  | .wideHighRead m i0 => Sys2Proof.Machine.execWideHighRead m i0 s
  | .wideLowWrite m i0 v env => Sys2Proof.Machine.execWideLowWrite m i0 v env s
  | .wideHighWrite m i0 v env => Sys2Proof.Machine.execWideHighWrite m i0 v env s
  | .registerWrite m a v hi env => Sys2Proof.Machine.execRegisterWrite m a v hi env s
  | .pgEnWrite m pg en => Sys2Proof.Machine.execPgEnWrite m pg en s
  | .pgExpertWrite m pg ex => Sys2Proof.Machine.execPgExpertWrite m pg ex s
  | .lockReq m pg => Sys2Proof.Machine.execLockReq m pg s
  | .bar0BadAccess write long => Sys2Proof.Machine.execBar0BadAccess write long s
  | .spiFrame hdr data crc whole env => Sys2Proof.Machine.execSpiFrame hdr data crc whole env s
  | .msixUnmask v => Sys2Proof.Machine.execMsixUnmask v s
  | .pcieLinkDown => Sys2Proof.Machine.execPcieLinkDown s
  | .pcieUncorr => Sys2Proof.Machine.execPcieUncorr s
  | .xqTailWrite m q v => Sys2Proof.Machine.execXqTailWrite m q v s
  | .xqConfigWrite m q reg v => Sys2Proof.Machine.execXqConfigWrite m q reg v s
  | .xfQenClear m q => Sys2Proof.Machine.execXfQenClear m q s
  | .xferDescStart q d => Sys2Proof.Machine.execXferDescStart q d s
  | .xferCopyDone q => Sys2Proof.Machine.execXferCopyDone q s
  | .xferPcieErr q n => Sys2Proof.Machine.execXferPcieErr q n s
  | .vernierSecond slack shift erase => Sys2Proof.Machine.execVernierSecond slack shift erase s
  | .vernierHourly => Sys2Proof.Machine.execVernierHourly s
  | .vernSlackNeg => Sys2Proof.Machine.execVernSlackNeg s
  | .vernierDaily ok => Sys2Proof.Machine.execVernierDaily ok s
  | .dormantEnterReq m alarmUse => Sys2Proof.Machine.execDormantEnterReq m alarmUse s
  | .dormantWakeCmd m dt field => Sys2Proof.Machine.execDormantWakeCmd m dt field s
  | .rtcAlarm field => Sys2Proof.Machine.execRtcAlarm field s
  | .vigilSample c0 c1 c2 c3 field => Sys2Proof.Machine.execVigilSample c0 c1 c2 c3 field s
  | .vgAck m v => Sys2Proof.Machine.execVgAck m v s
  | .rtcLoad => Sys2Proof.Machine.execRtcLoad s
  | .xtalMeasure ppm => Sys2Proof.Machine.execXtalMeasure ppm s
  | .vlogOutOfRange mv => Sys2Proof.Machine.execVlogOutOfRange mv s
  | .vbakSample mv => Sys2Proof.Machine.execVbakSample mv s
  | .vbakAbsent mv => Sys2Proof.Machine.execVbakAbsent mv s
  | .tempHigh t => Sys2Proof.Machine.execTempHigh t s
  | .criticalMonitorTrip k => Sys2Proof.Machine.execCriticalMonitorTrip k s
  | .pmWake pg late => Sys2Proof.Machine.execPmWake pg late s
  | .pcieLinkUp speed width => Sys2Proof.Machine.execPcieLinkUp speed width s
  | .busMasterEnableChange bme msix => Sys2Proof.Machine.execBusMasterEnableChange bme msix s
  | .eyeLow l h w => Sys2Proof.Machine.execEyeLow l h w s
  | .pmAutoGate pg power => Sys2Proof.Machine.execPmAutoGate pg power s
  | .nglCountLost => Sys2Proof.Machine.execNglCountLost s
  | .xtalStop => Sys2Proof.Machine.execXtalStop s
  | .loopSupplyFoldback n => Sys2Proof.Machine.execLoopSupplyFoldback n s
  | .ethRxDiscard k why => Sys2Proof.Machine.execEthRxDiscard k why s

end Sys2Proof.Machine
end

