-- ==== Sys2Proof/Machine/Decoder.lean ====
section
/-! DEFINITION. The instruction decoder: the command an instruction word of program SRAM spells (R107, R108, R113), and the one at a
core's PC. What a word does not hold comes with `FetchEnv`. An illegal word spells none. The commands name their instruction
themselves and run whatever program SRAM holds; `State.fetched` is the one the hardware would take (log 107). -/

namespace Sys2Proof.Machine

open Sys2Proof

/-- What an instruction's command carries beside the fields of its word: what a load meets, whether the function-block unit faults,
whether the arming time of a GROUP is early, and the last compared words of a loose slot. -/
structure FetchEnv where
  load : LoadEnv
  bad : Bool
  early : Bool
  endMain : BitVec 64
  endChk : BitVec 64
deriving DecidableEq, Repr

/-- The c and mode fields of formats Q and T (R107). -/
def wC (w : Word) : Nat := natBits w.toNat 6 5
def wModeQ (w : Word) : Nat := natBits w.toNat 0 6
def wModeT (w : Word) : Nat := natBits w.toNat 0 11

/-- A P-register field: bit 4 must be 0 (R108). -/
def pReg (n : Nat) : Option (Fin 16) := if h : n < 16 then some ⟨n, h⟩ else none

/-- A C-register field of five bits. -/
def cReg (n : Nat) : Fin 32 := Fin.ofNat 32 n

/-- An instruction whose word meets a condition of R108. -/
def onlyIf (b : Bool) (i : Instr) : Option Instr := if b then some i else none

/-- Format T over P registers with no mode. -/
def wordP3 (w : Word) (f : Fin 16 → Fin 16 → Fin 16 → Instr) : Option Instr :=
  match pReg (wD w), pReg (wA w), pReg (wB w) with
  | some d, some a, some b => onlyIf (wModeT w = 0) (f d a b)
  | _, _, _ => none

/-- Format I over two P registers. -/
def wordP2 (w : Word) (f : Fin 16 → Fin 16 → BitVec 16 → Instr) : Option Instr :=
  match pReg (wD w), pReg (wA w) with
  | some d, some a => some (f d a (BitVec.ofNat 16 (wImm w)))
  | _, _ => none

/-- Format I over Pd alone, with a condition on the immediate. -/
def wordP1 (w : Word) (ok : Bool) (f : Fin 16 → Instr) : Option Instr :=
  match pReg (wD w) with
  | some d => onlyIf (wA w = 0 && ok) (f d)
  | none => none

/-- Format T over C registers: `mode` bounds the mode field. -/
def wordC3 (w : Word) (mode : Nat) (f : Fin 32 → Fin 32 → Fin 32 → Instr) : Option Instr :=
  onlyIf (wModeT w < mode) (f (cReg (wD w)) (cReg (wA w)) (cReg (wB w)))

/-- Format T or I over Cd and Ca: `lim` bounds bits [15:0]. -/
def wordC2 (w : Word) (lim : Nat) (f : Fin 32 → Fin 32 → Instr) : Option Instr :=
  onlyIf (wImm w < lim) (f (cReg (wD w)) (cReg (wA w)))

/-- Format Q over C registers: `mode` bounds the mode field. -/
def wordC4 (w : Word) (mode : Nat) (f : Fin 32 → Fin 32 → Fin 32 → Fin 32 → Instr) : Option Instr :=
  onlyIf (wModeQ w < mode) (f (cReg (wD w)) (cReg (wA w)) (cReg (wB w)) (cReg (wC w)))

/-- Inputs of a block (R212). -/
def fbIns (f : Nat) : Nat := [0, 3, 4, 3, 6, 4, 5, 2, 8, 4, 2, 4, 3, 3, 4, 2, 2, 1, 9].getD f 0

/-- The command of a block code (R123). -/
def fbCommand (u : Fin 8) (d a : Fin 32) (i : BitVec 10) (bad early : Bool) : Nat → Option Instr
  | 1 => some (.fbEstop u d a i bad)
  | 2 => some (.fbPullwire u d a i bad)
  | 3 => some (.fbGuard u d a i bad)
  | 4 => some (.fbGlock u d a i bad)
  | 5 => some (.fbLcurt u d a i bad)
  | 6 => some (.fbMute u d a i bad)
  | 7 => some (.fbEnable u d a i bad)
  | 8 => some (.fbModesel u d a i bad)
  | 9 => some (.fbTwohand u d a i bad)
  | 10 => some (.fbReset u d a i bad)
  | 11 => some (.fbEdm u d a i bad)
  | 12 => some (.fbSpeed u d a i bad)
  | 13 => some (.fbFan u d a i bad)
  | 14 => some (.fbZone u d a i bad)
  | 15 => some (.fbAilim u d a i bad)
  | 16 => some (.fbSeq u d a i bad)
  | 17 => some (.fbSout u d a i bad)
  | 18 => some (.fbGroup u d a i bad early)
  | _ => none

/-- FB Cd, Ca, f, i: neither register range runs past C31 (R108). -/
def wordFb (u : Fin 8) (env : FetchEnv) (w : Word) : Option Instr :=
  if wA w + fbIns (wFb w) ≤ 32 ∧ wD w + fbOuts (wFb w) ≤ 32 then
    fbCommand u (cReg (wD w)) (cReg (wA w)) (BitVec.ofNat 10 (wInst w)) env.bad env.early (wFb w)
  else none

/-- BCC: cc in [25:21], Pa, Pb in [15:12], a forward offset in [11:0] (R107, R124). -/
def wordBcc (u : Fin 8) (w : Word) : Option Instr :=
  match pReg (wA w), pReg (wImm w / 4096) with
  | some a, some b => onlyIf (wD w < 6 && wImm w % 4096 ≠ 0) (.bcc u (BitVec.ofNat 5 (wD w)) a b (BitVec.ofNat 12 (wImm w)))
  | _, _ => none

/-- LOOP: Pa, N in [15:8], L in [7:0] (R107, R125). -/
def wordLoop (u : Fin 8) (w : Word) : Option Instr :=
  match pReg (wA w) with
  | some a => onlyIf (wD w = 0 && wImm w / 256 ≠ 0 && wImm w % 256 ≠ 0) (.loop u a (BitVec.ofNat 8 (wImm w / 256)) (BitVec.ofNat 8 (wImm w)))
  | none => none

/-- RAISE Pa, k: the d field is not used (R113). -/
def wordRaise (u : Fin 8) (w : Word) : Option Instr :=
  match pReg (wA w) with
  | some a => onlyIf (wD w = 0 && wImm w < 4) (.raise u a (BitVec.ofNat 2 (wImm w)))
  | none => none

/-- LDS.X Cd, Pa, e. -/
def wordLdsX (u : Fin 8) (env : FetchEnv) (w : Word) : Option Instr :=
  match pReg (wA w) with
  | some a => onlyIf (wImm w < 4096) (.ldsX u (cReg (wD w)) a (BitVec.ofNat 12 (wImm w)) env.load)
  | none => none

/-- An instruction of no register field: `lim` bounds the immediate. -/
def wordImm (w : Word) (lim : Nat) (i : Instr) : Option Instr := onlyIf (wD w = 0 && wA w = 0 && wImm w < lim) i

/-- The coded instructions (R113). -/
def wordCoded (u : Fin 8) (env : FetchEnv) (w : Word) : Option Instr :=
  match wOp w with
  | 0x01 => onlyIf (wA w = 0 && wImm w < 4096) (.lds u (cReg (wD w)) (BitVec.ofNat 12 (wImm w)) env.load)
  | 0x02 => wordLdsX u env w
  | 0x03 => onlyIf (wD w = 0 && wImm w < 512) (.sts u (cReg (wA w)) (BitVec.ofNat 9 (wImm w)))
  | 0x04 => onlyIf (wA w = 0 && wImm w < 1024) (.ldv u (cReg (wD w)) (BitVec.ofNat 10 (wImm w)))
  | 0x05 => onlyIf (wD w = 0 && wImm w < 1024) (.stv u (cReg (wA w)) (BitVec.ofNat 10 (wImm w)))
  | 0x08 => wordC3 w 3 fun d a b => .cadd u d a b (BitVec.ofNat 2 (wModeT w))
  | 0x09 => wordC3 w 3 fun d a b => .csub u d a b (BitVec.ofNat 2 (wModeT w))
  | 0x0A => wordC2 w 0x300 fun d a => .cmulk u d a (BitVec.ofNat 8 (wImm w)) (BitVec.ofNat 2 (wImm w / 256))
  | 0x0B => wordC3 w 6 fun d a b => .ccmp u d a b (BitVec.ofNat 3 (wModeT w))
  | 0x0C => wordC3 w 2 fun d a b => .cmin u d a b (wModeT w = 1)
  | 0x0D => wordC3 w 2 fun d a b => .cmax u d a b (wModeT w = 1)
  | 0x0E => wordC4 w 2 fun d a b c => .clim u d a b c (wModeQ w = 1)
  | 0x0F => wordC2 w 1 fun d a => .cmov u d a
  | 0x10 => wordC3 w 1 fun d a b => .cand u d a b
  | 0x11 => wordC3 w 1 fun d a b => .cor u d a b
  | 0x12 => wordC2 w 1 fun d a => .cnot u d a
  | 0x13 => wordC4 w 1 fun d a b c => .csel u d a b c
  | 0x14 => wordC2 w 16 fun d a => .cbit u d a (BitVec.ofNat 4 (wImm w))
  | 0x15 => wordC3 w 1 fun d a b => .cxor u d a b
  | 0x16 => wordC2 w 1 fun d a => .cabs u d a
  | 0x17 => onlyIf (wA w = 0 && wImm w = 0) (.cclr u (cReg (wD w)))
  | 0x18 => wordC2 w 256 fun d a => .cton u d a (BitVec.ofNat 8 (wImm w))
  | 0x19 => wordC2 w 256 fun d a => .ctof u d a (BitVec.ofNat 8 (wImm w))
  | 0x1A => wordC2 w 256 fun d a => .ctp u d a (BitVec.ofNat 8 (wImm w))
  | 0x1C => wordFb u env w
  | _ => none

/-- Control flow, plain and system instructions (R113). -/
def wordPlain (u : Fin 8) (env : FetchEnv) (w : Word) : Option Instr :=
  match wOp w with
  | 0x20 => onlyIf (wD w = 0 && wA w = 0 && wImm w ≠ 0) (.br u (BitVec.ofNat 16 (wImm w)))
  | 0x21 => wordBcc u w
  | 0x22 => wordLoop u w
  | 0x23 => wordImm w 2 (.endSlot u (wImm w = 1) env.endMain env.endChk)
  | 0x24 => wordImm w 1 (.nop u)
  | 0x28 => wordP3 w (.add u)
  | 0x29 => wordP3 w (.sub u)
  | 0x2A => wordP3 w (.and u)
  | 0x2B => wordP3 w (.or u)
  | 0x2C => wordP3 w (.xor u)
  | 0x2D => wordP3 w (.sll u)
  | 0x2E => wordP3 w (.srl u)
  | 0x2F => wordP3 w (.sra u)
  | 0x30 => wordP3 w (.mul u)
  | 0x31 => wordP2 w (.addi u)
  | 0x32 => wordP2 w (.andi u)
  | 0x33 => wordP2 w (.ori u)
  | 0x34 => wordP1 w true fun d => .movi u d (BitVec.ofNat 16 (wImm w))
  | 0x35 => wordP1 w true fun d => .movhi u d (BitVec.ofNat 16 (wImm w))
  | 0x36 => wordP1 w (wImm w < 6) fun d => .mfs u d (BitVec.ofNat 3 (wImm w))
  | 0x37 => wordP3 w (.slt u)
  | 0x38 => wordImm w 4096 (.mapinv u (BitVec.ofNat 12 (wImm w)))
  | 0x39 => wordImm w 1 (.fence u)
  | 0x3A => wordImm w 1 (.swap u)
  | 0x3B => wordP2 w (.stPgm u)
  | 0x3C => wordImm w 4 (.trap u (BitVec.ofNat 2 (wImm w)))
  | 0x3D => wordRaise u w
  | _ => none

/-- The command of an instruction word on core `u`; none for a word that R108 makes an illegal opcode by itself. A branch target, a
LOOP body and the class of the partition are judged where the instruction runs. -/
def sextant (u : Fin 8) (env : FetchEnv) (w : Word) : Option Instr :=
  if wOp w < 0x20 then wordCoded u env w else wordPlain u env w

/-- The word at a core's PC in its active bank, where the PC lies in the partition's window (R80, R81). -/
def State.fetchWord (s : State) (u : Nat) : Option Word :=
  let k := s.core u
  if s.inPgm k.part k.pc then some (Mem.w32 s.mem.pgm (pgmAt u (s.actBank k.part) k.pc)) else none

/-- The command that a core's next instruction is: ILLEGAL_OPCODE for a fetch outside the window or an illegal word (R81, R108). -/
def State.fetched (s : State) (u : Fin 8) (env : FetchEnv) : Instr :=
  ((s.fetchWord u.val).bind (sextant u env)).getD (.illegalOpcode u)

end Sys2Proof.Machine
end

