-- ==== Sys2Proof/Machine/Idle.lean ====
section
/-! DEFINITION. One cycle of CLK_TB with no command waiting: Meridian counts, the ports send what they send of themselves, and every core in
a slot runs the program in its program SRAM (R90, R107, R345, R352; log 4, log 107). -/

namespace Sys2Proof.Machine

open Sys2Proof

/-- An instruction that meets nothing amiss: no ECC error, no parity error, no fault of a unit, equal last compared words. -/
def FetchEnv.clean : FetchEnv := ⟨⟨0, .clean, false, .clean, .clean⟩, false, false, 0, 0⟩

/-- Has the time of a core's slot reached its next instruction: the cycles counted lie behind it (R109, R120)? -/
def State.coreDue (s : State) (u : Nat) : Bool :=
  s.canRun u && decide (cycleTicks s.dev.grade (s.core u).cyc ≤ s.now - (s.core u).stime)

/-- The instructions a core takes in a cycle of CLK_TB, at most 8 (R12), each the word at its PC. -/
def State.coreRuns (u : Fin 8) : Nat → State → State
  | 0, s => s
  | k + 1, s =>
    if s.coreDue u.val then match exec (s.fetched u FetchEnv.clean) s with
      | .next t => State.coreRuns u k t
      | _ => s
    else s

/-- The cycle. -/
def State.idle (s : State) : State :=
  let s1 := s.tick.when s.tbRuns fun x => x.each (List.range 8) State.portBeat
  s1.each [0, 1, 2, 3, 4, 5, 6, 7] fun x u => State.coreRuns u 8 x

end Sys2Proof.Machine
end

