-- ==== Sys2Proof/Safety.lean ====
section
/-! DEFINITION. The terms the statements use: a step that completes, memories in their canonical form, which groups of the
state a command may change, and what a core needs to complete an instruction. -/

namespace Sys2Proof.Machine

open Sys2Proof

/-- A step that ends in a next state. -/
def Completes (s : State) : Prop := ∃ t, step s = .next t

/-- Every memory is in its canonical form. -/
def Mems.wf (m : Mems) : Bool :=
  Memory.wf m.img && Memory.wf m.logm && Memory.wf m.eph && Memory.wf m.pgm && Memory.wf m.flash && Memory.wf m.spill
    && Memory.wf m.clog && Memory.wf m.win

/-- The groups of the state, the queue apart. -/
inductive Group where
  | dev | regs | mem | host | eng | flt | log | evt | cfg | mer | tim | lcs | field | fab | net | vern | ngl | free
deriving DecidableEq, Repr

/-- From `s` to `t` only the groups of `g` change; never the queue; memories in canonical form stay so,
and a core's slot is of the partition it was of, or of one of the 16. -/
structure Keeps (g : Group → Bool) (s t : State) : Prop where
  pending : t.pending = s.pending
  wf : s.mem.wf = true → t.mem.wf = true
  part : ∀ u, (t.core u).part = (s.core u).part ∨ (t.core u).part < 16
  dev : g .dev = false → t.dev = s.dev
  regs : g .regs = false → t.regs = s.regs
  mem : g .mem = false → t.mem = s.mem
  host : g .host = false → t.host = s.host
  eng : g .eng = false → t.eng = s.eng
  flt : g .flt = false → t.flt = s.flt
  log : g .log = false → t.log = s.log
  evt : g .evt = false → t.evt = s.evt
  cfg : g .cfg = false → t.cfg = s.cfg
  mer : g .mer = false → t.mer = s.mer
  tim : g .tim = false → t.tim = s.tim
  lcs : g .lcs = false → t.lcs = s.lcs
  field : g .field = false → t.field = s.field
  fab : g .fab = false → t.fab = s.fab
  net : g .net = false → t.net = s.net
  vern : g .vern = false → t.vern = s.vern
  ngl : g .ngl = false → t.ngl = s.ngl
  free : g .free = false → t.free = s.free

/-- The groups of a list. -/
def only (gs : List Group) (g : Group) : Bool := gs.contains g

/-- The invariant: every memory is in its canonical form, and every core's slot is of one of the 16 partitions. -/
def State.Inv (s : State) : Prop := s.mem.wf = true ∧ ∀ u, (s.core u).part < 16

/-! Instructions of a core unit -/

/-- The core unit can take an instruction of `c` core and `k` system cycles, and it ends before cycle BUDGET (R92, R109). -/
abbrev Ready (s : State) (u c k : Nat) : Prop :=
  s.canRun u = true ∧ s.inPgm (s.core u).part (s.core u).pc = true ∧ (s.core u).cyc + cycles s.dev.grade c k < (s.core u).budget

/-- What of a core its instructions leave alone: its slot, without context, program counter, cycles, staged results, loop and the
signatures of a loose slot. -/
def CoreSt.fixed (c : CoreSt) : CoreSt :=
  { c with ctx := Ctx.reset, pc := 0, cyc := 0, staged := [], loopLo := 0, loopHi := 0, swapReq := false, swapStaged := false, misr := 0, misrChk := 0 }

/-- Core unit `u` took an instruction of `c` core and `k` system cycles and its slot goes on. Of the engine only the unit's context,
program counter, cycle count, staged results and loop change, its signatures in loose mode (R164), and its pair: the debugger's step is
used up, and `f` happened to it. Of the rest of the machine only the groups of `gs` change. -/
structure WentWith (gs : List Group) (f : PairSt → PairSt) (s t : State) (u c k : Nat) : Prop where
  keeps : Keeps (only (.eng :: gs)) s t
  others : ∀ v, v ≠ u → t.core v = s.core v
  pair : ∀ n, t.pair n = if n = pairOf u then f { s.pair n with stepOk := false } else s.pair n
  rest : { t.eng with cores := s.eng.cores, pairs := s.eng.pairs } = s.eng
  slot : (t.core u).fixed = (s.core u).fixed
  cyc : (t.core u).cyc = (s.core u).cyc + cycles s.dev.grade c k
  misr : (t.core u).misr = (if s.cmode (pairOf u) = 1 then
      misrStep (s.core u).misr (Config.compared (comparedOuts (s.core u) (t.core u))) else (s.core u).misr) ∧
    (t.core u).misrChk = if s.cmode (pairOf u) = 1 then
      misrStep (s.core u).misrChk (Config.compared (comparedOuts (s.core u) (t.core u))) else (s.core u).misrChk

/-- It changed nothing beyond its core and its pair's debugger step. -/
def Went (s t : State) (u c k : Nat) : Prop := WentWith [] id s t u c k

/-- The core goes on to the next instruction in program order; at the end of a LOOP's body to its first, while turns remain (R125). -/
def GoesOn (s t : State) (u : Nat) : Prop :=
  let a := s.core u
  let b := t.core u
  b.loopLo = a.loopLo ∧ b.loopHi = a.loopHi ∧
    if flagInLoop a.ctx.flags = true ∧ a.pc = a.loopHi then
      if 1 < flagIter a.ctx.flags then
        b.pc = a.loopLo ∧ b.ctx.flags = flagsLoop a.ctx.flags true (flagIter a.ctx.flags - 1)
      else b.pc = a.pc + 1 ∧ b.ctx.flags = flagsLoop a.ctx.flags false 0
    else b.pc = a.pc + 1 ∧ b.ctx.flags = a.ctx.flags

/-- The coded register, as stored. -/
def State.creg (s : State) (u n : Nat) : Csw := Tab.get (fun _ => (0 : Csw)) (s.core u).ctx.c n

/-- No coded register, staged result or swap request of the core changes. -/
def CodedKept (s t : State) (u : Nat) : Prop :=
  (t.core u).ctx.c = (s.core u).ctx.c ∧ (t.core u).staged = (s.core u).staged ∧ (t.core u).swapReq = (s.core u).swapReq

/-- Plain register `d` takes `v`, P0 none, and no other plain register changes (R104). -/
def PutsP (s t : State) (u d : Nat) (v : Word) : Prop :=
  ∀ r, t.readP u r = if r = d ∧ d ≠ 0 then v else s.readP u r

/-- A plain instruction wrote `v` to Pd. -/
def PlainDone (s t : State) (u c d : Nat) (v : Word) : Prop :=
  Went s t u c 0 ∧ GoesOn s t u ∧ CodedKept s t u ∧ PutsP s t u d v

/-- No plain register changes, and nothing is staged but what `x` lists. -/
def PlainKept (s t : State) (u : Nat) (x : List Staged) : Prop :=
  (t.core u).ctx.p = (s.core u).ctx.p ∧ (t.core u).staged = (s.core u).staged ++ x ∧ (t.core u).swapReq = (s.core u).swapReq

/-- Coded register `d` takes the word of `v` and `q` with the AGE of the slot's start, and no other coded register changes
(R110, R111). -/
def PutsC (s t : State) (u d v : Nat) (q : Qual) : Prop :=
  ∀ r, t.creg u r = if r = d then mkCsw (s.aP (s.core u).part) (tagReg d) (safeV v q) (s.core u).ssf q else s.creg u r

/-- A coded instruction wrote `v` and `q` to Cd. -/
def CodedDone (s t : State) (u c k d v : Nat) (q : Qual) : Prop :=
  Went s t u c k ∧ GoesOn s t u ∧ PlainKept s t u [] ∧ PutsC s t u d v q

/-- No coded register changes. -/
def CregKept (s t : State) (u : Nat) : Prop := (t.core u).ctx.c = (s.core u).ctx.c

/-- Entry `e` of a running slot's import list is good, its translation `d` is cached and good, and the load gives `v` and `q` with
no trap (R114, R76, R153). The stored word, where there is one, needs no correction; the Collimator concerns entry 24 of the list of
R157 alone. -/
def LoadHit (s : State) (u e : Nat) (env : LoadEnv) (id : Nat) (d : Csw) (v : Nat) (q : Qual) : Prop :=
  ∃ trapAq x y, s.importEntry (s.core u).part e = .ok (id, trapAq) ∧
    (s.pair (pairOf u)).cache.find? (fun z => z.1 = id) = some (y, d) ∧ env.parity = false ∧
    dCheck d id (s.core u).part = none ∧ (env.word = .clean ∨ wordAt d = none) ∧ (env.coll = 0 ∨ ¬ (dType d = 6 ∧ dOffset d = 24)) ∧
    loadSteps (s.located id d).1 (s.located id d).2.1 id (s.located id d).2.2 (s.core u).ssf (dMaxAge d) = (v, q, x) ∧
    x ≠ some .codeCheck ∧ (x = none ∨ trapAq = false)

/-- The slot of core `u` is over by a trap that raised source `src`: nothing staged remains, and its partition's trap reaction has set
its mode (R92, R93, R141). -/
structure Trapped (s t : State) (u src : Nat) : Prop where
  keeps : Keeps (only [.eng, .flt, .host, .log, .mem, .regs]) s t
  ended : (t.core u).inSlot = false ∧ (t.core u).staged = [] ∧ (t.core u).swapReq = false
  raised : (t.det src).held = true
  safe : s.ptLive (s.core u).part = true → s.ptTrapRx (s.core u).part = 0 → t.ptMode (s.core u).part = 3
  locked : s.ptLive (s.core u).part = true → s.ptTrapRx (s.core u).part = 1 → t.ptMode (s.core u).part = 4
  stopped : s.ptLive (s.core u).part = true → s.ptTrapRx (s.core u).part = 2 → t.ptMode (s.core u).part = 0
  skipped : s.ptLive (s.core u).part = true → s.ptTrapRx (s.core u).part = 3 → t.ptMode (s.core u).part = s.ptMode (s.core u).part

/-- A partition in RUN or MAINTENANCE has taken the reaction its TRAP_RX names (R93): SAFE_STATE, LOCKED_OUT, STOP, or none. -/
def Reacted (s t : State) (p : Nat) : Prop :=
  s.ptLive p = true → t.ptMode p = match s.ptTrapRx p with
    | 0 => 3
    | 1 => 4
    | 2 => 0
    | _ => s.ptMode p

/-- A saturating 32-bit counter counted one. -/
def Counted (s t : State) (a : Nat) : Prop := (t.rd a).toNat = min ((s.rd a).toNat + 1) 4294967295

/-! Function blocks -/

/-- The instance record an invocation starts from: the one last staged in the slot, else the stored one (R117). -/
def State.fbNow (s : State) (u i : Nat) : List Byte :=
  (stagedFb i (s.core u).staged).getD (Mem.bytes s.mem.img (s.fbAt (s.core u).part i) 64)

/-- The invocation takes an FN_RESET command (R207). -/
def State.fbCmd (s : State) (u i : Nat) : Bool :=
  (fbRec (s.fbNow u i)).cmdRst && s.fnHeld (s.core u).part i && !(s.core u).staged.any fun y => decide (y = .fnTaken i)

/-- What an invocation with inputs `ins` sees. -/
def State.fbEnv (s : State) (u i : Nat) (ins : List FbIn) : FbEnv := ⟨ins, (s.core u).stime, (s.core u).ssf, s.fbCmd u i⟩

/-- The core can run block `code` on instance `i`: registers in range, record in the window, good and of this block, every input in
use good (R196, R199, R551). -/
abbrev FbReady (s : State) (u d a i code nIn nOut : Nat) (used : FbRec → Nat → Bool) (ins : List FbIn) : Prop :=
  Ready s u 4 20 ∧ a + nIn ≤ 32 ∧ d + nOut ≤ 32 ∧ (17 ≤ code → s.runsSafe u = true) ∧ i < s.winHdr (s.core u).part 24 ∧
    fbRecOk (s.fbNow u i) = true ∧
    (stagedFb i (s.core u).staged = none → s.imgFlawed (s.fbAt (s.core u).part i) 64 = false) ∧ (fbRec (s.fbNow u i)).code = code ∧
    s.fbInputs u a nIn (used (fbRec (s.fbNow u i))) = some ins

/-- A block gave `o`: its outputs stand in Cd upward, and its record waits for END. -/
def FbDone (s t : State) (u d i : Nat) (o : FbOut) : Prop :=
  Went s t u 4 20 ∧ GoesOn s t u ∧ (t.core u).ctx.p = (s.core u).ctx.p ∧ (t.core u).swapReq = (s.core u).swapReq ∧
    stagedFb i (t.core u).staged = some (fbBytes o.r) ∧ (s.core u).staged <+: (t.core u).staged ∧
    ∀ r, t.creg u r = match (if r < d then none else o.outs[r - d]?) with
      | some (v, q) => mkCsw (s.aP (s.core u).part) (tagReg r) (safeV v q) (s.core u).ssf q
      | none => s.creg u r

/-! The safe state -/

/-- The safe-state line is asserted; where it was not before, the device stands in HALTED (BOOT stays) and every Shutter is open (R470). -/
def SafeStateTaken (s t : State) : Prop :=
  t.flt.safeLine = true ∧ (s.flt.safeLine = false → t.dev.mode = (if s.dev.mode = .boot then .boot else .halted) ∧
    ∀ b < 24, t.bit (rBank_BK_STAT b) 0 = false)

/-! Fabric frames and blocks -/

/-- A control block that R345, R351 and R373 accept on the port. -/
abbrev BlockOk (s : State) (p ctype : Nat) (bs : List Byte) (ln : RxLine) : Prop :=
  bs.length = 32 ∧ leAt bs 12 4 = (crc32c (bs.take 12)).toNat ∧ cbType bs = ctype ∧ s.tagPass p (cbFlags bs) ln.tagOk = true ∧ ln.bad = 0

/-- A frame that R345, R347, R354 and R373 accept on the port, in its class. -/
abbrev FrameOk (s : State) (p typ lo hi : Nat) (bs : List Byte) (ln : RxLine) : Prop :=
  s.portUp p = true ∧ ln.bad = 0 ∧ frTyp bs = typ ∧ frCrcOk bs = true ∧ s.tagPass p (frFlags bs) ln.tagOk = true ∧ frHash bs = s.cfgHash ∧
    leAt bs 3 1 = 1 ∧ lo ≤ s.now % 6250 ∧ s.now % 6250 < hi

/-- A BULK frame of a kind, of another device and meant for this one (R444). -/
abbrev BulkOk (s : State) (p kind : Nat) (bs : List Byte) (ln : RxLine) : Prop :=
  FrameOk s p 6 5625 6250 bs ln ∧ 24 ≤ frLen bs ∧ leAt (frPayload bs) 0 1 = kind ∧
    (leAt (frPayload bs) 2 2 = s.self ∨ leAt (frPayload bs) 2 2 = 0xFFFF) ∧ frOrigin bs ≠ s.self

/-- Meridian at the next moment at tick `n` of a superframe. -/
def State.tickAt (s : State) (n : Nat) : Nat := if s.now % 6250 ≤ n then s.sf * 6250 + n else (s.sf + 1) * 6250 + n

/-! Commands of a master -/

/-- A block answers at `a`, and the master may write there with the privilege `role` (R34, R515). -/
abbrev Admitted (s : State) (m : Master) (a : Nat) (role : Bool) : Prop := s.asleep a = false ∧ s.mayWrite m a role = true

/-- The MSI-X message of a vector: the address and data of its table entry (R24, R43). -/
def State.vecMsg (s : State) (v : Nat) : Out := .msix v (Tab.get (fun _ => 0) s.host.vaddr v) (Tab.get (fun _ => 0) s.host.vdata v)

/-- The write is denied: nothing changes but HOST_OWNER_DENIED's detector, DENY_ADDR, DENY_MASTER and what every write restarts
(R34, R45, R32, R42, R435). -/
structure WriteDenied (s t : State) (m : Master) (a : Nat) : Prop where
  keeps : Keeps (only [.regs, .host, .flt, .cfg]) s t
  raised : (t.det 949).held = true
  addr : t.rd rHost_DENY_ADDR = BitVec.ofNat 32 a
  master : t.rd rHost_DENY_MASTER = BitVec.ofNat 32 (masterNum m)
  host : { t.host with masters := s.host.masters } = s.host
  cfg : { t.cfg with sess := s.cfg.sess } = s.cfg

end Sys2Proof.Machine
end

