-- ==== Sys2Proof/Certificates/Slice0/Obligations.lean ====
section
/-! DEFINITION. The statements of this row. -/

open Sys2Proof Sys2Proof.Machine

/-- Every step keeps the memories canonical and the cores on the 16 partitions. derived: R60, R79, R90, R131, R170,
R485, spec/03_coded_signals.md, spec/04_evaluation_engine.md, spec/05_sextant_instruction_set.md,
spec/07_coelostat_lockstep.md, spec/18_logbook_events.md. -/
def Obligations.StepKeepsInvariant : Prop :=
  ∀ s t : State, s.Inv → step s = .next t → t.Inv

/-- The invariant holds at reset. derived: R60, R90, spec/03_coded_signals.md, spec/04_evaluation_engine.md. -/
def Obligations.ResetInvariant : Prop :=
  State.reset.Inv ∧ State.reset.pending = []

/-- Every command answers a next state and leaves the queue alone. derived: spec/00_scope.md,
spec/95_what_each_step_holds.md. -/
def Obligations.EveryCommandAnswers : Prop :=
  ∀ (c : Instr) (s : State), ∃ t, exec c s = .next t ∧ t.pending = s.pending

/-- A step runs the command at the front of the queue. derived: spec/00_scope.md, spec/95_what_each_step_holds.md. -/
def Obligations.StepRunsFront : Prop :=
  ∀ (c : Instr) (rest : List Instr) (s : State),
    s.pending = c :: rest → step s = exec c (s.modPending fun _ => rest)

/-- With no command waiting a step is one tick: Meridian counts, and a core in a slot runs the word at its PC.
derived: R319, R14, R107, R81, R90, spec/12_meridian_timers.md, spec/01_architecture.md,
spec/05_sextant_instruction_set.md, spec/04_evaluation_engine.md. -/
def Obligations.IdleTick : Prop :=
  ∀ s : State, s.pending = [] →
    let quiet := ∀ p < 8, s.portState p ≠ 4 ∧ s.portState p ≠ 5
    let t1 := s.tick
    (∃ t, step s = .next t ∧ t.pending = []) ∧
    (quiet → (∀ u < 8, (s.core u).inSlot = false) →
      ∃ t, step s = .next t ∧ Keeps (only [.mer]) s t ∧
        t.mer = if s.dev.pllLocked = true ∧ s.dev.mode ≠ .dormant then { s.mer with now := s.mer.now + 1, dup := s.mer.dup + 1 }
          else s.mer) ∧
    ∀ (u : Fin 8) (t2 : State), quiet → (∀ v < 8, t1.coreDue v = true ↔ v = u.val) →
      exec (t1.fetched u FetchEnv.clean) t1 = .next t2 → (∀ v < 8, t2.coreDue v = false) → step s = .next t2

/-- Plain instructions of two sources: Pd takes the result, nothing else changes. derived: R113, R127, R104, R109,
spec/05_sextant_instruction_set.md. -/
def Obligations.PlainTwoSource : Prop :=
  ∀ (s : State) (u : Fin 8) (d a b : Fin 16),
    let x := s.readP u.val a.val
    let y := s.readP u.val b.val
    (Ready s u.val 1 0 →
      (∃ t, exec (.add u d a b) s = .next t ∧ PlainDone s t u.val 1 d.val (x + y)) ∧
      (∃ t, exec (.sub u d a b) s = .next t ∧ PlainDone s t u.val 1 d.val (x - y)) ∧
      (∃ t, exec (.and u d a b) s = .next t ∧ PlainDone s t u.val 1 d.val (x &&& y)) ∧
      (∃ t, exec (.or u d a b) s = .next t ∧ PlainDone s t u.val 1 d.val (x ||| y)) ∧
      (∃ t, exec (.xor u d a b) s = .next t ∧ PlainDone s t u.val 1 d.val (x ^^^ y)) ∧
      (∃ t, exec (.sll u d a b) s = .next t ∧ PlainDone s t u.val 1 d.val (x <<< (y.toNat % 32))) ∧
      (∃ t, exec (.srl u d a b) s = .next t ∧ PlainDone s t u.val 1 d.val (x >>> (y.toNat % 32))) ∧
      (∃ t, exec (.sra u d a b) s = .next t ∧ PlainDone s t u.val 1 d.val (x.sshiftRight (y.toNat % 32))) ∧
      (∃ t, exec (.slt u d a b) s = .next t ∧ PlainDone s t u.val 1 d.val (if x.toInt < y.toInt then 1 else 0))) ∧
    (Ready s u.val 3 0 →
      ∃ t, exec (.mul u d a b) s = .next t ∧ PlainDone s t u.val 3 d.val (x * y))

/-- Immediate plain instructions, NOP and FENCE. derived: R113, R127, R104, R109, R129,
spec/05_sextant_instruction_set.md. -/
def Obligations.PlainOneSource : Prop :=
  ∀ (s : State) (u : Fin 8) (d a : Fin 16) (imm : BitVec 16),
    let x := s.readP u.val a.val
    (Ready s u.val 1 0 →
      (∃ t, exec (.addi u d a imm) s = .next t ∧ PlainDone s t u.val 1 d.val (x + imm.signExtend 32)) ∧
      (∃ t, exec (.andi u d a imm) s = .next t ∧ PlainDone s t u.val 1 d.val (x &&& imm.setWidth 32)) ∧
      (∃ t, exec (.ori u d a imm) s = .next t ∧ PlainDone s t u.val 1 d.val (x ||| imm.setWidth 32)) ∧
      (∃ t, exec (.movi u d imm) s = .next t ∧ PlainDone s t u.val 1 d.val (imm.setWidth 32)) ∧
      (∃ t, exec (.movhi u d imm) s = .next t ∧
        PlainDone s t u.val 1 d.val (BitVec.ofNat 32 (imm.toNat * 65536 + (s.readP u.val d.val).toNat % 65536))) ∧
      (∃ t, exec (.nop u) s = .next t ∧ Went s t u.val 1 0 ∧ GoesOn s t u.val ∧ CodedKept s t u.val ∧
        ∀ r, t.readP u.val r = s.readP u.val r)) ∧
    (Ready s u.val 2 8 →
      ∃ t, exec (.fence u) s = .next t ∧ Went s t u.val 2 8 ∧ GoesOn s t u.val ∧ CodedKept s t u.val ∧
        ∀ r, t.readP u.val r = s.readP u.val r)

/-- MFS returns the system value its selector names; selectors 6 and 7 are illegal. stated: R128. -/
def Obligations.MfsValues : Prop :=
  ∀ (s : State) (u : Fin 8) (d : Fin 16),
    let k := s.core u.val
    (Ready s u.val 1 0 →
      (∃ t, exec (.mfs u d 0) s = .next t ∧ PlainDone s t u.val 1 d.val (BitVec.ofNat 32 k.slot)) ∧
      (∃ t, exec (.mfs u d 1) s = .next t ∧ PlainDone s t u.val 1 d.val k.ctx.flags) ∧
      (∃ t, exec (.mfs u d 2) s = .next t ∧ PlainDone s t u.val 1 d.val (BitVec.ofNat 32 k.part)) ∧
      (∃ t, exec (.mfs u d 3) s = .next t ∧ PlainDone s t u.val 1 d.val (BitVec.ofNat 32 (k.ssf % 2 ^ s.fld rEng_MF_CFG 0 4))) ∧
      (∃ t, exec (.mfs u d 4) s = .next t ∧ PlainDone s t u.val 1 d.val (BitVec.ofNat 32 k.stime)) ∧
      (∃ t, exec (.mfs u d 5) s = .next t ∧ PlainDone s t u.val 1 d.val (BitVec.ofNat 32 (k.stime / 4294967296)))) ∧
    exec (.mfs u d 6) s = exec (.illegalOpcode u) s ∧ exec (.mfs u d 7) s = exec (.illegalOpcode u) s

/-- BR, BCC and LOOP move the program counter. derived: R124, R125, R108, R113, spec/05_sextant_instruction_set.md. -/
def Obligations.BranchesAndLoops : Prop :=
  ∀ (s : State) (u : Fin 8) (a b : Fin 16),
    let k := s.core u.val
    let kept := fun t : State => Went s t u.val 2 0 ∧ CodedKept s t u.val ∧ ∀ r, t.readP u.val r = s.readP u.val r
    let goes := fun (t : State) (n : Nat) =>
      (t.core u.val).pc = n ∧ (t.core u.val).loopLo = k.loopLo ∧ (t.core u.val).loopHi = k.loopHi ∧
        (t.core u.val).ctx.flags =
          if flagInLoop k.ctx.flags = true ∧ k.loopHi < n then flagsLoop k.ctx.flags false 0 else k.ctx.flags
    Ready s u.val 2 0 →
      (∀ o : BitVec 16, 0 < o.toNat → s.inPgm k.part (k.pc + o.toNat) = true →
        ∃ t, exec (.br u o) s = .next t ∧ kept t ∧ goes t (k.pc + o.toNat)) ∧
      (∀ (cc : BitVec 5) (o : BitVec 12), 0 < o.toNat → cc.toNat < 6 → s.inPgm k.part (k.pc + o.toNat) = true →
        let x := s.readP u.val a.val
        let y := s.readP u.val b.val
        let holds := (cc = 0 ∧ x = y) ∨ (cc = 1 ∧ x ≠ y) ∨ (cc = 2 ∧ x.toInt < y.toInt) ∨ (cc = 3 ∧ y.toInt ≤ x.toInt) ∨
          (cc = 4 ∧ x.toNat < y.toNat) ∨ (cc = 5 ∧ y.toNat ≤ x.toNat)
        ∃ t, exec (.bcc u cc a b o) s = .next t ∧ kept t ∧ (holds → goes t (k.pc + o.toNat)) ∧ (¬ holds → GoesOn s t u.val)) ∧
      (∀ n l : BitVec 8, n ≠ 0 → l ≠ 0 → flagInLoop k.ctx.flags = false → s.inPgm k.part (k.pc + l.toNat) = true →
        let count := if a = 0 then n.toNat else min (s.readP u.val a.val).toNat n.toNat
        ∃ t, exec (.loop u a n l) s = .next t ∧ kept t ∧
          (count = 0 → goes t (k.pc + l.toNat + 1)) ∧
          (count ≠ 0 → (t.core u.val).pc = k.pc + 1 ∧ (t.core u.val).loopLo = k.pc + 1 ∧ (t.core u.val).loopHi = k.pc + l.toNat ∧
            (t.core u.val).ctx.flags = flagsLoop k.ctx.flags true count))

/-- Coded instructions of one source. derived: R110, R111, R113, R118, R119, spec/05_sextant_instruction_set.md. -/
def Obligations.CodedOneSource : Prop :=
  ∀ (s : State) (u : Fin 8) (d a : Fin 32) (v : Nat) (q : Qual),
    let int := fun n : Nat => if n < 32768 then (n : Int) else (n : Int) - 65536
    (Ready s u.val 2 0 → s.readC u.val a.val = some (v, q) →
      (∃ t, exec (.cmov u d a) s = .next t ∧ CodedDone s t u.val 2 0 d.val v q) ∧
      (∃ t, exec (.cnot u d a) s = .next t ∧ CodedDone s t u.val 2 0 d.val (if v = 0 then 1 else 0) q) ∧
      (∀ n : BitVec 4, ∃ t, exec (.cbit u d a n) s = .next t ∧ CodedDone s t u.val 2 0 d.val (v / 2 ^ n.toNat % 2) q)) ∧
    (Ready s u.val 4 0 → s.readC u.val a.val = some (v, q) →
      (∃ t, exec (.cabs u d a) s = .next t ∧ CodedDone s t u.val 4 0 d.val (min (int v).natAbs 32767) q) ∧
      (∀ k : BitVec 8,
        (∃ t, exec (.cmulk u d a k 0) s = .next t ∧ CodedDone s t u.val 4 0 d.val (v * k.toNat % 65536) q) ∧
        (∃ t, exec (.cmulk u d a k 1) s = .next t ∧ CodedDone s t u.val 4 0 d.val (min (v * k.toNat) 65535) q) ∧
        (∃ t, exec (.cmulk u d a k 2) s = .next t ∧
          CodedDone s t u.val 4 0 d.val ((max (-32768) (min (int v * k.toNat) 32767) % 65536).toNat) q))) ∧
    (Ready s u.val 2 0 → ∃ t, exec (.cclr u d) s = .next t ∧ CodedDone s t u.val 2 0 d.val 0 .good)

/-- Coded instructions of two sources. derived: R110, R111, R113, R118, R67, spec/05_sextant_instruction_set.md,
spec/03_coded_signals.md. -/
def Obligations.CodedTwoSource : Prop :=
  ∀ (s : State) (u : Fin 8) (d a b : Fin 32) (v w : Nat) (q r : Qual),
    let int := fun n : Nat => if n < 32768 then (n : Int) else (n : Int) - 65536
    let sat := fun x : Int => (max (-32768) (min x 32767) % 65536).toNat
    let bit := fun p : Bool => if p then 1 else 0
    let gives := fun (c : Instr) (y : Nat) => ∃ t, exec c s = .next t ∧ CodedDone s t u.val 3 0 d.val y (qualWorse q r)
    Ready s u.val 3 0 → s.readC u.val a.val = some (v, q) → s.readC u.val b.val = some (w, r) →
      gives (.cadd u d a b 0) ((v + w) % 65536) ∧
      gives (.cadd u d a b 1) (min (v + w) 65535) ∧
      gives (.cadd u d a b 2) (sat (int v + int w)) ∧
      gives (.csub u d a b 0) ((v + (65536 - w)) % 65536) ∧
      gives (.csub u d a b 1) (v - w) ∧
      gives (.csub u d a b 2) (sat (int v - int w)) ∧
      gives (.ccmp u d a b 0) (bit (v = w)) ∧
      gives (.ccmp u d a b 1) (bit (v ≠ w)) ∧
      gives (.ccmp u d a b 2) (bit (v < w)) ∧
      gives (.ccmp u d a b 3) (bit (w ≤ v)) ∧
      gives (.ccmp u d a b 4) (bit (int v < int w)) ∧
      gives (.ccmp u d a b 5) (bit (int w ≤ int v)) ∧
      gives (.cmin u d a b false) (min v w) ∧
      gives (.cmin u d a b true) (if int w < int v then w else v) ∧
      gives (.cmax u d a b false) (max v w) ∧
      gives (.cmax u d a b true) (if int v < int w then w else v) ∧
      gives (.cand u d a b) (bit (v ≠ 0 ∧ w ≠ 0)) ∧
      gives (.cor u d a b) (bit (v ≠ 0 ∨ w ≠ 0)) ∧
      gives (.cxor u d a b) (bit ((v ≠ 0) ≠ (w ≠ 0)))

/-- CLIM and CSEL. derived: R110, R111, R113, R118, R119, R67, spec/05_sextant_instruction_set.md,
spec/03_coded_signals.md. -/
def Obligations.CodedThreeSource : Prop :=
  ∀ (s : State) (u : Fin 8) (d a b c : Fin 32) (va vb vc : Nat) (qa qb qc : Qual),
    let int := fun n : Nat => if n < 32768 then (n : Int) else (n : Int) - 65536
    s.readC u.val a.val = some (va, qa) → s.readC u.val b.val = some (vb, qb) → s.readC u.val c.val = some (vc, qc) →
      (Ready s u.val 4 0 → vb ≤ vc →
        ∃ t, exec (.clim u d a b c false) s = .next t ∧
          CodedDone s t u.val 4 0 d.val (min (max va vb) vc) (qualWorst [qa, qb, qc])) ∧
      (Ready s u.val 4 0 → vc < vb →
        ∃ t, exec (.clim u d a b c false) s = .next t ∧ CodedDone s t u.val 4 0 d.val 0 .fault) ∧
      (Ready s u.val 4 0 → int vb ≤ int vc →
        ∃ t y, exec (.clim u d a b c true) s = .next t ∧ CodedDone s t u.val 4 0 d.val y (qualWorst [qa, qb, qc]) ∧
          y ∈ [va, vb, vc] ∧ int y = min (max (int va) (int vb)) (int vc)) ∧
      (Ready s u.val 4 0 → int vc < int vb →
        ∃ t, exec (.clim u d a b c true) s = .next t ∧ CodedDone s t u.val 4 0 d.val 0 .fault) ∧
      (Ready s u.val 3 0 →
        ∃ t, exec (.csel u d a b c) s = .next t ∧
          (if (qc = .good ∨ qc = .forced) ∧ vc ≠ 0 then CodedDone s t u.val 3 0 d.val va (qualWorse qc qa)
            else CodedDone s t u.val 3 0 d.val vb (qualWorse qc qb)))

/-- LDS, LDS.X, STS, LDV and STV. derived: R110, R114, R116, R117, R76, R153, R143,
spec/05_sextant_instruction_set.md, spec/03_coded_signals.md, spec/06_signal_map.md. -/
def Obligations.LoadsAndStores : Prop :=
  ∀ (s : State) (u : Fin 8) (r : Fin 32) (a : Fin 16) (e : BitVec 12) (x : BitVec 9) (k : BitVec 10) (env : LoadEnv),
    let c := s.core u.val
    let front := fun (id : Nat) (d : Csw) (p : PairSt) => { p with cache := cachePut id d p.cache }
    let keptAll := fun (t : State) (l : List Staged) => GoesOn s t u.val ∧ CregKept s t u.val ∧ PlainKept s t u.val l
    (∀ id d v q, Ready s u.val 4 12 → LoadHit s u.val e.toNat env id d v q →
      ∃ t, exec (.lds u r e env) s = .next t ∧ WentWith [] (front id d) s t u.val 4 12 ∧ GoesOn s t u.val ∧
        PlainKept s t u.val [] ∧ PutsC s t u.val r.val v q) ∧
    (∀ id d v q, Ready s u.val 4 12 → s.runsSafe u.val = false →
      LoadHit s u.val (((s.readP u.val a.val).toNat + e.toNat) % 4096) env id d v q →
      ∃ t, exec (.ldsX u r a e env) s = .next t ∧ WentWith [] (front id d) s t u.val 4 12 ∧ GoesOn s t u.val ∧
        PlainKept s t u.val [] ∧ PutsC s t u.val r.val v q) ∧
    (∀ w, Ready s u.val 2 3 → k.toNat < s.winHdr c.part 40 →
      w = (stagedVar k.toNat c.staged).getD (s.imgCsw (s.varAt c.part k.toNat) (tagVar k.toNat)) →
      cswValid (s.aP c.part) w (tagVar k.toNat) = true →
      ∃ t, exec (.ldv u r k) s = .next t ∧
        CodedDone s t u.val 2 3 r.val (cswVal (s.aP c.part) w (tagVar k.toNat)) (cswQual w)) ∧
    (∀ idx fab safeInt v q, Ready s u.val 3 4 → s.exportEntry c.part x.toNat = .ok (idx, fab, safeInt) →
      (safeInt = true → s.runsSafe u.val = true) → s.readC u.val r.val = some (v, q) →
      ∃ t, exec (.sts u r x) s = .next t ∧ Went s t u.val 3 4 ∧
        keptAll t [.store idx (mkCsw (s.aP c.part) (s.selfId idx) (safeV v q) c.ssf q)]) ∧
    (∀ v q, Ready s u.val 2 3 → k.toNat < s.winHdr c.part 40 → s.readC u.val r.val = some (v, q) →
      ∃ t, exec (.stv u r k) s = .next t ∧ Went s t u.val 2 3 ∧
        keptAll t [.var k.toNat (mkCsw (s.aP c.part) (tagVar k.toNat) (safeV v q) c.ssf q)])

/-- CTON, CTOF and CTP evaluate a timer record against the slot time. derived: R120, R121, R134, R117,
spec/05_sextant_instruction_set.md. -/
def Obligations.CodedTimers : Prop :=
  (∀ (s : State) (u : Fin 8) (d a : Fin 32) (t : BitVec 8) (b : List Byte) (v : Nat) (q : Qual),
    let c := s.core u.val
    let r := timerRec b
    let preset := cswVal (s.aP c.part) r.preset (tagTimer t.toNat) * timerUnit r.unit
    let e := timerEval r preset c.stime (decide (v ≠ 0)) (flagFirst c.ctx.flags)
    let done := fun (z : State) (y : Nat) (r' : TimerRec) =>
      Went s z u.val 4 6 ∧ GoesOn s z u.val ∧ PlainKept s z u.val [.timer t.toNat (timerBytes r')] ∧ PutsC s z u.val d.val y q
    let ok := fun z : State =>
      if q = .good ∨ q = .forced then done z (if e.1 = true then 1 else 0) e.2
      else done z 0 { r with st := 0, last := true }
    Ready s u.val 4 6 → t.toNat < s.winHdr c.part 32 →
      b = (stagedTimer t.toNat c.staged).getD (Mem.bytes s.mem.img (s.tmrAt c.part t.toNat) 32) →
      timerRecOk b = true → (stagedTimer t.toNat c.staged = none → s.imgFlawed (s.tmrAt c.part t.toNat) 32 = false) →
      cswValid (s.aP c.part) r.preset (tagTimer t.toNat) = true → r.unit ≠ 3 →
      s.readC u.val a.val = some (v, q) →
        (r.typ = 0 → ∃ z, exec (.cton u d a t) s = .next z ∧ ok z) ∧
        (r.typ = 1 → ∃ z, exec (.ctof u d a t) s = .next z ∧ ok z) ∧
        (r.typ = 2 → ∃ z, exec (.ctp u d a t) s = .next z ∧ ok z)) ∧
  ∀ (r : TimerRec) (preset now : Nat) (inp first : Bool),
    let o := timerEval r preset now inp first
    let start := if r.st = 0 then now else r.tStart
    (r.typ = 0 → (o.1 = true ↔ inp = true ∧ preset ≤ now - start) ∧ (inp = false → o.2.st = 0)) ∧
    (r.typ = 1 → (inp = true → o.1 = true ∧ o.2.st = 0) ∧ (inp = false → o.1 = true → o.2.st = 1 ∧ now - o.2.tStart < preset)) ∧
    (r.typ = 2 → (o.1 = true → o.2.st = 1 ∧ now - o.2.tStart < preset) ∧ (first = true → r.st = 0 → o.1 = false) ∧
      o.2.last = inp)

/-- SWAP, RAISE, MAPINV and ST.PGM. derived: R130, R129, R136, R137, R140, R154, R98,
spec/05_sextant_instruction_set.md, spec/06_signal_map.md, spec/04_evaluation_engine.md. -/
def Obligations.SystemInstructions : Prop :=
  ∀ (s : State) (u : Fin 8) (d a : Fin 16) (k : BitVec 2) (e : BitVec 12) (imm : BitVec 16),
    let c := s.core u.val
    let adr := ((s.readP u.val a.val).toNat + imm.toNat) % 262144
    let bank := adr / 131072
    let i := adr % 131072
    let at0 := fun z : Nat => pgmAt z bank i
    let copies := if s.oneCopy (pairOf u.val) = true then [at0 u.val] else [at0 (2 * pairOf u.val), at0 (2 * pairOf u.val + 1)]
    let kept := fun t : State => GoesOn s t u.val ∧ CregKept s t u.val
    (Ready s u.val 2 0 →
      (∃ t, exec (.swap u) s = .next t ∧ Went s t u.val 2 0 ∧ kept t ∧ (t.core u.val).ctx.p = c.ctx.p ∧
        (t.core u.val).staged = c.staged ∧ (t.core u.val).swapReq = true ∧
        (t.core u.val).swapStaged = (c.swapStaged || s.cfg.staging)) ∧
      (∃ t, exec (.raise u a k) s = .next t ∧ Went s t u.val 2 0 ∧ kept t ∧
        PlainKept s t u.val [.raise k.toNat ((s.readP u.val a.val).toNat % 65536)])) ∧
    (∀ id trapAq, Ready s u.val 2 2 → s.importEntry c.part e.toNat = .ok (id, trapAq) →
      ∃ t, exec (.mapinv u e) s = .next t ∧
        WentWith [] (fun p => { p with cache := p.cache.filter fun x => x.1 ≠ id }) s t u.val 2 2 ∧ kept t ∧ PlainKept s t u.val []) ∧
    (Ready s u.val 2 2 → s.cfg.staging = true →
      ∃ t, exec (.stPgm u d a imm) s = .next t ∧ Went s t u.val 2 2 ∧ kept t ∧ PlainKept s t u.val []) ∧
    (Ready s u.val 2 2 → s.cfg.staging = false → bank ≠ s.actBank c.part → s.inPgm c.part i = true →
      ∃ t, exec (.stPgm u d a imm) s = .next t ∧ WentWith [.mem] id s t u.val 2 2 ∧ kept t ∧ PlainKept s t u.val [] ∧
        { t.mem with pgm := s.mem.pgm } = s.mem ∧
        (∀ z ∈ copies, Mem.w32 t.mem.pgm z = s.readP u.val d.val) ∧
        (∀ x, (∀ z ∈ copies, x < z ∨ z + 4 ≤ x) → Mem.byte t.mem.pgm x = Mem.byte s.mem.pgm x))

/-- Illegal forms answer as the illegal opcode, and an illegal word spells no instruction. derived: R107, R108, R113,
R118, R123, R124, R125, R128, R143, R552, spec/05_sextant_instruction_set.md. -/
def Obligations.IllegalForms : Prop :=
  ∀ (s : State) (u : Fin 8) (d a b : Fin 32) (p q : Fin 16) (k : BitVec 8) (i : BitVec 10) (bad early : Bool),
    let c := s.core u.val
    let ill := fun x : Instr => exec x s = exec (.illegalOpcode u) s
    ill (.cadd u d a b 3) ∧ ill (.csub u d a b 3) ∧ ill (.cmulk u d a k 3) ∧ ill (.ccmp u d a b 6) ∧ ill (.ccmp u d a b 7) ∧
    ill (.mfs u p 6) ∧ ill (.mfs u p 7) ∧
    (∀ o : BitVec 16, o = 0 ∨ s.inPgm c.part (c.pc + o.toNat) = false → ill (.br u o)) ∧
    (∀ (cc : BitVec 5) (o : BitVec 12), o = 0 ∨ 6 ≤ cc.toNat ∨ s.inPgm c.part (c.pc + o.toNat) = false → ill (.bcc u cc p q o)) ∧
    (∀ n l : BitVec 8, n = 0 ∨ l = 0 ∨ flagInLoop c.ctx.flags = true ∨ s.inPgm c.part (c.pc + l.toNat) = false →
      ill (.loop u p n l)) ∧
    (s.runsSafe u.val = true → ∀ (e : BitVec 12) (env : LoadEnv), ill (.ldsX u d p e env)) ∧
    (30 ≤ a.val ∨ 30 ≤ d.val → ill (.fbEstop u d a i bad) ∧ ill (.fbGuard u d a i bad)) ∧
    (24 ≤ a.val ∨ 29 ≤ d.val → ill (.fbGroup u d a i bad early)) ∧
    (s.runsSafe u.val = false → ill (.fbSout u d a i bad) ∧ ill (.fbGroup u d a i bad early) ∧
      ∀ x : BitVec 9, x.toNat < s.winHdr c.part 16 → natBit (Mem.w32 s.mem.img (s.expAt c.part x.toNat)).toNat 10 = true →
        ill (.sts u a x)) ∧
    ∀ (env : FetchEnv) (w : Word),
      let none' := sextant u env w = none
      let op := w.toNat / 67108864
      (op ∈ [0, 6, 7, 0x1B, 0x1D, 0x1E, 0x1F, 0x25, 0x26, 0x27, 0x3E, 0x3F] → none') ∧
      (op = 0x28 → w.getLsbD 25 = true ∨ w.getLsbD 20 = true ∨ w.getLsbD 15 = true ∨ w.toNat % 2048 ≠ 0 → none') ∧
      (op = 0x20 → w.toNat / 65536 % 1024 ≠ 0 ∨ w.toNat % 65536 = 0 → none') ∧
      (op = 1 → w.toNat / 4096 % 16 ≠ 0 → none') ∧
      (op = 0x1C → w.toNat / 1024 % 64 = 0 ∨ 19 ≤ w.toNat / 1024 % 64 → none') ∧
      (∀ e : BitVec 12, w.toNat = 0x04000000 + 2097152 * d.val + e.toNat → sextant u env w = some (.lds u d e env.load)) ∧
      (∀ m : BitVec 2, m ≠ 3 → w.toNat = 0x20000000 + 2097152 * d.val + 65536 * a.val + 2048 * b.val + m.toNat →
        sextant u env w = some (.cadd u d a b m)) ∧
      (∀ x : Fin 16, w.toNat = 0xA0000000 + 2097152 * p.val + 65536 * q.val + 2048 * x.val → sextant u env w = some (.add u p q x)) ∧
      (∀ (cc : BitVec 5) (o : BitVec 12), cc.toNat < 6 → o ≠ 0 →
        w.toNat = 0x84000000 + 2097152 * cc.toNat + 65536 * p.val + 4096 * q.val + o.toNat → sextant u env w = some (.bcc u cc p q o)) ∧
      (∀ n l : BitVec 8, n ≠ 0 → l ≠ 0 → w.toNat = 0x88000000 + 65536 * p.val + 256 * n.toNat + l.toNat →
        sextant u env w = some (.loop u p n l)) ∧
      (∀ f : Bool, w.toNat = 0x8C000000 + (if f = true then 1 else 0) → sextant u env w = some (.endSlot u f env.endMain env.endChk))

/-- A slot that traps or is cut ends with nothing staged and its partition's trap reaction. derived: R92, R93, R130,
R141, R552, spec/04_evaluation_engine.md, spec/05_sextant_instruction_set.md. -/
def Obligations.SlotTraps : Prop :=
  ∀ (s : State) (u : Fin 8) (k : BitVec 2),
    let c := s.core u.val
    (s.canRun u.val = true → c.cyc + 1 < c.budget → c.part < 16 →
      ∃ t, exec (.illegalOpcode u) s = .next t ∧ Trapped s t u.val (96 + 24 * pairOf u.val + 9)) ∧
    (Ready s u.val 2 0 → c.part < 16 →
      ∃ t, exec (.trap u k) s = .next t ∧ Trapped s t u.val (960 + 4 * c.part + k.toNat)) ∧
    (c.inSlot = true → c.part < 16 →
      ∃ t, exec (.slotOverrun u) s = .next t ∧ Trapped s t u.val (96 + 24 * pairOf u.val + 4))

/-- The contact blocks ESTOP, PULLWIRE, GUARD, GLOCK and LCURT complete. derived: R122, R196, R199, R209, R214, R215,
R216, spec/05_sextant_instruction_set.md, spec/08_safety_functions.md. -/
def Obligations.FbContactBlocks : Prop :=
  ∀ (s : State) (u : Fin 8) (d a : Fin 32) (i : BitVec 10),
    let r := fbRec (s.fbNow u.val i.toNat)
    (∀ ins, FbReady s u.val d.val a.val i.toNat 1 3 3 (fun _ _ => true) ins →
      ∃ t, exec (.fbEstop u d a i false) s = .next t ∧ FbDone s t u.val d.val i.toNat (evalEstop r (s.fbEnv u.val i.toNat ins))) ∧
    (∀ ins, FbReady s u.val d.val a.val i.toNat 2 4 4 (fun r k => k < 3 || r.opt8) ins →
      ∃ t, exec (.fbPullwire u d a i false) s = .next t ∧ FbDone s t u.val d.val i.toNat (evalPullwire r (s.fbEnv u.val i.toNat ins))) ∧
    (∀ ins, FbReady s u.val d.val a.val i.toNat 3 3 3 (fun _ _ => true) ins →
      ∃ t, exec (.fbGuard u d a i false) s = .next t ∧ FbDone s t u.val d.val i.toNat (evalEstop r (s.fbEnv u.val i.toNat ins))) ∧
    (∀ ins, FbReady s u.val d.val a.val i.toNat 4 6 4 (fun r k => k ≠ 4 || r.opt8) ins →
      ∃ t, exec (.fbGlock u d a i false) s = .next t ∧ FbDone s t u.val d.val i.toNat (evalGlock r (s.fbEnv u.val i.toNat ins))) ∧
    (∀ ins, FbReady s u.val d.val a.val i.toNat 5 4 3 (fun r k => k < 3 || r.opt8) ins →
      ∃ t, exec (.fbLcurt u d a i false) s = .next t ∧ FbDone s t u.val d.val i.toNat (evalLcurt r (s.fbEnv u.val i.toNat ins)))

/-- The other function blocks complete. derived: R122, R196, R199, R143, R217, R220, R224, R227,
spec/05_sextant_instruction_set.md, spec/08_safety_functions.md. -/
def Obligations.FbOtherBlocks : Prop :=
  ∀ (s : State) (u : Fin 8) (d a : Fin 32) (i : BitVec 10),
    let r := fbRec (s.fbNow u.val i.toNat)
    (∀ ins, FbReady s u.val d.val a.val i.toNat 6 5 2 (fun r k => k < 2 || (k < 4 && r.opt8) || (k = 4 && r.opt9)) ins →
      ∃ t, exec (.fbMute u d a i false) s = .next t ∧ FbDone s t u.val d.val i.toNat (evalMute r (s.fbEnv u.val i.toNat ins))) ∧
    (∀ ins, FbReady s u.val d.val a.val i.toNat 7 2 2 (fun _ _ => true) ins →
      ∃ t, exec (.fbEnable u d a i false) s = .next t ∧ FbDone s t u.val d.val i.toNat (evalEnable r (s.fbEnv u.val i.toNat ins))) ∧
    (∀ ins, FbReady s u.val d.val a.val i.toNat 8 8 2 (fun r k => k < r.w0) ins →
      ∃ t, exec (.fbModesel u d a i false) s = .next t ∧ FbDone s t u.val d.val i.toNat (evalModesel r (s.fbEnv u.val i.toNat ins))) ∧
    (∀ ins, FbReady s u.val d.val a.val i.toNat 9 4 2 (fun r k => k % 2 = 0 || r.opt8) ins →
      ∃ t, exec (.fbTwohand u d a i false) s = .next t ∧ FbDone s t u.val d.val i.toNat (evalTwohand r (s.fbEnv u.val i.toNat ins))) ∧
    (∀ ins, FbReady s u.val d.val a.val i.toNat 10 2 2 (fun _ _ => true) ins →
      ∃ t, exec (.fbReset u d a i false) s = .next t ∧ FbDone s t u.val d.val i.toNat (evalReset r (s.fbEnv u.val i.toNat ins))) ∧
    (∀ ins, FbReady s u.val d.val a.val i.toNat 11 4 3 (fun r k => k ≠ 2 || r.opt8) ins →
      ∃ t, exec (.fbEdm u d a i false) s = .next t ∧ FbDone s t u.val d.val i.toNat (evalEdm r (s.fbEnv u.val i.toNat ins))) ∧
    (∀ ins, FbReady s u.val d.val a.val i.toNat 12 3 4 (fun _ _ => true) ins →
      ∃ t, exec (.fbSpeed u d a i false) s = .next t ∧ FbDone s t u.val d.val i.toNat (evalSpeed r (s.fbEnv u.val i.toNat ins))) ∧
    (∀ ins, FbReady s u.val d.val a.val i.toNat 13 3 3 (fun _ _ => true) ins →
      ∃ t, exec (.fbFan u d a i false) s = .next t ∧ FbDone s t u.val d.val i.toNat (evalFan r (s.fbEnv u.val i.toNat ins))) ∧
    (∀ ins, FbReady s u.val d.val a.val i.toNat 14 4 4 (fun _ _ => true) ins →
      ∃ t, exec (.fbZone u d a i false) s = .next t ∧ FbDone s t u.val d.val i.toNat (evalZone r (s.fbEnv u.val i.toNat ins))) ∧
    (∀ ins, FbReady s u.val d.val a.val i.toNat 15 2 3 (fun _ _ => true) ins →
      ∃ t, exec (.fbAilim u d a i false) s = .next t ∧ FbDone s t u.val d.val i.toNat (evalAilim r (s.fbEnv u.val i.toNat ins))) ∧
    (∀ ins, FbReady s u.val d.val a.val i.toNat 16 2 2 (fun _ _ => true) ins →
      ∃ t, exec (.fbSeq u d a i false) s = .next t ∧ FbDone s t u.val d.val i.toNat (evalSeq r (s.fbEnv u.val i.toNat ins))) ∧
    (∀ ins, FbReady s u.val d.val a.val i.toNat 17 1 3 (fun _ _ => true) ins →
      ∃ t, exec (.fbSout u d a i false) s = .next t ∧ FbDone s t u.val d.val i.toNat (evalSout r (s.fbEnv u.val i.toNat ins))) ∧
    (∀ ins early, FbReady s u.val d.val a.val i.toNat 18 9 4 (fun r k => k = 0 || (k = 1 && !r.opt8) || (2 ≤ k && k < r.w0 + 1)) ins →
      ∃ t, exec (.fbGroup u d a i false early) s = .next t ∧ FbDone s t u.val d.val i.toNat
        (evalGroup early (s.groupReadBack (s.core u.val).part i.toNat) r (s.fbEnv u.val i.toNat ins)))

/-- ESTOP and GUARD permit only through the machine of R209. derived: R202, R203, R204, R206, R208, R209,
spec/08_safety_functions.md. -/
def Obligations.ContactPermit : Prop :=
  (∀ (r : FbRec) (e : FbEnv),
    let o := evalEstop r e
    let h := healthA e = true ∧ healthB r e = true
    let valid := (rstStep r (e.inp 2) e.t e.cmd).valid = true
    (∀ q, o.outs[0]? = some (1, q) → o.r.st = 4) ∧
    (o.r.st = 4 → h ∧ e.faulted = false ∧
      (r.st = 4 ∨ (r.st = 3 ∧ valid) ∨ (r.st = 2 ∧ r.bothSeen = true ∧ r.mreset = false) ∨ (r.st = 0 ∧ r.sut = false ∧ r.mreset = false))) ∧
    (e.faulted = true → r.st ≠ 5 → o.r.st = 5 ∧ o.r.diag = 6 ∧ o.r.loCnt = min (r.loCnt + 1) 65535) ∧
    (r.st = 5 → o.r.st ≠ 5 → valid ∧ h ∧ e.faulted = false ∧ o.r.st = 2 ∧ o.r.bothSeen = false)) ∧
  ∀ (r : FbRec) (x : FbIn) (t : Nat) (cmd : Bool), (rstStep r x t cmd).valid = true →
    cmd = true ∨ (r.rstHeld = true ∧ r.rstStuck = false ∧ inOn x = false ∧ inAcc r x = true ∧
      1000 ≤ (t / 10000 % 65536 + 65536 - r.rstT) % 65536 ∧ (t / 10000 % 65536 + 65536 - r.rstT) % 65536 ≤ 50000)

/-- A slot starts with its partition's context at ENTRY; a pair that cannot run it skips it. derived: R88, R90, R91,
R94, R99, R104, R120, R131, R176, spec/04_evaluation_engine.md, spec/05_sextant_instruction_set.md,
spec/07_coelostat_lockstep.md. -/
def Obligations.SlotStart : Prop :=
  ∀ (s : State) (n : Fin 4) (e : Fin 64) (ecc : EccFind),
    let p := s.sePart n.val e.val
    let u := s.coreFor n.val p
    let m := s.sf % 2 ^ s.mfLog2
    let seq := s.fld (rPair_SE_W0 n.val e.val) 20 2
    let tick := s.sf * 6250 + s.seStart n.val e.val
    let kept := fun t : State => Keeps (only [.regs, .mem, .host, .eng, .flt, .log, .mer, .fab, .net]) s t
    (ecc ≠ .uncorrectable ∨ s.seValid n.val e.val = false →
      s.seRuns n.val e.val = false ∨ s.seTaken n.val e.val = true ∨ tick < s.now → exec (.slotStart n e ecc) s = .next s) ∧
    (s.seValid n.val e.val = true →
      ∃ t, exec (.slotStart n e .uncorrectable) s = .next t ∧ Keeps (only [.eng, .flt, .regs]) s t ∧ t.seValid n.val e.val = false ∧
        t.eng.cores = s.eng.cores ∧ (t.det (96 + 24 * n.val + 15)).held = true) ∧
    (ecc ≠ .uncorrectable → s.seRuns n.val e.val = true → s.seTaken n.val e.val = false → s.now ≤ tick → s.seStart n.val e.val < 6250 →
    s.now + 6250 < 2 ^ 64 →
      ((s.core u).inSlot = true →
        ∃ t, exec (.slotStart n e ecc) s = .next t ∧ kept t ∧ t.now = tick ∧ t.seTaken n.val e.val = true ∧
          (t.det (96 + 24 * n.val + if (s.core u).reexec = true then 2 else 4)).held = true) ∧
      ((s.core u).inSlot = false →
        (s.ptLive p = false →
          ∃ t, exec (.slotStart n e ecc) s = .next t ∧ Keeps (only [.eng, .mer]) s t ∧ t.now = tick ∧ t.seTaken n.val e.val = true ∧
            t.eng.cores = s.eng.cores) ∧
        (s.ptLive p = true → s.pairCan n.val p = true → s.winOk p = true →
          ∃ t, exec (.slotStart n e ecc) s = .next t ∧ Keeps (only [.eng, .mer, .regs]) s t ∧ t.now = tick ∧
            t.core u = { CoreSt.reset with
              inSlot := true
              part := p
              seq := seq
              entry := e.val
              pc := s.fld (rPair_SE_W3 n.val e.val) 0 17
              slot := seq + 256 * (m % 256)
              ctx := { (s.part p).ctx with flags := flagsStart (s.part p).first (s.part p).takeover }
              budget := s.fld (rPair_SE_W2 n.val e.val) 0 16
              stime := tick
              ssf := s.sf } ∧
            (∀ v, v ≠ u → t.core v = s.core v) ∧ { t.eng with cores := s.eng.cores, pairs := s.eng.pairs } = s.eng ∧
            t.seTaken n.val e.val = true) ∧
        (s.ptLive p = true → s.pairCan n.val p = true → s.winOk p = false →
          ∃ t, exec (.slotStart n e ecc) s = .next t ∧ kept t ∧ t.now = tick ∧ (t.core u).inSlot = false ∧
            (t.det (96 + 24 * n.val + 11)).held = true ∧ Reacted s t p) ∧
        (s.ptLive p = true → s.pairCan n.val p = false →
          ∃ t, exec (.slotStart n e ecc) s = .next t ∧ kept t ∧ t.now = tick ∧ (t.core u).inSlot = false ∧
            (t.det (96 + 24 * n.val + 5)).held = true ∧
            (s.ptSafe p = true → Reacted s t p) ∧ (s.ptSafe p = false → t.ptMode p = s.ptMode p))))

/-- END saves the context, writes the checkpoint and makes the stores visible. derived: R9, R92, R104, R116, R126,
R164, R165, R172, R177, spec/01_architecture.md, spec/04_evaluation_engine.md, spec/05_sextant_instruction_set.md. -/
def Obligations.SlotEnds : Prop :=
  ∀ (s : State) (u : Fin 8) (f : Bool) (a b : BitVec 64),
    let c := s.core u.val
    let p := c.part
    let n := pairOf u.val
    let gen := ((s.part p).gen + 1) % 4294967296
    let swap := c.swapReq || (s.part p).swapPend
    s.canRun u.val = true → s.inPgm p c.pc = true → p < 16 → c.cyc + cycles s.dev.grade 2 2 ≤ c.budget →
    ((s.cmode n ≠ 1 ∨ misrStep c.misr a = misrStep c.misrChk b) →
      ∃ t, exec (.endSlot u f a b) s = .next t ∧ Keeps (only [.regs, .mem, .host, .eng, .flt, .log, .mer, .fab, .net]) s t ∧
        (t.core u.val).inSlot = false ∧ (t.core u.val).staged = [] ∧
        (t.part p).ctx = c.ctx ∧ (t.part p).first = false ∧ (t.part p).takeover = false ∧ (t.part p).gen = gen ∧
        (t.part p).swapPend = swap ∧ t.bit (rPart_PT_MODE p) 3 = f ∧
        Mem.bytes t.mem.eph (ephAt p (gen % 2)) 1024 = ctxRecord p (gen % 2) gen c.stime c.ssf c.ctx f swap ∧
        Mem.bytes t.mem.eph (ephAt p ((gen + 1) % 2)) 1024 = Mem.bytes s.mem.eph (ephAt p ((gen + 1) % 2)) 1024 ∧
        (∀ idx w, c.staged = [.store idx w] → s.suspendedAt p = false → s.forced idx = false → s.dbgFault p = false →
          (s.pair n).dbgPend = false → Mem.w64 t.mem.img (8 * idx) = w)) ∧
    (s.cmode n = 1 → misrStep c.misr a ≠ misrStep c.misrChk b →
      ∃ t, exec (.endSlot u f a b) s = .next t ∧ Keeps (only [.regs, .mem, .host, .eng, .flt, .log, .mer, .fab, .net]) s t ∧ (t.core u.val).inSlot = false ∧ (t.core u.val).staged = [] ∧
        (c.reexec = false → (s.pair n).dbgPend = false → t.mem = s.mem ∧ (t.pair n).verifyBad = true ∧ t.ptMode p = s.ptMode p) ∧
        (c.reexec = true → (t.det (96 + 24 * n + 1)).held = true ∧ Reacted s t p))

/-- A lockstep mismatch restores the slot from Ephemeris and runs it again in loose mode. derived: R93, R163, R173,
R174, R175, R177, R179, R194, spec/04_evaluation_engine.md, spec/07_coelostat_lockstep.md. -/
def Obligations.MismatchRecovery : Prop :=
  ∀ (s : State) (n : Fin 4) (site : Fin 8) (ecc : EccFind),
    let u := 2 * n.val
    let c := s.core u
    let src := fun k => 96 + 24 * n.val + k
    (s.cmode n.val ≠ 0 → s.cmode n.val ≠ 5 → exec (.lockstepMismatch n site ecc) s = .next s) ∧
    ((s.cmode n.val = 0 ∨ s.cmode n.val = 5) →
      (∀ h, c.inSlot = true → s.ephPick c.part = some h → ecc ≠ .uncorrectable →
        ∃ t, exec (.lockstepMismatch n site ecc) s = .next t ∧ Keeps (only [.eng, .flt, .regs]) s t ∧
          t.core u = { c with
            staged := []
            swapReq := false
            swapStaged := false
            reexec := true
            detected := s.now
            cyc := 0
            misr := misrInit
            misrChk := misrInit
            pc := s.fld (rPair_SE_W3 n.val c.entry) 0 17
            ctx := { s.ephCtx c.part h with flags := flagsStart (s.part c.part).first (s.part c.part).takeover } } ∧
          t.cmode n.val = 1 ∧ (t.pair n.val).cache = [] ∧ (t.det (src 0)).held = true ∧ Counted s t (rPair_MM_CNT n.val)) ∧
      (c.inSlot = true → c.part < 16 → s.ephPick c.part = none ∨ ecc = .uncorrectable →
        ∃ t, exec (.lockstepMismatch n site ecc) s = .next t ∧ Keeps (only [.regs, .mem, .host, .eng, .flt, .log, .mer, .fab, .net]) s t ∧
          (t.core u).inSlot = false ∧ (t.core u).staged = [] ∧ (t.det (src 0)).held = true ∧ (t.det (src 1)).held = true ∧
          (t.det 202).held = true ∧ (ecc = .uncorrectable → (t.det 201).held = true) ∧ Reacted s t c.part ∧
          Counted s t (rPair_MM_CNT n.val)) ∧
      (c.inSlot = false →
        ∃ t, exec (.lockstepMismatch n site ecc) s = .next t ∧ Keeps (only [.eng, .flt, .regs]) s t ∧ t.eng.cores = s.eng.cores ∧
          (t.pair n.val).cache = [] ∧ (t.det (src 3)).held = true ∧ Counted s t (rPair_MM_CNT n.val)))

/-- The scrubs correct, repair and report. derived: R83, R93, R152, R174, R551, R71, spec/04_evaluation_engine.md,
spec/06_signal_map.md, spec/07_coelostat_lockstep.md, spec/03_coded_signals.md. -/
def Obligations.Scrubs : Prop :=
  (∀ (s : State) (n : Fin 4) (bank : Bool) (i : BitVec 17) (main chk : EccFind),
    let a := fun u : Nat => pgmAt u (b2n bank) i.toNat
    let m := 2 * n.val
    let bad := fun t : State => (t.det (96 + 24 * n.val + 14)).held = true ∧
      (main = .corrected ∨ chk = .corrected → (t.det (96 + 24 * n.val + 13)).held = true)
    let mended := fun (t : State) (x y : Nat) => bad t ∧ Keeps (only [.flt, .regs, .mem]) s t ∧ { t.mem with pgm := s.mem.pgm } = s.mem ∧
      Mem.w32 t.mem.pgm (a x) = Mem.w32 s.mem.pgm (a y) ∧ ∀ z, z < a x ∨ a x + 4 ≤ z → Mem.byte t.mem.pgm z = Mem.byte s.mem.pgm z
    ((s.core m).inSlot = true ∨ (s.core (m + 1)).inSlot = true → exec (.pgmScrub n bank i main chk) s = .next s) ∧
    ((s.core m).inSlot = false → (s.core (m + 1)).inSlot = false →
      exec (.pgmScrub n bank i .clean .clean) s = .next s ∧
      (main ≠ .uncorrectable → chk ≠ .uncorrectable → main = .corrected ∨ chk = .corrected →
        ∃ t, exec (.pgmScrub n bank i main chk) s = .next t ∧ (t.det (96 + 24 * n.val + 13)).held = true ∧ Keeps (only [.flt, .regs]) s t) ∧
      (main = .uncorrectable → chk ≠ .uncorrectable → ∃ t, exec (.pgmScrub n bank i main chk) s = .next t ∧ mended t m (m + 1)) ∧
      (main ≠ .uncorrectable → chk = .uncorrectable → ∃ t, exec (.pgmScrub n bank i main chk) s = .next t ∧ mended t (m + 1) m) ∧
      ∃ t, exec (.pgmScrub n bank i .uncorrectable .uncorrectable) s = .next t ∧ (t.det (96 + 24 * n.val + 14)).held = true ∧
        t.mem.pgm = s.mem.pgm ∧ ∀ p ∈ s.pgmOwners n.val i.toNat, (t.part p).pgmBad = true ∧ Reacted s t p)) ∧
  (∀ (s : State) (i : BitVec 18),
    let off := 8 * i.toNat
    exec (.mapScrub i .clean) s = .next s ∧
    (∃ t, exec (.mapScrub i .corrected) s = .next t ∧ (t.det 197).held = true ∧ Counted s t rMap_ECC_CORR ∧ Keeps (only [.flt, .regs]) s t) ∧
    (inMapRegion off = false →
      ∃ t, exec (.mapScrub i .uncorrectable) s = .next t ∧ off ∈ t.eng.imgBad ∧ Keeps (only [.eng]) s t) ∧
    (inMapRegion off = true →
      (∃ t, exec (.mapScrub i .uncorrectable) s = .next t ∧ off ∈ t.eng.imgBad ∧ off ∈ t.eng.mapRep ∧ Keeps (only [.eng, .flt, .regs]) s t ∧
        (off ∉ s.eng.mapRep → (t.det 193).held = true) ∧ (off ∈ s.eng.mapRep → t.flt = s.flt)))) ∧
  (∀ (s : State) (i : BitVec 19),
    let off := 8 * i.toNat
    exec (.ephScrub i .clean) s = .next s ∧
    (∃ t, exec (.ephScrub i .corrected) s = .next t ∧ (t.det 200).held = true ∧ Counted s t rEph_ECC_CORR ∧ Keeps (only [.flt, .regs]) s t) ∧
    (∃ t, exec (.ephScrub i .uncorrectable) s = .next t ∧ off ∈ t.eng.ephBad ∧ off ∈ t.eng.ephRep ∧ Keeps (only [.eng, .flt, .regs]) s t ∧
      (off ∉ s.eng.ephRep → (t.det 201).held = true) ∧ (off ∈ s.eng.ephRep → t.flt = s.flt))) ∧
  ∀ (s : State) (i : Fin 17920),
    let old := s.sf - Tab.get (fun _ => 0) s.eng.lastWr (8 * i.val)
    let same := exec (.stalenessSweep i) s = .next s
    let swept := fun a id : Nat =>
      (8192 ≤ old → ∃ t, exec (.stalenessSweep i) s = .next t ∧ Keeps (only [.eng, .mem]) s t ∧ { t.mem with img := s.mem.img } = s.mem ∧
        Mem.w64 t.mem.img (8 * i.val) = mkCsw a id 0 s.sf .stale ∧
        ∀ x, x < 8 * i.val ∨ 8 * i.val + 8 ≤ x → Mem.byte t.mem.img x = Mem.byte s.mem.img x) ∧ (old < 8192 → same)
    let fabric := ((List.range (s.fabCount 0)).map (s.fabEntry 0)).find? fun v => feValid v && feSlot v = i.val - 512
    let frames := ((List.range (Tab.get (fun _ => 0) s.net.tblCnt 0)).map s.safeEntry).find? fun v =>
      natBit v 44 && natBits v 34 10 = i.val - 0x4200
    (i.val < 512 → (s.hasWriter i.val = true → swept (s.localA i.val) (s.selfId i.val)) ∧ (s.hasWriter i.val = false → same)) ∧
    (512 ≤ i.val → i.val < 0x4200 → (∀ v, fabric = some v → swept aT (feId v)) ∧ (fabric = none → same)) ∧
    (0x4200 ≤ i.val → (∀ v, frames = some v → swept aT (natBits v 0 21)) ∧ (frames = none → same))

/-- Superframe and major-frame boundaries fall at their multiples of Meridian. derived: R86, R87, R96, R430, R445,
R472, R153, spec/04_evaluation_engine.md, spec/16_partitions_configuration.md, spec/17_fault_handling.md,
spec/06_signal_map.md. -/
def Obligations.Boundaries : Prop :=
  ∀ s : State,
    (s.frames = false → exec .superframeBoundary s = .next s ∧ exec .majorFrameBoundary s = .next s ∧ exec .setSwitchTime s = .next s) ∧
    (s.frames = true → s.now + 6250 < 2 ^ 64 →
      ∃ t, exec .superframeBoundary s = .next t ∧ t.now = s.boundaryAt 6250 s.eng.lastSf ∧ t.now % 6250 = 0 ∧ s.now ≤ t.now ∧
        t.now ≤ s.now + 6250 ∧ ∀ p < 16, (t.part p).cmd = none) ∧
    (s.frames = true → s.now + s.majorTicks < 2 ^ 64 → s.dev.dormPend = false →
      ∃ t, exec .majorFrameBoundary s = .next t ∧ t.now = s.boundaryAt s.majorTicks s.eng.lastMf ∧ t.now % s.majorTicks = 0 ∧
        s.now ≤ t.now ∧ t.now ≤ s.now + s.majorTicks ∧ ∀ n < 4, (t.pair n).cache = []) ∧
    (s.cfg.switchT = none → exec .setSwitchTime s = .next s) ∧
    (∀ T, s.frames = true → s.cfg.switchT = some T → s.now ≤ T → T < 2 ^ 64 → s.dev.dormPend = false →
      ∃ t, exec .setSwitchTime s = .next t ∧ t.now = T ∧ ∀ n < 4, (t.pair n).cache = []) ∧
    (∀ m : Master, s.asleep rFlt0_FLT_CTRL = false → s.mayWrite m rFlt0_FLT_CTRL (s.holdsMA m) = true → s.holdsMA m = true →
      let planes := (List.range 2).filter fun k => s.fabOn && s.planeOn k
      let quorum := planes = [] ∨ ∃ k ∈ planes, s.bit rFab_FAB_STAT (9 + k) = true
      let code := if s.dev.mode ≠ .harebell then 7 else if s.degradeLive = true then 3
        else if ¬ quorum then 4 else if s.vern.margin = 0 then 5 else 1
      ∃ t, exec (.resume m) s = .next t ∧ Keeps (only [.regs, .host, .flt, .cfg]) s t ∧
        t.flt.resumePend = (s.flt.resumePend || decide (code = 1)) ∧ (t.rd rFlt0_RESUME_RES).toNat = code) ∧
    (∀ m : Master, s.asleep rFlt0_FLT_CTRL = false → s.holdsMA m = false →
      ∃ t, exec (.resume m) s = .next t ∧ t.flt.resumePend = s.flt.resumePend ∧ (t.rd rFlt0_RESUME_RES).toNat = 6)

/-- The MAP page's commands: READ, WRITE, a reserved OP, a cache query and INV_ALL. derived: R34, R154, R155, R156,
R159, spec/02_register_model_host.md, spec/06_signal_map.md. -/
def Obligations.MapCommands : Prop :=
  ∀ (s : State) (m : Master),
    let id := s.fld rMap_DE_ID 0 21
    let d := setBits (BitVec.ofNat 64 ((s.rd rMap_DE_LO).toNat + 2 ^ 32 * ((s.rd rMap_DE_HI).toNat % 2 ^ 24)) : Csw) 46 8 0
    (Admitted s m rMap_DE_CMD (s.privAt m rMap_DE_CMD) →
      (∀ a, s.descAt id = some a →
        ∃ t, exec (.mapDeRead m) s = .next t ∧ Keeps (only [.regs, .host, .cfg]) s t ∧ t.rd64 rMap_DE_LO = (s.imgRd a).toNat ∧
          (t.rd rMap_DE_RESULT).toNat = 256 * dGen (s.imgRd a)) ∧
      (s.descAt id = none → ∃ t, exec (.mapDeRead m) s = .next t ∧ Keeps (only [.regs, .host, .cfg]) s t ∧ (t.rd rMap_DE_RESULT).toNat = 2) ∧
      (∀ three, ∃ t, exec (.mapDeReservedOp m three) s = .next t ∧ Keeps (only [.regs, .host, .cfg]) s t ∧ t.fld rMap_DE_RESULT 0 3 = 3) ∧
      (∀ inv,
        let gate := (s.lcProvDep && (s.modeIs .operate || s.modeIs .harebell)) = true
        let d0 : Csw := BitVec.ofNat 64 ((s.rd rMap_DE_LO).toNat + 2 ^ 32 * ((s.rd rMap_DE_HI).toNat % 2 ^ 24))
        let refused := fun t : State => t.mem.img = s.mem.img ∧ t.cfg.queue = s.cfg.queue ∧ (t.det 199).held = true
        (gate → s.editBusy = false → s.editCode id d = none →
          ∃ t, exec (.mapDeWrite m inv) s = .next t ∧ Keeps (only [.regs, .mem, .host, .flt, .cfg]) s t ∧ t.mem = s.mem ∧ t.eng = s.eng ∧
            t.cfg.queue.map (·.2) = s.cfg.queue.map (·.2) ++ [.mapEdit id d0 inv]) ∧
        (gate → ∀ c, (if s.editBusy = true then some 5 else s.editCode id d) = some c →
          ∃ t, exec (.mapDeWrite m inv) s = .next t ∧ Keeps (only [.regs, .mem, .host, .flt, .cfg]) s t ∧ refused t ∧ (t.rd rMap_DE_RESULT).toNat % 256 = c) ∧
        (¬ gate → ∃ t, exec (.mapDeWrite m inv) s = .next t ∧ Keeps (only [.regs, .mem, .host, .flt, .cfg]) s t ∧ refused t ∧ t.rd rMap_DE_RESULT = s.rd rMap_DE_RESULT))) ∧
    (∀ body e d0 inv rest a, s.cfg.queue = (body, .mapEdit e d0 inv) :: rest → s.descAt e = some a → s.editCode e (setBits d0 46 8 0) = none →
      let g := (dGen (s.imgRd a) + 1) % 256
      ∃ t, exec (.clogWriteDone true) s = .next t ∧ Keeps (only [.dev, .regs, .mem, .host, .eng, .flt, .log, .cfg, .mer, .field, .fab, .net, .ngl, .free]) s t ∧ t.imgRd a = dSeal (setBits d0 46 8 g) e ∧
        (∀ x, x < a ∨ a + 8 ≤ x → Mem.byte t.mem.img x = Mem.byte s.mem.img x) ∧ (t.rd rMap_DE_RESULT).toNat = 256 * g ∧
        (inv = true → ∀ n < 4, (t.pair n).cache.find? (fun z => z.1 = e) = none)) ∧
    (Admitted s m rMap_CQ_ID (s.privAt m rMap_CQ_ID) → ∀ v : BitVec 32,
      ∃ t, exec (.mapCqQuery m v) s = .next t ∧ Keeps (only [.regs, .host, .flt, .cfg]) s t ∧ (t.rd rMap_CQ_ID).toNat = v.toNat % 2 ^ 21 ∧
        ∀ n < 4, (t.rd (rMap_CQ_PAIR n)).toNat = match (s.pair n).cache.find? (fun z => z.1 = v.toNat % 2 ^ 21) with
          | some (_, e) => 1 + 256 * dGen e
          | none => 0) ∧
    (Admitted s m rMap_INV_ALL (s.privAt m rMap_INV_ALL) →
      ∃ t, exec (.mapInvAll m) s = .next t ∧ Keeps (only [.regs, .host, .eng, .flt, .cfg]) s t ∧ ∀ n < 4, (t.pair n).cache = [])

/-- Split and rejoin requests, and the load of a rejoining checker. derived: R34, R185, R187, R188,
spec/02_register_model_host.md, spec/07_coelostat_lockstep.md. -/
def Obligations.SplitAndRejoin : Prop :=
  ∀ (s : State) (n : Fin 4),
    (∀ m, Admitted s m (rPair_SPLIT_CTRL n.val) (s.holdsAdmin m) →
      (s.splitRefused n.val = false → ∃ t, exec (.pairSplitReq m n) s = .next t ∧ Keeps (only [.regs, .host, .eng, .flt, .cfg]) s t ∧
        (t.pair n.val).splitReq = true ∧ t.bit (rPair_SPLIT_CTRL n.val) 0 = true ∧ t.bit (rPair_SPLIT_CTRL n.val) 4 = false) ∧
      (s.splitRefused n.val = true → ∃ t, exec (.pairSplitReq m n) s = .next t ∧ Keeps (only [.regs, .host, .eng, .flt, .cfg]) s t ∧
        (t.pair n.val).splitReq = (s.pair n.val).splitReq ∧ t.bit (rPair_SPLIT_CTRL n.val) 4 = true ∧ (t.det (96 + 24 * n.val + 17)).held = true) ∧
      (s.rejoinRefused n.val = false → ∃ t, exec (.pairRejoinReq m n) s = .next t ∧ Keeps (only [.regs, .host, .eng, .flt, .cfg]) s t ∧
        (t.pair n.val).rejoinReq = true ∧ t.bit (rPair_SPLIT_CTRL n.val) 1 = true ∧ t.bit (rPair_SPLIT_CTRL n.val) 4 = false) ∧
      (s.rejoinRefused n.val = true → ∃ t, exec (.pairRejoinReq m n) s = .next t ∧ Keeps (only [.regs, .host, .eng, .flt, .cfg]) s t ∧
        (t.pair n.val).rejoinReq = (s.pair n.val).rejoinReq ∧ t.bit (rPair_SPLIT_CTRL n.val) 4 = true ∧ (t.det (96 + 24 * n.val + 17)).held = true)) ∧
    (s.splitRefused n.val = true ↔ s.cfg.staging = true ∨ ∃ e < 64, s.bit (rPair_SE_W0 n.val e) 4 = true ∧
      (s.ptSafe (s.sePart n.val e) = true ∨ s.bit (rPair_SE_W0 n.val e) 5 = true)) ∧
    (s.rejoinRefused n.val = true ↔ s.cfg.staging = true ∨ ∃ e < 64, s.bit (rPair_SE_W0 n.val e) 4 = true ∧
      s.bit (rPart_PT_CFG (s.sePart n.val e)) 6 = true) ∧
    (s.fld (rPair_SPLIT_CTRL n.val) 5 2 ≠ 1 → exec (.rejoinLoadDone n) s = .next s) ∧
    (s.fld (rPair_SPLIT_CTRL n.val) 5 2 = 1 → Memory.wf s.mem.pgm = true →
      ∃ t, exec (.rejoinLoadDone n) s = .next t ∧ Keeps (only [.mem, .eng]) s t ∧ (t.pair n.val).loadDone = true ∧
        ∀ i < 0x100000, Mem.byte t.mem.pgm ((2 * n.val + 1) * 0x100000 + i) = Mem.byte s.mem.pgm (2 * n.val * 0x100000 + i) ∧
          Mem.byte t.mem.pgm (2 * n.val * 0x100000 + i) = Mem.byte s.mem.pgm (2 * n.val * 0x100000 + i))

/-- Debug of a pair: enable, halt, step, resume, a breakpoint, a register write, disable. derived: R34, R35, R167,
R168, R189, R190, R191, R192, R194, R431, spec/02_register_model_host.md, spec/07_coelostat_lockstep.md. -/
def Obligations.Debug : Prop :=
  ∀ (s : State) (n : Fin 4),
    let ctrl := rPair_DBG_CTRL n.val
    let stat := rPair_DBG_STAT n.val
    let u := 2 * n.val
    s.bit stat 2 = false ∨ (s.pair n.val).replayAt ≠ s.now ∨ (s.pair n.val).replay.length < 31 →
      (∀ m, Admitted s m ctrl (s.holdsAdmin m) → s.expertAt m ctrl = true →
        (s.bit ctrl 0 = false → s.dbgAllowed n.val = true → ∃ t, exec (.dbgEnable m n) s = .next t ∧ Keeps (only [.regs, .mem, .host, .eng, .flt, .cfg, .tim]) s t ∧ t.bit ctrl 0 = true ∧
          (n = 0 → t.bit stat 2 = true ∧ (s.cmode 0 = 0 → t.cmode 0 = 5)) ∧
          (n ≠ 0 → ((s.core u).inSlot = true → (t.pair n.val).dbgPend = true ∧ t.cmode n.val = s.cmode n.val) ∧
            ((s.core u).inSlot = false → t.cmode n.val = 4))) ∧
        (s.bit ctrl 0 = false → s.dbgAllowed n.val = false →
          ∃ t, exec (.dbgEnable m n) s = .next t ∧ Keeps (only [.regs, .mem, .host, .eng, .flt, .cfg, .tim]) s t ∧ t.bit ctrl 0 = false ∧ t.eng = s.eng) ∧
        (s.bit ctrl 0 = true → ∃ t, exec (.dbgDisable m n) s = .next t ∧ Keeps (only [.regs, .mem, .host, .eng, .flt, .cfg, .tim]) s t ∧ t.bit ctrl 0 = false ∧ t.bit stat 0 = false ∧
          t.bit stat 2 = false ∧ (s.bit stat 2 = true → s.cmode n.val = 5 → t.cmode n.val = 0) ∧
          (s.bit stat 2 = false → (t.pair n.val).rejoinReq = true))) ∧
      (∀ (m : Master) (j5 : Bool) (coll : Fin 4), s.bit ctrl 0 = true →
        j5 = true ∨ (Admitted s m ctrl (s.holdsAdmin m) ∧ s.expertAt m ctrl = true) →
          (coll ≠ 3 ∨ (j5 = false ∧ m ≠ .pcie) →
            (∃ t, exec (.dbgHalt ⟨m, j5, coll⟩ n) s = .next t ∧ Keeps (only [.regs, .mem, .host, .eng, .flt, .cfg, .tim]) s t ∧ t.bit stat 0 = true ∧
              (s.bit stat 0 = false → t.fld stat 4 4 = s.fld (rPair_PR_STAT n.val) 4 4)) ∧
            (s.bit stat 0 = true → ∃ t, exec (.dbgStep ⟨m, j5, coll⟩ n) s = .next t ∧ Keeps (only [.regs, .mem, .host, .eng, .flt, .cfg, .tim]) s t ∧ t.bit stat 0 = true ∧
              (t.pair n.val).stepOk = true) ∧
            (∃ t, exec (.dbgResume ⟨m, j5, coll⟩ n) s = .next t ∧ Keeps (only [.regs, .mem, .host, .eng, .flt, .cfg, .tim]) s t ∧ t.bit stat 0 = false)) ∧
          (j5 = true ∨ m = .pcie → ∀ c ∈ [Instr.dbgHalt ⟨m, j5, 3⟩ n, .dbgStep ⟨m, j5, 3⟩ n, .dbgResume ⟨m, j5, 3⟩ n],
            ∃ t, exec c s = .next t ∧ t.bit stat 0 = s.bit stat 0 ∧ (t.pair n.val).stepOk = (s.pair n.val).stepOk ∧
              (t.det (208 + n.val)).held = true)) ∧
      (∀ i : Fin 4,
        let a := rPair_DBG_BP n.val i.val
        let c := s.core u
        let hit := s.bit ctrl 0 = true ∧ s.bit stat 0 = false ∧ s.bit a 31 = true ∧ c.inSlot = true ∧ s.fld a 0 17 = c.pc ∧
          s.fld a 17 1 = s.actBank c.part ∧ s.fld a 18 4 = c.part
        (¬ hit → exec (.breakpointHit n i) s = .next s) ∧
        (hit → s.bit a 30 = false → ∃ t, exec (.breakpointHit n i) s = .next t ∧ Keeps (only [.regs, .mem, .eng, .flt, .tim]) s t ∧ t.bit stat 0 = true ∧
          t.eng.cores = s.eng.cores) ∧
        (hit → s.bit a 30 = true → ∃ t, exec (.breakpointHit n i) s = .next t ∧ Keeps (only [.regs, .mem, .eng, .flt, .tim]) s t ∧ t.bit stat 0 = false ∧
          t.eng.cores = s.eng.cores)) ∧
      (∀ (m : Master) (v : BitVec 64), Admitted s m (rPair_DBG_DATA_HI n.val) (s.holdsAdmin m) → s.expertAt m (rPair_DBG_DATA_HI n.val) = true →
        s.bit stat 0 = true →
          let w := if s.cmode n.val = 4 ∧ s.bit (rPair_DBG_SEL n.val) 8 = true then u + 1 else u
          let k := s.fld (rPair_DBG_SEL n.val) 0 6
          ∃ t, exec (.dbgRegWrite m n v) s = .next t ∧ Keeps (only [.regs, .mem, .host, .eng, .flt, .cfg]) s t ∧ t.rd64 (rPair_DBG_DATA_LO n.val) = v.toNat ∧
            (∀ r, t.creg w r = if r = k ∧ k < 32 then v else s.creg w r) ∧
            (∀ r < 16, t.readP w r = if r + 32 = k ∧ r ≠ 0 then v.setWidth 32 else s.readP w r) ∧
            (t.core w).pc = (if k = 48 then v.toNat % 131072 else (s.core w).pc) ∧
            (t.core w).ctx.flags = if k = 49 then v.setWidth 32 else (s.core w).ctx.flags)

/-- Sessions: challenge, opening, closing, time-out, a password change. derived: R35, R433, R434, R435, R436, R449,
spec/02_register_model_host.md, spec/16_partitions_configuration.md. -/
def Obligations.Sessions : Prop :=
  ∀ (s : State) (m : Master), s.asleep rCfg_SESS_CMD = false →
    let role := s.reqRole m
    let r := s.roleRec role (s.reqPart m)
    let stat := bk m rCfg_SESS_STAT
    (s.rngReady = true → ∃ t, exec (.sessionNewChal m) s = .next t ∧ Keeps (only [.regs, .host, .cfg, .lcs]) s t ∧ (t.sess m).chal ≠ none ∧ t.fld stat 1 3 = 0 ∧
      (t.sess m).role = (s.sess m).role) ∧
    (s.rngReady = false → ∃ t, exec (.sessionNewChal m) s = .next t ∧ Keeps (only [.regs, .host, .cfg, .lcs]) s t ∧ (t.sess m).chal = (s.sess m).chal ∧ t.fld stat 1 3 = 3) ∧
    (∀ c, role ≠ 0 → r.present = true → s.bit rOtp_OTP_STAT 4 = false → Tab.get (fun _ => 0) s.cfg.lockUntil (s.failKey m) ≤ s.now →
      s.modeIs .dormant = false → (s.sess m).chal = some c → (s.sess m).chalUsed = false →
        (s.givenResp m = s.expectedResp m c →
          ∃ t, exec (.sessionOpen m) s = .next t ∧ Keeps (only [.regs, .mem, .host, .flt, .log, .cfg]) s t ∧ (t.sess m).role = role ∧
            (t.sess m).part = (if role = 3 then s.reqPart m else 0) ∧ (t.sess m).expert = (s.reqExpert m && r.expertOk) ∧ (t.sess m).lastWr = s.now ∧
            t.fld stat 1 3 = 0 ∧ t.bit stat 0 = true) ∧
        (s.givenResp m ≠ s.expectedResp m c →
          ∃ t, exec (.sessionOpen m) s = .next t ∧ Keeps (only [.regs, .mem, .host, .flt, .log, .cfg]) s t ∧ (t.sess m).role = (s.sess m).role ∧ (t.sess m).chal = none ∧
            (t.det 955).held = true ∧ t.fld stat 1 3 = 1)) ∧
    (∀ k, (k = 4 ∧ (role = 0 ∨ r.present = false ∨ s.bit rOtp_OTP_STAT 4 = true)) ∨
        (role ≠ 0 ∧ r.present = true ∧ s.bit rOtp_OTP_STAT 4 = false ∧
          ((k = 2 ∧ s.now < Tab.get (fun _ => 0) s.cfg.lockUntil (s.failKey m)) ∨
            (k = 3 ∧ Tab.get (fun _ => 0) s.cfg.lockUntil (s.failKey m) ≤ s.now ∧ s.modeIs .dormant = true))) →
      ∃ t, exec (.sessionOpen m) s = .next t ∧ Keeps (only [.regs, .mem, .host, .flt, .log, .cfg]) s t ∧ (t.sess m).role = (s.sess m).role ∧ t.fld stat 1 3 = k) ∧
    ((s.sess m).role = 0 ∨ s.modeIs .dormant = true → exec (.sessionTimeout m) s = .next s) ∧
    (∃ t, exec (.sessionClose m) s = .next t ∧ Keeps (only [.regs, .host, .cfg]) s t ∧ (t.sess m).role = 0 ∧ (t.sess m).expert = false ∧ (t.rd stat).toNat = 0) ∧
    ((s.sess m).role ≠ 0 → s.modeIs .dormant = false → (s.sess m).lastWr + 90000000000 < 2 ^ 64 →
      ∃ t, exec (.sessionTimeout m) s = .next t ∧ Keeps (only [.regs, .cfg, .mer]) s t ∧ (t.sess m).role = 0 ∧ t.now = max s.now ((s.sess m).lastWr + 90000000000)) ∧
    (∀ c, role ≠ 0 → (s.roleRec role (if role = 3 then s.reqPart m else 0)).present = true → (s.sess m).role = 2 → (s.sess m).chal = some c →
      10000 ≤ s.pwData m 4 1 → s.pwData m 4 1 ≤ 1000000 →
        ∃ t, exec (.pwChange m) s = .next t ∧ Keeps (only [.regs, .mem, .host, .cfg]) s t ∧ t.fld stat 1 3 = 0 ∧ t.cfg.roles = s.cfg.roles ∧
          t.cfg.queue.length = s.cfg.queue.length + 1)

/-- Partition commands wait for the superframe boundary and are applied there. derived: R34, R429, R430, R451,
spec/02_register_model_host.md, spec/16_partitions_configuration.md. -/
def Obligations.PartitionCommands : Prop :=
  ∀ (s : State) (p : Fin 16),
    (∀ m, Admitted s m rCfg_PART_CMD (s.holdsMA m || s.holdsOwner m p.val) →
        let res := bk m rCfg_PART_CMD_RES
        (∃ t, exec (.partStart m p) s = .next t ∧ Keeps (only [.regs, .mem, .host, .eng, .flt, .cfg]) s t ∧
          (∀ r, s.partRefuse p.val .start = some r → (t.part p.val).cmd = (s.part p.val).cmd ∧ (t.rd res).toNat = p.val + 16 + 256 * r) ∧
          (s.partRefuse p.val .start = none → (t.part p.val).cmd = some (.start, m, s.ptMode p.val) ∧ (t.rd res).toNat = p.val + 16 + 256) ∧
          ∀ q, q ≠ p.val → (t.part q).cmd = (s.part q).cmd) ∧
        (∃ t, exec (.partStop m p) s = .next t ∧ Keeps (only [.regs, .mem, .host, .eng, .flt, .cfg]) s t ∧
          (∀ r, s.partRefuse p.val .stop = some r → (t.part p.val).cmd = (s.part p.val).cmd ∧ (t.rd res).toNat = p.val + 32 + 256 * r) ∧
          (s.partRefuse p.val .stop = none → (t.part p.val).cmd = some (.stop, m, s.ptMode p.val) ∧ (t.rd res).toNat = p.val + 32 + 256) ∧
          ∀ q, q ≠ p.val → (t.part q).cmd = (s.part q).cmd) ∧
        (∃ t, exec (.partMaint m p) s = .next t ∧ Keeps (only [.regs, .mem, .host, .eng, .flt, .cfg]) s t ∧
          (∀ r, s.partRefuse p.val .maint = some r → (t.part p.val).cmd = (s.part p.val).cmd ∧ (t.rd res).toNat = p.val + 48 + 256 * r) ∧
          (s.partRefuse p.val .maint = none → (t.part p.val).cmd = some (.maint, m, s.ptMode p.val) ∧ (t.rd res).toNat = p.val + 48 + 256) ∧
          ∀ q, q ≠ p.val → (t.part q).cmd = (s.part q).cmd) ∧
        (∃ t, exec (.partReset m p) s = .next t ∧ Keeps (only [.regs, .mem, .host, .eng, .flt, .cfg]) s t ∧
          (∀ r, s.partRefuse p.val .reset = some r → (t.part p.val).cmd = (s.part p.val).cmd ∧ (t.rd res).toNat = p.val + 64 + 256 * r) ∧
          (s.partRefuse p.val .reset = none → (t.part p.val).cmd = some (.reset, m, s.ptMode p.val) ∧ (t.rd res).toNat = p.val + 64 + 256) ∧
          ∀ q, q ≠ p.val → (t.part q).cmd = (s.part q).cmd)) ∧
    (∀ c, s.partRefuse p.val c = none ↔ s.lcProvDep = true ∧
      (s.dev.mode = .operate ∨ (s.dev.mode = .harebell ∧ s.ptEssential p.val = true)) ∧ (partNext (s.ptMode p.val) c).isSome = true ∧
      (c = .start → s.cfg.yesAt = none) ∧ (c = .start → s.ptMode p.val = 0 → s.reactOk p.val = true) ∧
      (s.ptMode p.val = 0 → partNext 0 c ≠ some 0 → (s.part p.val).pgmBad = false)) ∧
    ((s.part p.val).cmd = none ∨ s.modeIs .dormant = true → exec (.partCmdApply p) s = .next s) ∧
    (∀ c m mode, (s.part p.val).cmd = some (c, m, mode) → s.modeIs .dormant = false → s.now + 6250 < 2 ^ 64 →
      let res := bk m rCfg_PART_CMD_RES
      (∀ k, s.ptMode p.val = mode → partNext mode c = some k → s.partRefuse p.val c = none →
        ∃ t, exec (.partCmdApply p) s = .next t ∧ Keeps (only [.regs, .mem, .host, .eng, .flt, .log, .mer, .fab, .net]) s t ∧ (t.part p.val).cmd = none ∧ t.ptMode p.val = k ∧
          t.now = (s.now / 6250 + 1) * 6250 ∧ (t.rd res).toNat = p.val + 16 * PartCmd.code c) ∧
      (s.ptMode p.val ≠ mode ∨ s.partRefuse p.val c ≠ none →
        ∃ t, exec (.partCmdApply p) s = .next t ∧ Keeps (only [.regs, .mem, .host, .eng, .flt, .log, .mer, .fab, .net]) s t ∧ (t.part p.val).cmd = none ∧ t.ptMode p.val = s.ptMode p.val ∧
          (t.rd res).toNat = p.val + 16 * PartCmd.code c + 1024))

/-- FN_RESET and forces. derived: R34, R207, R432, R438, R449, R451, spec/02_register_model_host.md,
spec/08_safety_functions.md, spec/16_partitions_configuration.md. -/
def Obligations.ResetsAndForces : Prop :=
  ∀ (s : State) (m : Master),
    (∀ (p : Fin 16) (i : BitVec 10),
      let ok := s.lcProvDep = true ∧ (s.dev.mode = .operate ∨ s.dev.mode = .harebell) ∧ s.ptMode p.val = 1 ∧
        (s.holdsMaint m || s.holdsOwner m p.val) = true
      (Admitted s m rCfg_FN_CMD (s.holdsMA m || s.holdsOwner m p.val) → ok →
        ∃ t, exec (.fnResetCmd m p i) s = .next t ∧ Keeps (only [.regs, .mem, .host, .eng, .flt, .cfg]) s t ∧ (i.toNat, s.now) ∈ (t.part p.val).fnReset ∧
          ∀ q, q ≠ p.val → t.part q = s.part q) ∧
      ((s.part p.val).fnReset.find? (fun y => y.1 = i.toNat) = none ∨ s.modeIs .dormant = true → exec (.fnResetExpire p i) s = .next s) ∧
      (Admitted s m rCfg_FN_CMD (s.holdsMA m || s.holdsOwner m p.val) → ¬ ok →
        ∃ t, exec (.fnResetCmd m p i) s = .next t ∧ Keeps (only [.regs, .mem, .host, .eng, .flt, .cfg]) s t ∧ ∀ q, t.part q = s.part q) ∧
      (∀ x, (s.part p.val).fnReset.find? (fun y => y.1 = i.toNat) = some x → s.modeIs .dormant = false → x.2 + 100000000 < 2 ^ 64 →
        ∃ t, exec (.fnResetExpire p i) s = .next t ∧ Keeps (only [.eng, .mer]) s t ∧ t.now = max s.now (x.2 + 100000000) ∧
          (t.part p.val).fnReset = (s.part p.val).fnReset.filter fun y => decide (y.1 ≠ i.toNat))) ∧
    (let p := s.fld (bk m rCfg_FRC_SEL) 0 4
     let idx := s.fld (bk m rCfg_FRC_SEL) 16 9
     Admitted s m rCfg_FRC_CMD (s.holdsMA m || s.holdsOwner m p) →
      (s.forceRefuse p idx = none →
        ∃ t, exec (.forceSet m) s = .next t ∧ Keeps (only [.regs, .mem, .host, .flt, .cfg]) s t ∧ t.eng = s.eng ∧
          t.cfg.queue.map (·.2) = s.cfg.queue.map (·.2) ++ [.forceSet p idx (BitVec.ofNat 16 (s.fld rCfg_FRC_VAL 0 16))]) ∧
      (∀ r, s.forceRefuse p idx = some r →
        ∃ t, exec (.forceSet m) s = .next t ∧ Keeps (only [.regs, .mem, .host, .flt, .cfg]) s t ∧ t.eng = s.eng ∧ t.cfg.queue = s.cfg.queue ∧ t.fld rCfg_FRC_STAT 0 8 = r) ∧
      (∃ t, exec (.forceClear m) s = .next t ∧ Keeps (only [.regs, .mem, .host, .flt, .cfg]) s t ∧ t.eng = s.eng ∧
        t.cfg.queue.map (·.2) = s.cfg.queue.map (·.2) ++ [.forceClear p idx]) ∧
      ∃ t, exec (.forceClearAll m) s = .next t ∧ Keeps (only [.regs, .mem, .host, .flt, .cfg]) s t ∧ t.eng = s.eng ∧
        t.cfg.queue.map (·.2) = s.cfg.queue.map (·.2) ++ [.forceClearAll p])

/-- Speed units: captured edges, standstill, a window's dwell, CLR_LATCH. derived: R34, R235, R238, R239, R242, R243,
R245, R281, spec/02_register_model_host.md, spec/09_speed_rotation.md, spec/10_field_channels.md. -/
def Obligations.SpeedUnits : Prop :=
  ∀ (s : State) (u : Fin 32), s.fieldLive = true →
    let x := s.spd u.val
    (∀ e : EdgeIn, s.spdMode u.val ≠ 0 →
      let delay := 10 * s.fld (rCh_EDGE_CFG (s.fld (rSpd_SPD_CH u.val) (if e.idx then 16 else 0) 8)) 0 16
      let at_ := s.now - delay
      (10 * e.held.toNat < delay → exec (.speedEdgeCapture u e) s = .next s) ∧
      (delay ≤ 10 * e.held.toNat → x.q = [] → e.later = true ∨ (at_ % 6250 = 0 ∧ s.eng.lastSf ≤ at_) →
        ∃ t, exec (.speedEdgeCapture u e) s = .next t ∧ Keeps (only [.regs, .mem, .host, .flt, .log, .field]) s t ∧ (t.spd u.val).q = [⟨at_, e.idx, e.b, e.bad⟩] ∧
          t.fld (rSpd_CAPQ u.val) 0 3 = 1 ∧ t.rd (rSpd_EDGE_CNT u.val) = s.rd (rSpd_EDGE_CNT u.val)) ∧
      (delay ≤ 10 * e.held.toNat → x.q = [] → e.later = false → e.idx = false → at_ % 6250 ≠ 0 ∨ at_ < s.eng.lastSf →
        ∃ t, exec (.speedEdgeCapture u e) s = .next t ∧ Keeps (only [.regs, .mem, .host, .flt, .log, .field]) s t ∧ (t.spd u.val).q = [] ∧ (t.spd u.val).hist.head? = some at_ ∧
          (t.rd (rSpd_EDGE_CNT u.val)).toNat = min ((s.rd (rSpd_EDGE_CNT u.val)).toNat + 1) (2 ^ 32 - 1) ∧
          t.rd64 (rSpd_LAST_EDGE_LO u.val) = at_) ∧
      (delay ≤ 10 * e.held.toNat → x.q.length = 4 → (∀ y ∈ x.q, s.now < y.time + s.filterDelay u.val y.idx + 200) →
        ∃ t, exec (.speedEdgeCapture u e) s = .next t ∧ Keeps (only [.regs, .mem, .host, .flt, .log, .field]) s t ∧ (t.spd u.val).q = x.q ∧ t.spdState u.val = 5 ∧
          t.bit (rSpd_CAPQ u.val) 3 = true)) ∧
    (x.q = [] → (s.spdMode u.val = 1 ∨ s.spdMode u.val = 2) → s.spdState u.val ≠ 1 → s.spdState u.val ≠ 5 →
      x.since + ms (s.fld (rSpd_T_STAND u.val) 0 16) < 2 ^ 64 →
        ∃ t, exec (.speedStandstill u) s = .next t ∧ Keeps (only [.regs, .mem, .host, .flt, .log, .mer, .field]) s t ∧ t.spdState u.val = 1 ∧ t.fld (rSpd_REV_PULSES u.val) 0 16 = 0 ∧
          t.now = max s.now (x.since + ms (s.fld (rSpd_T_STAND u.val) 0 16))) ∧
    (∀ n : Fin 4, x.q = [] → s.spdMode u.val = 3 → s.spdState u.val ≠ 5 → s.winActive u.val n.val = true →
      x.since + ms (s.fld (rSpd_DWELL u.val n.val) 0 16) < 2 ^ 64 →
        ∃ t, exec (.windowDwell u n) s = .next t ∧ Keeps (only [.regs, .mem, .host, .flt, .log, .mer, .field]) s t ∧ t.winAborted u.val n.val = true ∧ t.winActive u.val n.val = false ∧
          t.bit (rSpd_WIN_STAT u.val) n.val = false ∧ (t.det (817 + 2 * u.val)).held = true) ∧
    (∀ m, Admitted s m (rSpd_CMD u.val) (s.privAt m (rSpd_CMD u.val)) →
      ∃ t, exec (.spdClrLatch m u) s = .next t ∧ Keeps (only [.regs, .mem, .host, .flt, .log, .cfg, .field]) s t ∧ t.bit (rSpd_CAPQ u.val) 3 = false ∧
        t.rd (rSpd_REV_PULSES u.val) = s.rd (rSpd_REV_PULSES u.val) ∧
        (s.spdState u.val = 5 → s.bit (rSpd_SPD_STAT u.val) 20 = true →
          t.spdState u.val = 0 ∧ t.bit (rSpd_SPD_STAT u.val) 20 = false ∧ t.spdCause u.val = 0))

/-- Input channels: samples, test pulses, comparator time-out, healthy time, CLR_LATCH. derived: R34, R256, R257,
R258, R259, R260, R262, R293, R304, R553, spec/02_register_model_host.md, spec/10_field_channels.md. -/
def Obligations.ChannelInputs : Prop :=
  ∀ (s : State) (n : Fin 192), s.fieldLive = true →
    let c := s.ch n.val
    let st := rCh_CH_STAT n.val
    (∀ (k : Comp) (x : Terminal), s.now + 2000 < 2 ^ 64 → c.sampled ≤ s.now + 1000 → (s.role n.val = 1 ∨ s.role n.val = 5 ∨ s.role n.val = 6) →
      let raw := (s.levels n.val k x).1 && (s.levels n.val k x).2
      let fa := asSigned 16 x.vFA.toNat
      let amps := asSigned 24 x.iFA.toNat
      ∃ t, exec (.channelSample n k x) s = .next t ∧ Keeps (only [.regs, .mem, .host, .eng, .flt, .log, .mer, .tim, .field]) s t ∧ t.bit st 0 = raw ∧
        (k.failed = false → s.role n.val = 6 → (210 ≤ amps → raw = true) ∧ (amps ≤ 120 → raw = false)) ∧
        (k.failed = false → s.role n.val ≠ 6 → (fa ≤ 500 → raw = false) ∧ (1500 ≤ fa → raw = true) ∧
          (s.role n.val = 5 ∨ s.bit (rCh_DI_CFG n.val) 13 = true → 1100 ≤ fa → raw = true)) ∧
        t.fld (rCh_V_FA n.val) 0 16 = x.vFA.toNat ∧ t.now = s.sampleTime c.sampled ∧ (t.ch n.val).sampled = t.now + 1 ∧
        (s.tpSrc n.val = none → raw ≠ s.bit st 1 →
          (s.fld (rCh_DI_CFG n.val) 0 13 ≤ c.run + 1 → t.bit st 1 = raw) ∧
          (c.run + 1 < s.fld (rCh_DI_CFG n.val) 0 13 → t.bit st 1 = s.bit st 1 ∧ (t.ch n.val).run = c.run + 1)) ∧
        (s.tpSrc n.val = none → raw = s.bit st 1 → t.bit st 1 = s.bit st 1 ∧ (t.ch n.val).run = 0)) ∧
    (s.role n.val = 2 → c.pulse = none → s.now + 2000000 < 2 ^ 64 →
      ∃ t, exec (.testPulseStart n) s = .next t ∧ Keeps (only [.regs, .mer, .field]) s t ∧ t.now = s.framePlace (1000 * s.maskLo n.val) ∧
        ∀ j < 192, let same := s.role j = 2 ∧ s.fld (rCh_TP_CFG j) 0 3 = s.fld (rCh_TP_CFG n.val) 0 3
          (same → (t.ch j).pulse = some t.now ∧ t.bit (rCh_CH_STAT j) 5 = true) ∧ (¬ same → t.ch j = s.ch j)) ∧
    (∀ (v : BitVec 16) (t0 : Nat), s.role n.val = 2 → c.pulse = some t0 → t0 + 50000 < 2 ^ 64 →
      ∃ t, exec (.testPulseEnd n v) s = .next t ∧ Keeps (only [.regs, .mem, .eng, .flt, .mer, .field]) s t ∧ t.now = max s.now (t0 + 50000) ∧ (t.ch n.val).pulse = none ∧
        (c.seen = true → (t.ch n.val).wl = c.wl) ∧ (c.seen = false → 500 < asSigned 16 v.toNat → hasKind (t.ch n.val).wl 2 = true)) ∧
    (∀ t0, c.differ = some t0 → t0 + ms 10 < 2 ^ 64 →
      ∃ t, exec (.diCompTimeout n) s = .next t ∧ Keeps (only [.regs, .mem, .eng, .flt, .mer, .field]) s t ∧ t.now = max s.now (t0 + ms 10) ∧ hasKind (t.ch n.val).fl 1 = true ∧
        (hasKind c.fl 1 = false → (t.det (384 + 2 * n.val + 1)).held = true)) ∧
    (∀ (k : Fin 32) (t0 : Nat), t0 + ms 100 < 2 ^ 64 →
      (wiringTimed k.val = true → c.wl.find? (fun e => e.1 = k.val) = some (k.val, some t0) →
        ∃ t, exec (.channelFaultClear n false k) s = .next t ∧ Keeps (only [.regs, .mem, .eng, .mer, .field]) s t ∧ t.now = max s.now (t0 + ms 100) ∧
          hasKind (t.ch n.val).wl k.val = false) ∧
      (c.fl.find? (fun e => e.1 = 1) = some (1, some t0) →
        ∃ t, exec (.channelFaultClear n true 1) s = .next t ∧ Keeps (only [.regs, .mem, .eng, .mer, .field]) s t ∧ t.now = max s.now (t0 + ms 100) ∧
          hasKind (t.ch n.val).fl 1 = false) ∧
      (1 ≤ k.val → k.val ≤ 3 → 10 ≤ c.frames →
        ∃ t, exec (.channelFaultClear n false k) s = .next t ∧ Keeps (only [.regs, .mem, .eng, .mer, .field]) s t ∧ hasKind (t.ch n.val).wl k.val = false)) ∧
    (∀ m, Admitted s m (rCh_CMD n.val) (s.privAt m (rCh_CMD n.val)) → s.bit st 7 = true →
      ((c.rb = false ∨ s.swIsOn n.val = true) → ∃ t, exec (.chClrLatch m n) s = .next t ∧ Keeps (only [.regs, .mem, .host, .eng, .flt, .cfg, .field]) s t ∧ t.bit st 7 = false ∧
        hasKind (t.ch n.val).wl 4 = false ∧ hasKind (t.ch n.val).wl 5 = false) ∧
      (c.rb = true → s.swIsOn n.val = false → ∃ t, exec (.chClrLatch m n) s = .next t ∧ Keeps (only [.regs, .mem, .host, .eng, .flt, .cfg, .field]) s t ∧ t.bit st 7 = true))

/-- Outputs switch on only as R267 permits; off-pulses and read-back monitors. derived: R10, R267, R268, R269, R270,
R272, R273, R274, R305, spec/01_architecture.md, spec/10_field_channels.md, spec/11_analogue_channels.md. -/
def Obligations.OutputChannels : Prop :=
  ∀ (s : State) (n : Fin 192), s.fieldLive = true →
    let c := s.ch n.val
    let st := rCh_CH_STAT n.val
    (∀ ron, s.now + 2000 < 2 ^ 64 →
      (s.role n.val = 3 → c.pulse = none →
        ∃ t, exec (.outputRead n ron) s = .next t ∧ Keeps (only [.regs, .eng, .mer, .field]) s t ∧
          (s.outPermit n.val = false → t.swIsOn n.val = false) ∧
          (s.outPermit n.val = true → s.swIsOn n.val = true → t.swIsOn n.val = true) ∧
          (s.outPermit n.val = true → s.swIsOn n.val = false → s.bit (rCh_DO_CFG n.val) 10 = false → t.swIsOn n.val = true) ∧
          (s.bit (rCh_DO_CFG n.val) 10 = true → Tab.get (fun _ => 0) s.eng.armWr n.val = 0 → s.swIsOn n.val = false → t.swIsOn n.val = false)) ∧
      ((s.role n.val = 13 ∨ s.role n.val = 14) → s.flt.safeLine = true →
        ∃ t, exec (.outputRead n ron) s = .next t ∧ Keeps (only [.regs, .eng, .mer, .field]) s t ∧ t.fld (rCh_AO_CMD n.val) 0 16 = s.aoFailLevel n.val)) ∧
    (∀ ron t0,
      let at_ := s.frameAt (100000 * s.transitSlot n.val + 4000 * (n.val / 8)) (opFrames (s.fld (rCh_DO_CFG n.val) 12 3)) n.val
      s.pulses n.val = true → c.pulse = none → at_ < 2 ^ 64 → c.onSince = some t0 → t0 + 100000 ≤ max s.now at_ →
        ∃ t, exec (.offPulseStart n ron) s = .next t ∧ Keeps (only [.regs, .mer, .field]) s t ∧ t.now = max s.now at_ ∧ t.swIsOn n.val = false ∧
          t.bit st 5 = true ∧ (t.ch n.val).pulse = some t.now ∧ (t.ch n.val).proof = some t.now) ∧
    (∀ (v : BitVec 16) (t0 : Nat),
      let at_ := max s.now (t0 + 10000 * s.fld (rCh_DO_CFG n.val) 16 4)
      let late := fun k : Nat => ∃ p, (s.ch k).proof = some p ∧ p + 6000 ≤ at_
      s.role n.val = 3 → c.pulse = some t0 → at_ < 2 ^ 64 →
      ∃ t, exec (.offPulseEnd n v) s = .next t ∧ Keeps (only [.regs, .mem, .host, .eng, .flt, .log, .mer, .field]) s t ∧ t.now = at_ ∧ (t.ch n.val).pulse = none ∧
        (s.outPermit n.val = false → s.swIsOn n.val = false → t.swIsOn n.val = false) ∧
        (s.outPermit n.val = true → (∀ k ∈ s.outChans n.val, ¬ late k) → t.swIsOn n.val = true) ∧
        (∀ k ∈ s.outChans n.val, late k → t.bit (rCh_CH_STAT k) 7 = true ∧ t.bit (rBank_BK_STAT (n.val / 8)) 3 = true ∧
          (s.swIsOn n.val = false → t.swIsOn n.val = false))) ∧
    (∀ (v : BitVec 16) (t0 : Nat), s.isDo n.val = true → s.swIsOn n.val = false → s.bit st 7 = false → c.proof = some t0 → 500 ≤ asSigned 16 v.toNat →
      t0 + 6000 < 2 ^ 64 →
        ∃ t, exec (.doStuckHighDetect n v) s = .next t ∧ Keeps (only [.regs, .mem, .host, .eng, .flt, .log, .mer, .field]) s t ∧ t.now = max s.now (t0 + 6000) ∧ t.bit st 7 = true ∧
          hasKind (t.ch n.val).wl 4 = true ∧ t.bit (rBank_BK_STAT (n.val / 8)) 3 = true ∧ t.bit (rBank_BK_STAT (n.val / 8)) 0 = false) ∧
    (∀ v : BitVec 16, hasKind c.wl 4 = true → 1100 < asSigned 16 v.toNat → c.stuckAt + 10000 < 2 ^ 64 →
      ∃ t, exec (.extFeedDetect n v) s = .next t ∧ Keeps (only [.regs, .mem, .eng, .flt, .mer, .field]) s t ∧ hasKind (t.ch n.val).wl 5 = true ∧ hasKind (t.ch n.val).wl 4 = false) ∧
    (s.isDo n.val = true → s.swIsOn n.val = true → c.pulse = none → ∀ ron,
      ∃ t, exec (.doOverloadDetect n 1 ron) s = .next t ∧ Keeps (only [.regs, .flt, .mer, .field]) s t ∧ t.swIsOn n.val = false ∧ t.bit st 3 = true ∧
        (t.det (384 + 2 * n.val)).held = true) ∧
    (s.isDo n.val = true → s.swIsOn n.val = true → s.bit (rCh_DO_CFG ((s.pairOf n.val).getD n.val)) 11 = true →
      ∃ t, exec (.openLoadDetect n) s = .next t ∧ Keeps (only [.regs, .flt]) s t ∧ (t.det (384 + 2 * n.val)).held = true) ∧
    (s.pairOf n.val = some n.val → s.swIsOn n.val = true →
      ∃ t, exec (.parShareDetect n) s = .next t ∧ Keeps (only [.regs, .flt]) s t ∧ (t.det (384 + 2 * n.val + 1)).held = true)

/-- The Shutters: test, closing, a failed closing, clearing; bank supply, group current, the isolated link. derived:
R34, R277, R279, R280, R286, R287, R294, R511, spec/02_register_model_host.md, spec/10_field_channels.md,
spec/20_power_nightglass.md. -/
def Obligations.BanksAndShutters : Prop :=
  ∀ (s : State) (b : Fin 24),
    let st := rBank_BK_STAT b.val
    let x := s.bank b.val
    (∀ rail fall ron : BitVec 16,
      (let per := if x.testReq then 1 else shutFrames (s.fld (rBank_BK_CFG b.val) 0 3)
       let at_ := s.frameAt (900000 + 4000 * b.val) per b.val
       s.fieldLive = true → x.testAt = none → s.shutOk b.val = true → at_ < 2 ^ 64 →
        ∃ t, exec (.shutterTestStart b rail fall ron) s = .next t ∧ Keeps (only [.regs, .mem, .host, .flt, .log, .mer, .field]) s t ∧ t.now = max s.now at_ ∧ t.bit st 0 = false ∧
          t.bit st 5 = true ∧ (t.bank b.val).testAt = some t.now ∧ t.fld (rBank_SHUT_LAST b.val) 0 16 = fall.toNat ∧
          (asSigned 16 rail.toNat < 500 → t.bit st 6 = false) ∧
          (500 ≤ asSigned 16 rail.toNat → hasKind x.sl 1 = false → t.bit st 6 = true ∧ (t.det (769 + 2 * b.val)).held = true)) ∧
      (∀ m, Admitted s m (rBank_CMD b.val) (s.privAt m (rBank_CMD b.val)) →
        (s.bit st 6 = true → s.fld st 1 5 = 0 →
          ∃ t, exec (.bankClrLatch m b rail fall ron) s = .next t ∧ Keeps (only [.regs, .mem, .host, .flt, .log, .cfg, .field]) s t ∧ (t.bank b.val).testAt = some s.now ∧
            t.bit st 6 = decide (500 ≤ asSigned 16 rail.toNat)) ∧
        (∃ t, exec (.bankShutTest m b) s = .next t ∧ Keeps (only [.regs, .mem, .host, .flt, .log, .cfg, .field]) s t ∧ (t.bank b.val).testReq = true ∧ t.rd st = s.rd st))) ∧
    (∀ t0, x.testAt = some t0 → t0 + 30000 < 2 ^ 64 →
      ∃ t, exec (.shutterTestEnd b) s = .next t ∧ Keeps (only [.regs, .mer, .field]) s t ∧ (t.bank b.val).testAt = none ∧ t.bit st 5 = false ∧
        (s.fld st 1 6 = 16 → s.bankOff b.val = true → s.bit st 0 = false → t.bit st 0 = true ∧ (t.bank b.val).rising = some t.now)) ∧
    (∀ supply rail : BitVec 16,
      (x.retryAt = none → s.shutAsked b.val = false → s.bankOff b.val = true → s.bit st 0 = false →
        ∃ t, exec (.shutterClose b supply rail) s = .next t ∧ Keeps (only [.regs, .mer, .field]) s t ∧ t.bit st 0 = true ∧ t.fld (rBank_V_RAIL b.val) 0 16 = rail.toNat ∧
          (t.bank b.val).rising = if asSigned 16 supply.toNat - 100 ≤ asSigned 16 rail.toNat then none else some s.now) ∧
      ((s.shutAsked b.val = true ∨ s.bankOff b.val = false) →
        ∃ t, exec (.shutterClose b supply rail) s = .next t ∧ Keeps (only [.regs, .mer, .field]) s t ∧ t.rd st = s.rd st)) ∧
    (∀ t0, x.rising = some t0 → s.bit st 0 = true → max s.now (t0 + ms 2) < 2 ^ 64 →
      ∃ t, exec (.shutterCloseFail b) s = .next t ∧ Keeps (only [.regs, .mem, .host, .flt, .log, .mer, .field]) s t ∧ t.bit st 0 = false ∧ (t.bank b.val).rising = none ∧
        (t.bank b.val).retryAt = some (max s.now (t0 + ms 2) + ms 1000) ∧ (t.det (769 + 2 * b.val)).held = true) ∧
    (∀ v : BitVec 16,
      let y := asSigned 16 v.toNat
      let kind := if y < -100 then 3 else if y < 1800 then 1 else 2
      ((y < 1800 ∨ 3200 < y) →
        ∃ t, exec (.bankSupplyFault b v) s = .next t ∧ Keeps (only [.regs, .mem, .host, .eng, .flt, .log, .field]) s t ∧ t.supplyBad b.val = true ∧ t.bit st 4 = true ∧ t.bit st 0 = false ∧
          hasKind (t.bank b.val).hl kind = true ∧ (hasKind x.hl kind = false → (t.det (768 + 2 * b.val)).held = true) ∧ t.fld (rBank_V_BANK b.val) 0 16 = v.toNat) ∧
      (1900 ≤ y → y ≤ 3100 → ∃ t, exec (.bankSupplyClear b v) s = .next t ∧ Keeps (only [.regs, .mem, .eng, .field]) s t ∧ t.supplyBad b.val = false ∧ t.bit st 4 = false)) ∧
    (∀ (g : Fin 4) (i : BitVec 16),
      (10000 < i.toNat → ∃ t, exec (.groupCurrent g i) s = .next t ∧ Keeps (only [.regs, .flt]) s t ∧ (t.det (768 + 12 * g.val)).held = true ∧
        ∀ k < 6, t.fld (rBank_I_GROUP (6 * g.val + k)) 0 16 = i.toNat) ∧
      ∃ t, exec (.fieldLinkLoss g) s = .next t ∧ Keeps (only [.dev, .regs, .mem, .host, .eng, .flt, .log, .mer, .field, .fab, .net]) s t ∧
        (s.dev.vlogValid = true → s.almActs (14 + g.val) = true → SafeStateTaken s t ∧ t.alm (14 + g.val) = .alarm ∧
          (s.alm (14 + g.val) = .normal → (t.det (14 + g.val)).held = true)) ∧ (∀ k < 48, s.isDo (48 * g.val + k) = true → t.swIsOn (48 * g.val + k) = false) ∧
        ∀ k < 6, t.bit (rBank_BK_STAT (6 * g.val + k)) 0 = false)

/-- Analogue channels: the conversion sequence, a slot's word, read-back, loop supply, trim. derived: R34, R299, R300,
R301, R307, R309, R310, R311, R315, R449, spec/02_register_model_host.md, spec/11_analogue_channels.md. -/
def Obligations.AnalogueChannels : Prop :=
  ∀ s : State, s.fieldLive = true →
    (∀ (b : Fin 24) (drift : BitVec 16) (mainOk sarOk : Bool), s.seqUsed b.val = true →
      (s.bit (rBank_SEQ_CFG b.val) 0 = false → (s.bank b.val).todo = [] → (s.bank b.val).slotAt < 2 ^ 64 →
        ∃ t, exec (.analogSeqStart b drift mainOk sarOk) s = .next t ∧ Keeps (only [.regs, .mem, .eng, .flt, .mer, .field]) s t ∧ (t.bank b.val).todo = s.seqChans b.val ∧
          t.now = max s.now (s.bank b.val).slotAt ∧ (t.bank b.val).slotAt = t.now + 30000 ∧ t.fld (rBank_REF_DRIFT b.val) 0 16 = drift.toNat ∧ t.bit (rBank_CONV_STAT b.val) 0 = mainOk ∧
          t.bit (rBank_CONV_STAT b.val) 1 = sarOk ∧ t.bit (rBank_CONV_STAT b.val) 3 = decide (s.seqChans b.val ≠ [])) ∧
      (s.bit (rBank_SEQ_CFG b.val) 0 = true → (s.bank b.val).todo ≠ [] →
        (s.bank b.val).seen < (s.timer (s.fld (rBank_SEQ_CFG b.val) 1 6)).fired →
          ∃ t, exec (.analogSeqStart b drift mainOk sarOk) s = .next t ∧ Keeps (only [.regs, .mem, .eng, .flt, .mer, .field]) s t ∧ (t.bank b.val).todo = (s.bank b.val).todo ∧
            (t.det (768 + 2 * b.val)).held = true)) ∧
    (∀ (b : Fin 24) (c : Conv) n rest, (s.bank b.val).todo = n :: rest → (s.bank b.val).slotAt + s.slotTicks n < 2 ^ 64 → s.forced n = false →
      ∃ t, exec (.analogSlotEnd b c) s = .next t ∧ Keeps (only [.regs, .mem, .eng, .flt, .mer, .field, .free]) s t ∧ (t.bank b.val).todo = rest ∧ (t.bank b.val).slotAt = t.now ∧
        t.now = max s.now ((s.bank b.val).slotAt + s.slotTicks n) ∧
        t.imgRd (8 * n) = mkCsw (s.localA n) (s.selfId n) (t.ch n).word.1 t.sf (t.ch n).word.2) ∧
    (∀ (n : Fin 192) (v : BitVec 16) compliance limit, (s.role n.val = 13 ∨ s.role n.val = 14) → (s.ch n.val).measAt + 10000 < 2 ^ 64 →
      ∃ t, exec (.aoReadbackMeasure n v compliance limit) s = .next t ∧ Keeps (only [.regs, .mem, .eng, .flt, .mer, .field]) s t ∧ (t.ch n.val).meas = v.toNat ∧
        (t.ch n.val).measAt = t.now ∧ t.now = max s.now ((s.ch n.val).measAt + 10000)) ∧
    (∀ n : Fin 192, s.role n.val = 9 → s.bit (rCh_AN_CFG n.val) 11 = true → (s.ch n.val).fold = none →
      ∃ t, exec (.loopSupplyFoldback n) s = .next t ∧ Keeps (only [.regs, .mem, .eng, .flt, .field]) s t ∧ (t.ch n.val).fold = some s.now ∧ hasKind (t.ch n.val).wl 8 = true) ∧
    (∀ (n : Fin 192) t0 held, (s.ch n.val).fold = some t0 → t0 + ms 1000 < 2 ^ 64 →
      ∃ t, exec (.loopSupplyRetry n held) s = .next t ∧ Keeps (only [.regs, .mem, .eng, .flt, .mer, .field]) s t ∧ t.now = max s.now (t0 + ms 1000) ∧
        (t.ch n.val).fold = if held then some t.now else none) ∧
    (∀ (m : Master) (n : Fin 192) (ref : BitVec 16), Admitted s m (rCh_TRIM_CMD n.val) (s.privAt m (rCh_TRIM_CMD n.val)) → s.lcProvDep = true →
      s.modeIs .operate = true → s.isAi n.val = true → (s.ch n.val).trimAt = none →
        (∀ v, s.trimOf n.val 1 ref.toNat = .ok v → ∃ t, exec (.trimZero m n ref) s = .next t ∧ Keeps (only [.regs, .mem, .host, .flt, .cfg, .field]) s t ∧ (t.ch n.val).trimAt = some s.now ∧
          t.cfg.queue.map (·.2) = s.cfg.queue.map (·.2) ++ [.trim n.val v.1 v.2.1 v.2.2 false]) ∧
        (∀ r, s.trimOf n.val 1 ref.toNat = .error r → ∃ t, exec (.trimZero m n ref) s = .next t ∧ Keeps (only [.regs, .mem, .host, .flt, .cfg, .field]) s t ∧
          t.cfg.queue = s.cfg.queue ∧ (t.rd (rCh_TRIM_STAT n.val)).toNat = r) ∧
        (∀ v, s.trimOf n.val 2 ref.toNat = .ok v → ∃ t, exec (.trimSpan m n ref) s = .next t ∧ Keeps (only [.regs, .mem, .host, .flt, .cfg, .field]) s t ∧ (t.ch n.val).trimAt = some s.now ∧
          t.cfg.queue.map (·.2) = s.cfg.queue.map (·.2) ++ [.trim n.val v.1 v.2.1 v.2.2 false]) ∧
        ((s.ch n.val).x ≠ none → ∃ t, exec (.trimClear m n) s = .next t ∧ Keeps (only [.regs, .mem, .host, .flt, .cfg, .field]) s t ∧ (t.ch n.val).trimAt = some s.now ∧
          t.cfg.queue.map (·.2) = s.cfg.queue.map (·.2) ++ [.trim n.val 0 0 0 false]) ∧
        ((s.ch n.val).x = none → ∃ t, exec (.trimClear m n) s = .next t ∧ Keeps (only [.regs, .mem, .host, .flt, .cfg, .field]) s t ∧ t.cfg.queue = s.cfg.queue ∧
          (t.rd (rCh_TRIM_STAT n.val)).toNat = 1)) ∧
    (∀ (n : Fin 192) (span same : Bool) (p t0 len : Nat) v,
      let k := s.fld (rCh_TRIM_BTN n.val) (8 * b2n span) 8
      (s.ch k).press = some (t0, len) → k < 192 → s.role k = 1 → (s.ch n.val).pressUsed < t0 + 1 → ms 2000 ≤ len → len ≤ ms 10000 →
        let gate := s.lcProvDep = true ∧ s.modeIs .operate = true ∧ s.chOwner n.val = some p ∧ s.chOwner k = some p ∧ s.ptMode p = 2
        (s.chOwner n.val = some p → ¬ gate →
          ∃ t, exec (.trimButton n ⟨span, same⟩) s = .next t ∧ Keeps (only [.regs, .mem, .cfg, .field]) s t ∧ t.regs = s.regs ∧ t.cfg = s.cfg) ∧
        (gate → s.isAi n.val = true → (s.ch n.val).trimAt = none →
          s.trimOf n.val (1 + b2n span) (s.fld (rCh_TRIM_REFS n.val) (16 * b2n span) 16) = .ok v →
          ∃ t, exec (.trimButton n ⟨span, same⟩) s = .next t ∧ Keeps (only [.regs, .mem, .cfg, .field]) s t ∧ (t.ch n.val).pressUsed = t0 + 1 ∧
            (same = false → t.cfg.queue.map (·.2) = s.cfg.queue.map (·.2) ++ [.trim n.val v.1 v.2.1 v.2.2 true]) ∧
            (same = true → t.cfg.queue = s.cfg.queue ∧ (t.rd (rCh_TRIM_STAT n.val)).toNat = 11)))

/-- Timer channels: arm, stop, pop, capture, set, match, overflow. derived: R34, R320, R329, R330, R331, R333, R334,
R336, R339, spec/02_register_model_host.md, spec/12_meridian_timers.md. -/
def Obligations.TimerChannels : Prop :=
  ∀ (s : State) (t : Fin 48),
    let x := s.timer t.val
    (∀ m, Admitted s m (rTmr_T_CMD t.val) (s.privAt m (rTmr_T_CMD t.val)) →
      (s.tSeq t.val = false → s.tMode t.val ≠ 0 →
        ∃ y, exec (.timerArm m t) s = .next y ∧ Keeps (only [.regs, .host, .cfg, .tim]) s y ∧
          (y.timer t.val).run = (if s.tHeld t.val = true then .frozen else .running) ∧ (y.timer t.val).cnt = (s.rd (rTmr_PHASE t.val)).toNat ∧
          (y.timer t.val).base = match s.fld (rTmr_T_CFG t.val) 7 2 with
            | 1 => (s.now / 6250 + 1) * 6250
            | 2 => (s.now / (6250 * 2 ^ s.mfLog2) + 1) * (6250 * 2 ^ s.mfLog2)
            | _ => s.now + 1) ∧
      (s.tSeq t.val = false → s.tMode t.val = 0 →
        ∃ y, exec (.timerArm m t) s = .next y ∧ Keeps (only [.regs, .host, .cfg, .tim]) s y ∧ ∀ r, y.timer r = s.timer r) ∧
      (s.tSeq t.val = true → ∀ c, c = .timerArm m t ∨ c = .timerStop m t →
        ∃ y, exec c s = .next y ∧ WriteDenied s y m (rTmr_T_CMD t.val) ∧ ∀ r, y.timer r = s.timer r) ∧
      (s.tSeq t.val = false →
        ∃ y, exec (.timerStop m t) s = .next y ∧ Keeps (only [.regs, .host, .cfg, .tim]) s y ∧ (y.timer t.val).run = .idle ∧
          (y.timer t.val).cnt = s.tValue t.val ∧ (y.timer t.val).q = x.q) ∧
      (∃ y, exec (.timerPop m t) s = .next y ∧ Keeps (only [.regs, .host, .cfg, .tim]) s y ∧ y.timer t.val = { x with q := x.q.drop 1 } ∧
        ∀ r, r ≠ t.val → y.timer r = s.timer r) ∧
      (x.q.length < 4 →
        ∃ y, exec (.timerCapture m t) s = .next y ∧ Keeps (only [.regs, .host, .cfg, .tim]) s y ∧ y.timer t.val = { x with
          q := x.q ++ [BitVec.ofNat 32 (if s.bit (rTmr_CAP_CFG t.val) 16 = true then s.now else s.tValue t.val)] }) ∧
      (4 ≤ x.q.length →
        ∃ y, exec (.timerCapture m t) s = .next y ∧ Keeps (only [.regs, .host, .cfg, .flt]) s y ∧ y.bit (rTmr_T_STAT t.val) 7 = true ∧
          (y.det (880 + t.val)).held = true)) ∧
    (∀ m (v : BitVec 32), Admitted s m (rTmr_CNT_SET t.val) (s.privAt m (rTmr_CNT_SET t.val)) →
      (s.tSeq t.val = false →
        ∃ y, exec (.timerCntSet m t v) s = .next y ∧ Keeps (only [.regs, .mem, .host, .flt, .log, .cfg, .tim]) s y ∧ (y.timer t.val).cnt = v.toNat ∧
          (s.tChain t.val = false → s.bit (rTmr_TRIG t.val) 6 = false → (y.timer t.val).base = max x.base s.now)) ∧
      (s.tSeq t.val = true →
        ∃ y, exec (.timerCntSet m t v) s = .next y ∧ WriteDenied s y m (rTmr_CNT_SET t.val) ∧ ∀ r, y.timer r = s.timer r)) ∧
    ((t.val + 1 < 48 → s.tChain (t.val + 1) = false) →
      (s.tCounting t.val (s.tGoal t.val) = true → s.tAt t.val (s.tGoal t.val) < 2 ^ 64 → s.bit (rTmr_TRIG t.val) 6 = false →
        ∃ y, exec (.timerMatch t) s = .next y ∧ Keeps (only [.regs, .mem, .host, .flt, .log, .mer, .tim]) s y ∧
          y.now = max s.now (s.tAt t.val (s.tGoal t.val)) ∧
          y.bit (rTmr_T_STAT t.val) 4 = true ∧ (y.rd (rTmr_MATCH_CNT t.val)).toNat = min ((s.rd (rTmr_MATCH_CNT t.val)).toNat + 1) (2 ^ 32 - 1) ∧
          (y.timer t.val).cnt = (if s.tMode t.val = 2 then 0 else s.tCmp t.val) ∧
          (y.timer t.val).run = (if s.tMode t.val = 3 then .done else .running) ∧ (y.timer t.val).fired = x.fired + 1) ∧
      (s.tCounting t.val (2 ^ 32) = true → (s.tMode t.val = 1 ∨ s.tCmp t.val < x.cnt) → s.tAt t.val (2 ^ 32) < 2 ^ 64 →
        s.bit (rTmr_TRIG t.val) 7 = false →
          (s.tCmp t.val ≤ x.cnt → s.tCmp t.val ≠ 0 ∨ s.tMode t.val = 2 →
            ∃ y, exec (.timerOverflow t) s = .next y ∧ Keeps (only [.regs, .mer, .tim]) s y ∧
              y.now = max s.now (s.tAt t.val (2 ^ 32)) ∧ y.bit (rTmr_T_STAT t.val) 5 = true ∧ (y.timer t.val).cnt = 0 ∧
              (y.timer t.val).run = .running ∧ (y.timer t.val).fired = x.fired) ∧
          (x.cnt < s.tCmp t.val ∨ (s.tCmp t.val = 0 ∧ s.tMode t.val ≠ 2) → s.bit (rTmr_TRIG t.val) 6 = false →
            ∃ y, exec (.timerOverflow t) s = .next y ∧ Keeps (only [.regs, .mem, .host, .flt, .log, .mer, .tim]) s y ∧
              y.bit (rTmr_T_STAT t.val) 4 = true ∧ y.bit (rTmr_T_STAT t.val) 5 = true ∧ (y.timer t.val).cnt = 0 ∧ (y.timer t.val).fired = x.fired + 1)))

/-- Meridian: adjustment cycles, the two copies, loss of sync, a large offset. derived: R319, R322, R323, R324,
spec/12_meridian_timers.md. -/
def Obligations.MeridianSync : Prop :=
  ∀ s : State,
    (s.mer.slew ≠ 0 → s.synced = true → s.modeIs .dormant = false → s.now + 2000 < 2 ^ 64 →
      ∃ t, exec .meridianAdjust s = .next t ∧ Keeps (only [.regs, .flt, .mer]) s t ∧ s.now ≤ t.now ∧ t.mer.slew = s.mer.slew - s.mer.slew.sign ∧
        t.now % 1000 = (if 0 < s.mer.slew then 102 else 101)) ∧
    (s.mer.slew = 0 ∨ s.synced = false ∨ s.modeIs .dormant = true → exec .meridianAdjust s = .next s) ∧
    (∀ d : BitVec 64, d ≠ 0 →
      ∃ t, exec (.merDupMismatch d) s = .next t ∧ Keeps (only [.regs, .flt, .mer]) s t ∧ t.mer = { s.mer with dup := s.mer.now + d } ∧ (t.det 930).held = true) ∧
    (s.syncState = 2 → s.modeIs .dormant = false → s.mer.lastSync + 25000 < 2 ^ 64 →
      ∃ t, exec .syncLossTimeout s = .next t ∧ Keeps (only [.regs, .flt, .mer]) s t ∧ t.syncState = 3 ∧ t.now = max s.now (s.mer.lastSync + 25000) ∧
        (t.det 928).held = true) ∧
    (∀ t0, s.syncState = 2 → s.modeIs .dormant = false → s.mer.offSince = some t0 → s.mer.offHigh = false → t0 + 100000 < 2 ^ 64 →
      ∃ t, exec .offsetHighTimeout s = .next t ∧ Keeps (only [.regs, .flt, .mer]) s t ∧ t.now = max s.now (t0 + 100000) ∧ t.syncState = 2 ∧
        t.mer.offHigh = true ∧ (t.det 929).held = true)

/-- Critical sources take the safe state; messages are accepted, counted and acted on. derived: R14, R16, R454, R456,
R457, R459, R464, R468, R470, spec/01_architecture.md, spec/17_fault_handling.md. -/
def Obligations.CriticalSources : Prop :=
  ∀ s : State,
    (s.dev.pllLocked = true →
      ∃ t, exec .pllLockLoss s = .next t ∧ Keeps (only [.dev, .regs, .mem, .host, .eng, .flt, .log, .mer, .fab, .net, .ngl]) s t ∧ t.dev.pllLocked = false ∧
        (s.modeIs .dormant = false → SafeStateTaken s t ∧ t.alm 0 = .alarm ∧ (s.alm 0 = .normal → (t.det 0).held = true))) ∧
    (∀ k : Fin 18, s.almActs k.val = true →
      ∃ t, exec (.alarmPairAssert k) s = .next t ∧ Keeps (only [.dev, .regs, .mem, .host, .eng, .flt, .log, .mer, .fab, .net]) s t ∧ SafeStateTaken s t ∧ t.alm k.val = .alarm ∧ t.bit rFlt0_RAIL_STAT k.val = true ∧
        (s.alm k.val = .normal → (t.det k.val).held = true)) ∧
    (∀ k : Fin 18, s.almActs k.val = false → exec (.alarmPairAssert k) s = .next s ∧ exec (.criticalMonitorTrip k) s = .next s) ∧
    (∀ k : Fin 32, s.almActs k.val = true →
      ∃ t, exec (.alarmPairBroken k) s = .next t ∧ Keeps (only [.dev, .regs, .mem, .host, .eng, .flt, .log, .mer, .fab, .net]) s t ∧ SafeStateTaken s t ∧ t.alm k.val = .broken ∧
        t.bit rFlt0_RAIL_BROKEN k.val = true ∧ (k.val < 18 → s.alm k.val = .normal → (t.det k.val).held = true)) ∧
    (∀ k : Fin 32, s.almActs k.val = false → exec (.alarmPairBroken k) s = .next s) ∧
    (s.flt.running = true →
      ∃ t, exec (.fltShadowSweep true) s = .next t ∧ Keeps (only [.dev, .regs, .mem, .host, .eng, .flt, .log, .mer, .fab, .net]) s t ∧ t.flt.shadowOk = false ∧
        (s.modeIs .dormant = false → SafeStateTaken s t ∧ (s.alm 5 = .normal → (t.det 5).held = true))) ∧
    exec (.fltShadowSweep false) s = .next s ∧
    (∀ k : Fin 18, s.almActs k.val = true →
      ((1 ≤ k.val ∧ k.val ≤ 4) ∨ k.val = 7 ∨ k.val = 12 →
        ∃ t, exec (.criticalMonitorTrip k) s = .next t ∧ Keeps (only [.dev, .regs, .mem, .host, .eng, .flt, .log, .mer, .fab, .net]) s t ∧ SafeStateTaken s t ∧ t.alm k.val = .alarm ∧
          (s.alm k.val = .normal → (t.det k.val).held = true)) ∧
      (k.val = 0 ∨ k.val = 5 ∨ k.val = 6 ∨ 13 ≤ k.val → exec (.criticalMonitorTrip k) s = .next s)) ∧
    (∀ (k : Fin 18) (n : Nat), k.val = 8 + n → n < 4 → s.almActs k.val = true →
      (s.cmode n = 3 ∨ (s.core (2 * n)).reexec = true →
        ∃ t, exec (.criticalMonitorTrip k) s = .next t ∧ Keeps (only [.dev, .regs, .mem, .host, .eng, .flt, .log, .mer, .fab, .net]) s t ∧ t.cmode n = 3 ∧ SafeStateTaken s t ∧
          (s.alm k.val = .normal → (t.det k.val).held = true)) ∧
      (s.cmode n ≠ 3 → (s.core (2 * n)).reexec = false → exec (.criticalMonitorTrip k) s = .next s)) ∧
    (∀ (src : Fin 1024) (good : Bool) (lat : BitVec 12), s.modeIs .dormant = true ∨ s.flt.running = false ∨ (s.det src.val).held = false → exec (.faultMessage src good lat) s = .next s) ∧
    (∀ (src : Fin 1024) (lat : BitVec 12), s.flt.running = true → s.modeIs .dormant = false → (s.det src.val).held = true →
      (∃ t, exec (.faultMessage src true lat) s = .next t ∧ Keeps (only [.dev, .regs, .mem, .host, .eng, .flt, .log, .mer, .fab, .net]) s t ∧ t.bit (rFlt1_STICKY (src.val / 32)) (src.val % 32) = true ∧
        (t.fcnt src.val).total = min ((s.fcnt src.val).total + 1 + (s.det src.val).rep) (2 ^ 32 - 1) ∧
        t.rd64 rFlt0_BUS_MSG_LO = (s.rd64 rFlt0_BUS_MSG_LO + 1) % 2 ^ 64 ∧ (∀ n, n ≠ src.val → t.fcnt n = s.fcnt n) ∧
        (polBase (s.pol src.val) = 4 → SafeStateTaken s t)) ∧
      (∃ t, exec (.faultMessage src false lat) s = .next t ∧ Keeps (only [.dev, .regs, .mem, .host, .eng, .flt, .log, .mer, .fab, .net]) s t ∧ (t.det src.val).held = true ∧
        (t.det src.val).bad = ((s.det src.val).bad + 1) % 3 ∧
        (t.rd rFlt0_BUS_ERR).toNat = min ((s.rd rFlt0_BUS_ERR).toNat + 1) (2 ^ 32 - 1) ∧ ((s.det src.val).bad = 2 → s.alm 6 = .normal → (t.det 6).held = true)))

/-- Counter clears, policy writes and injection. derived: R34, R35, R463, R467, R473, R474, R475, R476, R480,
spec/02_register_model_host.md, spec/17_fault_handling.md. -/
def Obligations.FaultControl : Prop :=
  ∀ (s : State) (m : Master),
    (Admitted s m rFlt2_CNT_CMD (s.holdsMA m) →
      (∀ hit, ∃ t, exec (.cntClear m hit) s = .next t ∧ Keeps (only [.regs, .mem, .host, .flt, .log, .cfg]) s t ∧
        let n := s.fld rFlt2_CNT_SEL 0 10
        t.fcnt n = { s.fcnt n with ws := 0, wcnt := 0, esc := false } ∧ (∀ k, k ≠ n → t.fcnt k = s.fcnt k) ∧ (hit = true → (t.det n).held = true)) ∧
      ∃ t, exec (.cntClearAll m) s = .next t ∧ Keeps (only [.regs, .mem, .host, .flt, .log, .cfg]) s t ∧ ∀ n < 1024, t.fcnt n = { s.fcnt n with ws := 0, wcnt := 0, esc := false }) ∧
    (∀ (hi : Bool) (v : BitVec 32),
      let a := if hi then rFlt3_POL_HI else rFlt3_POL_LO
      let n := s.fld rFlt3_POL_SEL 0 10
      let new := if hi then setBits (s.pol n) 32 27 (natBits v.toNat 0 27) else setBits (s.pol n) 0 32 v.toNat
      Admitted s m a (s.privAt m a) →
        (s.locked a = false → s.polOk n new = true →
          ∃ t, exec (.policyWrite m hi v) s = .next t ∧ Keeps (only [.regs, .host, .flt, .cfg]) s t ∧ t.pol n = setBits new 59 1 (b2n (liveCap n)) ∧
            ∀ k, k ≠ n → t.pol k = s.pol k) ∧
        ((s.locked a = true ∧ new ≠ s.pol n) ∨ (s.locked a = false ∧ s.polOk n new = false) →
          ∃ t, exec (.policyWrite m hi v) s = .next t ∧ WriteDenied s t m a ∧ ∀ k, t.pol k = s.pol k)) ∧
    (∀ (pg : Fin 448) (v : BitVec 32), (pageBlock pg.val).isSome = true → s.asleep (rPg_INJ_KEY pg.val) = false →
      ∃ t, exec (.injKeyWrite m pg v) s = .next t ∧ Keeps (only [.regs, .host, .flt, .cfg]) s t ∧
        (v.toNat = 0x494E0000 + pg.val → t.injArmed m pg.val = true ∧ (t.inj pg.val).armedUntil = s.now + 100000) ∧
        (v.toNat ≠ 0x494E0000 + pg.val → (t.inj pg.val).armedBy = none)) ∧
    (∀ pg : Fin 448, (s.inj pg.val).armedBy ≠ none → s.modeIs .dormant = false → (s.inj pg.val).armedUntil < 2 ^ 64 →
      ∃ t, exec (.injArmExpire pg) s = .next t ∧ Keeps (only [.flt, .mer]) s t ∧ (t.inj pg.val).armedBy = none ∧ t.now = max s.now (s.inj pg.val).armedUntil) ∧
    (∀ (pg : Fin 448) (v : BitVec 32), (pageBlock pg.val).isSome = true →
      Admitted s m (rPg_INJ_CTRL pg.val) (if pg.val = 0x073 then s.holdsAdmin m else s.privAt m (rPg_INJ_CTRL pg.val)) →
      s.expertAt m (rPg_INJ_CTRL pg.val) = true →
        let n := v.toNat % 1024
        let r := s.injResult m pg.val n (natBits v.toNat 16 2) (natBits v.toNat 20 12)
        ∃ t, exec (.injectGo m pg v) s = .next t ∧ Keeps (only [.regs, .mem, .host, .flt, .cfg]) s t ∧ (t.inj pg.val).result = r ∧
          (r ≠ 0 → (t.inj pg.val).go = (s.inj pg.val).go ∧ t.cfg.queue = s.cfg.queue) ∧
          (r = 0 → (t.inj pg.val).go = some (n, natBits v.toNat 10 6, decide (natBits v.toNat 16 2 = 2), natBits v.toNat 20 12) ∧
            (t.inj pg.val).armedBy = none ∧ t.cfg.queue.map (·.2) = s.cfg.queue.map (·.2) ++ [.inject pg.val])) ∧
    (∀ (pg : Fin 448) x, (s.inj pg.val).hold = some x →
      ∃ t, exec (.injectHoldEnd pg) s = .next t ∧ Keeps (only [.regs, .mem, .eng, .flt, .mer, .field]) s t ∧ (t.inj pg.val).hold = none ∧ (t.inj pg.val).done = true)

/-- The states of a fabric port: enable, detect, train, align, check, retry, retrain, link down. derived: R34, R346,
R352, R359, R374, R376, R377, spec/02_register_model_host.md, spec/13_uhlilo_fabric.md. -/
def Obligations.PortStates : Prop :=
  ∀ (s : State) (p : Fin 8),
    let x := s.port p.val
    (s.trainMode = true → s.bit (rPort_PT_CFG p.val) 0 = true → s.portState p.val = 0 →
      ∃ t, exec (.portEnable p) s = .next t ∧ Keeps (only [.regs, .fab]) s t ∧ t.portState p.val = 1) ∧
    (s.trainMode = false ∨ s.bit (rPort_PT_CFG p.val) 0 = false ∨ s.portState p.val ≠ 0 → exec (.portEnable p) s = .next s) ∧
    (s.portState p.val ≠ 1 → exec (.linkSignalDetect p) s = .next s ∧ exec (.trainRetry p) s = .next s) ∧
    (∀ h0 h1 w0 w1, s.portState p.val ≠ 2 → exec (.linkTrained p h0 h1 w0 w1) s = .next s) ∧
    (s.portState p.val ≠ 3 → exec (.linkAligned p) s = .next s ∧ (s.portState p.val ≠ 2 → exec (.trainFail p) s = .next s)) ∧
    (s.portState p.val ≠ 4 → exec (.helloTimeout p) s = .next s) ∧
    (∀ fec, s.portUp p.val = false → exec (.linkDownDetect p fec) s = .next s) ∧
    (s.portState p.val = 1 → x.retryAt = none → s.modeIs .dormant = false → x.since + 10000 < 2 ^ 64 →
      ∃ t, exec (.linkSignalDetect p) s = .next t ∧ Keeps (only [.regs, .mer, .fab]) s t ∧ t.portState p.val = 2 ∧ t.now = max s.now (x.since + 10000)) ∧
    (∀ (h0 h1 : BitVec 8) (w0 w1 : BitVec 10), s.portState p.val = 2 →
      let eyes := (portLanes p.val).zip [h0.toNat, h1.toNat]
      ∃ t, exec (.linkTrained p h0 h1 w0 w1) s = .next t ∧ Keeps (only [.regs, .fab]) s t ∧
        t.portState p.val = (if (eyes.all fun e => decide (s.fld (rLane_LN_CFG e.1) 16 8 ≤ e.2)) = true then 3 else 2) ∧
        ∀ e ∈ eyes, (t.rd (rLane_EYE_H e.1)).toNat = e.2) ∧
    (s.portState p.val = 3 →
      ∃ t, exec (.linkAligned p) s = .next t ∧ Keeps (only [.regs, .host, .flt, .fab, .net]) s t ∧ t.portState p.val = 4 ∧
        (s.fabAuth = false → ∃ bs, bs.length = 32 ∧ t.host.out = s.host.out ++ [.ctl p.val 0x84 bs])) ∧
    (s.portState p.val = 2 → s.modeIs .dormant = false → x.since + 2000000 < 2 ^ 64 →
      ∃ t, exec (.trainFail p) s = .next t ∧ Keeps (only [.regs, .flt, .mer, .fab]) s t ∧ t.portState p.val = 1 ∧ t.now = max s.now (x.since + 2000000) ∧
        (t.port p.val).retryAt = some (t.now + 10000000) ∧ (t.det (257 + 8 * p.val)).held = true) ∧
    (s.portState p.val = 3 → s.modeIs .dormant = false → x.since + 200000 < 2 ^ 64 →
      ∃ t, exec (.trainFail p) s = .next t ∧ Keeps (only [.regs, .flt, .mer, .fab]) s t ∧ t.portState p.val = 1 ∧ t.now = max s.now (x.since + 200000) ∧
        (t.det (257 + 8 * p.val)).held = true) ∧
    (∀ t0, x.retryAt = some t0 → s.portState p.val = 1 → s.modeIs .dormant = false → t0 < 2 ^ 64 →
      ∃ t, exec (.trainRetry p) s = .next t ∧ Keeps (only [.mer, .fab]) s t ∧ (t.port p.val).retryAt = none ∧ (t.port p.val).since = max s.now t0) ∧
    (s.portState p.val = 4 → s.modeIs .dormant = false → x.since + 10000 < 2 ^ 64 →
      ∃ t, exec (.helloTimeout p) s = .next t ∧ Keeps (only [.regs, .flt, .mer, .fab]) s t ∧ t.portState p.val = 6 ∧ t.now = max s.now (x.since + 10000) ∧
        (t.det (261 + 8 * p.val)).held = true) ∧
    (∀ m, Admitted s m (rPort_CMD p.val) (s.privAt m (rPort_CMD p.val)) →
      ∃ t, exec (.portRetrain m p) s = .next t ∧ Keeps (only [.regs, .host, .flt, .cfg, .fab]) s t ∧
        t.portState p.val = if s.portState p.val = 6 then 1 else s.portState p.val) ∧
    (s.portUp p.val = true → s.modeIs .dormant = false → x.lastRx + 200 < 2 ^ 64 →
      ∃ t, exec (.linkDownDetect p false) s = .next t ∧ Keeps (only [.regs, .host, .eng, .flt, .mer, .fab, .net, .free]) s t ∧ t.portState p.val = 1 ∧ t.now = max s.now (x.lastRx + 200) ∧
        t.rd64 (rPort_DOWN_TIME_LO p.val) = t.now ∧ (t.det (256 + 8 * p.val)).held = true ∧
        (t.rd (rPort_DOWN_CNT p.val)).toNat = min ((s.rd (rPort_DOWN_CNT p.val)).toNat + 1) (2 ^ 32 - 1)) ∧
    (s.portUp p.val = true →
      ∃ t, exec (.linkDownDetect p true) s = .next t ∧ Keeps (only [.regs, .host, .eng, .flt, .mer, .fab, .net, .free]) s t ∧ t.portState p.val = 1 ∧ t.now = s.now ∧
        t.rd64 (rPort_DOWN_TIME_LO p.val) = s.now ∧ (t.det (256 + 8 * p.val)).held = true ∧
        (t.rd (rPort_DOWN_CNT p.val)).toNat = min ((s.rd (rPort_DOWN_CNT p.val)).toNat + 1) (2 ^ 32 - 1) ∧
        ((x.fecAt.filter fun a => s.now < a + 200).length < 4 → (t.det (258 + 8 * p.val)).held = true)) ∧
    (∀ (l : Fin 12) (h : BitVec 8) (w : BitVec 10),
      let port := if l.val < 8 then l.val / 2 else l.val - 4
      (h.toNat < s.fld (rLane_LN_CFG l.val) 24 8 →
        ∃ t, exec (.eyeLow l h w) s = .next t ∧ Keeps (only [.regs, .flt]) s t ∧ (t.rd (rLane_EYE_H l.val)).toNat = h.toNat ∧
          (s.eyeLow port = false → (t.det (262 + 8 * port)).held = true)) ∧
      (s.fld (rLane_LN_CFG l.val) 24 8 ≤ h.toNat → exec (.eyeLow l h w) s = .next s))

/-- Control blocks: HELLO, HEARTBEAT, LINK_NOTICE, TOKEN; the hand-back of a token. derived: R34, R346, R351, R352,
R359, R368, R371, R372, R373, spec/02_register_model_host.md, spec/13_uhlilo_fabric.md. -/
def Obligations.PortBlocks : Prop :=
  ∀ (s : State) (p : Fin 8) (bs : List Byte) (ln : RxLine),
    (s.portUp p.val = true → BlockOk s p.val 0x81 bs ln →
      ∃ t, exec (.heartbeatReceive p bs ln) s = .next t ∧ Keeps (only [.regs, .flt, .fab]) s t ∧ (t.port p.val).lastRx = s.now ∧ t.flt = s.flt ∧
        t.rd (rPort_CRC_ERR p.val) = s.rd (rPort_CRC_ERR p.val)) ∧
    (s.portUp p.val = true → ln.bad ≠ 0 →
      ∃ t, exec (.heartbeatReceive p bs ln) s = .next t ∧ Keeps (only [.regs, .flt, .fab]) s t ∧ (t.port p.val).lastRx = (s.port p.val).lastRx ∧
        (t.rd (rPort_FEC_UNCORR p.val)).toNat = min ((s.rd (rPort_FEC_UNCORR p.val)).toNat + ln.bad) (2 ^ 32 - 1) ∧
        t.rd (rPort_CRC_ERR p.val) = s.rd (rPort_CRC_ERR p.val) ∧ (t.det (258 + 8 * p.val)).held = true) ∧
    (s.portUp p.val = true → ln.bad = 0 → leAt bs 12 4 ≠ (crc32c (bs.take 12)).toNat →
      ∃ t, exec (.heartbeatReceive p bs ln) s = .next t ∧ Keeps (only [.regs, .flt, .fab]) s t ∧ t.flt = s.flt ∧
        (t.rd (rPort_CRC_ERR p.val)).toNat = min ((s.rd (rPort_CRC_ERR p.val)).toNat + 1) (2 ^ 32 - 1)) ∧
    (s.portUp p.val = true → BlockOk s p.val 0x84 bs ln →
      ∃ t, exec (.helloReceive p bs ln) s = .next t ∧ Keeps (only [.regs, .host, .flt, .fab, .net]) s t ∧ t.portState p.val = 5 ∧ t.flt = s.flt ∧
        (s.fabAuth = false → ∃ b, t.host.out = s.host.out ++ [.ctl p.val 0x84 b])) ∧
    (s.portState p.val = 4 → BlockOk s p.val 0x84 bs ln →
      (s.helloOk p.val bs = true →
        ∃ t, exec (.helloReceive p bs ln) s = .next t ∧ Keeps (only [.regs, .host, .flt, .fab, .net]) s t ∧
          (2 ≤ (s.port p.val).hellos → t.portState p.val = 5 ∧ (t.port p.val).wasUp = true ∧ t.fld (rPort_PT_STAT p.val) 16 12 = cbOrigin bs) ∧
          ((s.port p.val).hellos < 2 → t.portState p.val = 4 ∧ (t.port p.val).hellos = (s.port p.val).hellos + 1)) ∧
      (s.helloOk p.val bs = false →
        ∃ t, exec (.helloReceive p bs ln) s = .next t ∧ Keeps (only [.regs, .host, .flt, .fab, .net]) s t ∧ t.portState p.val = 6 ∧ (t.det (261 + 8 * p.val)).held = true)) ∧
    (s.portUp p.val = true → BlockOk s p.val 0x82 bs ln →
      ∃ t, exec (.linkNoticeReceive p bs ln) s = .next t ∧ Keeps (only [.regs, .host, .eng, .flt, .fab, .net, .free]) s t ∧ (cbOrigin bs % 32, cbPort bs) ∈ t.fab.notices) ∧
    (s.portUp p.val = true → BlockOk s p.val 0x83 bs ln →
      let home := leAt bs 11 1 % 32
      let part := leAt bs 10 1 % 16
      let e := leAt bs 6 4
      let o := cbOrigin bs
      let old := Tab.get (fun _ => (0, 0)) s.fab.seen (16 * home + part)
      ∃ t, exec (.tokenReceive p bs ln) s = .next t ∧ Keeps (only [.regs, .host, .flt, .fab, .net]) s t ∧
        Tab.get (fun _ => (0, 0)) t.fab.seen (16 * home + part) = (if tokWins e o old.1 old.2 = true then (e, o) else old) ∧
        ∀ q, s.tokLocal home part = some q →
          t.tok q = (if tokWins e o (s.tok q).epoch (s.tok q).owner = true then ⟨e, o, decide (o = s.self), false⟩ else s.tok q) ∧
          ∀ r, r ≠ q → t.tok r = s.tok r) ∧
    (∀ (m : Master) (q : Fin 16), Admitted s m rFab_TOKEN_CMD (s.holdsAdmin m) → s.hasTok q.val = true → (s.tok q.val).held = true →
      s.bit rEph_MIR_RX_CFG q.val = true →
        ∃ t, exec (.tokenHandback m q) s = .next t ∧ Keeps (only [.regs, .host, .flt, .cfg, .fab]) s t ∧ t.tok q.val = { s.tok q.val with back := true } ∧
          ∀ r, r ≠ q.val → t.tok r = s.tok r)

/-- The image and spine classes: windows, frames, deadlines, views, lost planes. derived: R16, R347, R354, R355, R356,
R358, R360, R362, R366, R367, spec/01_architecture.md, spec/13_uhlilo_fabric.md. -/
def Obligations.ImageClasses : Prop :=
  ∀ s : State, s.trainMode = true →
    (∀ spine : Bool, (if spine then s.isBridge else s.conf s.selfPos) = true →
      let at_ := s.tickAt (if spine then 50 + 300 * s.selfRing else 50 + 70 * s.selfPos)
      at_ < 2 ^ 64 →
        ∃ t, exec (.imageWindowStart spine) s = .next t ∧ Keeps (only [.regs, .host, .flt, .mer, .fab, .net]) s t ∧ t.now = max s.now at_ ∧
          (s.fabAuth = false → ∀ p ∈ (if spine then s.spinePorts else s.ringPorts), s.portUp p = true →
            ∃ bs, Out.frame p (if spine then 3 else 2) 0 bs ∈ t.host.out)) ∧
    (∀ (p : Fin 8) (bs : List Byte) (ln : RxLine), s.portUp p.val = true → frTyp bs = 2 → portSpine p.val = false →
      (ln.bad ≠ 0 ∨ frCrcOk bs = false) →
        ∃ t, exec (.imageFrameReceive p bs ln) s = .next t ∧ Keeps (only [.regs, .mem, .host, .eng, .flt, .cfg, .fab, .net]) s t ∧ t.fab.frames = s.fab.frames ∧ t.mem = s.mem ∧
          (t.det ((if ln.bad = 0 then 259 else 258) + 8 * p.val)).held = true) ∧
    (∀ (p : Fin 8) (bs : List Byte) (ln : RxLine), FrameOk s p.val 2 50 3350 bs ln → portSpine p.val = false →
      frOrigin bs / 32 = s.dev.slot.toNat / 32 → s.otherMember false (frOrigin bs % 32) = true → payloadOk false (frPayload bs) = true →
        ∃ t, exec (.imageFrameReceive p bs ln) s = .next t ∧ Keeps (only [.regs, .mem, .host, .eng, .flt, .cfg, .fab, .net]) s t ∧
          t.fab.frames = s.fab.frames ++ [⟨false, portPlane p.val, frOrigin bs % 32, frPayload bs⟩]) ∧
    (∀ (p : Fin 8) (bs : List Byte) (ln : RxLine) (v : Nat) (w : Csw), FrameOk s p.val 3 50 5625 bs ln → portSpine p.val = true →
      frOrigin bs / 512 = s.selfCluster → s.otherMember true (frOrigin bs / 32 % 16) = true → payloadOk true (frPayload bs) = true →
      s.rxEntries true (frOrigin bs / 32 % 16) = [v] → s.fabDual = false → s.modeIs .harebell = false → 2 * feSlot v + 1 ∉ s.fab.written →
      payloadWord true (frPayload bs) (feWord v) = some w → cswValid aT w (feId v) = true →
      (feReq v = true → payloadSafe (frPayload bs) (feWord v) = true) →
        ∃ t, exec (.spineFrameReceive p bs ln) s = .next t ∧ Keeps (only [.regs, .mem, .host, .eng, .flt, .cfg, .fab, .net]) s t ∧ t.imgRd (fabAt (feSlot v)) = fixQual (feId v) w ∧
          ∀ x, x < fabAt (feSlot v) ∨ fabAt (feSlot v) + 8 ≤ x → Mem.byte t.mem.img x = Mem.byte s.mem.img x) ∧
    (∀ (spine : Bool) (k : Fin 32), s.otherMember spine k.val = true → (spine, k.val) ∉ s.fab.passed → s.tickAt (s.deadline spine k.val) < 2 ^ 64 →
      ∃ t, exec (.writeDeadline spine k) s = .next t ∧ Keeps (only [.regs, .mem, .eng, .flt, .mer, .fab]) s t ∧ t.now = max s.now (s.tickAt (s.deadline spine k.val)) ∧
        (spine, k.val) ∈ t.fab.passed ∧
        ∀ v x y, s.rxEntries spine k.val = [v] → s.tokenAllows v = true → s.fabDual = true → s.planeCopy spine k.val 0 v = some x →
          s.planeCopy spine k.val 1 v = some y →
            (x.1 ≠ y.1 → t.imgRd (fabAt (feSlot v)) = mkCsw aT (feId v) 0 t.sf .fault ∧ (t.det 322).held = true) ∧
            (x.1 = y.1 → s.modeIs .harebell = false → (feReq v = true → x.2 = true) → t.imgRd (fabAt (feSlot v)) = x.1)) ∧
    (∀ (spine : Bool) (k : Fin 32) v x, s.otherMember spine k.val = true → (spine, k.val) ∉ s.fab.passed →
      s.tickAt (s.deadline spine k.val) < 2 ^ 64 → s.rxEntries spine k.val = [v] → s.tokenAllows v = true → s.fabDual = true →
      s.planeCopy spine k.val 0 v = some x → s.planeCopy spine k.val 1 v = none → s.modeIs .harebell = false → (feReq v = true → x.2 = true) →
        ∃ t, exec (.writeDeadline spine k) s = .next t ∧ Keeps (only [.regs, .mem, .eng, .flt, .mer, .fab]) s t ∧ t.imgRd (fabAt (feSlot v)) = x.1 ∧
          (t.rd rFab_PLANE_B_FAIL).toNat = min ((s.rd rFab_PLANE_B_FAIL).toNat + 1) (2 ^ 32 - 1)) ∧
    (s.rd rFab_CONF_MAP ≠ 0 → s.isBridge = true → s.tickAt 5625 < 2 ^ 64 →
      ∃ t, exec (.imageClassEnd true) s = .next t ∧ Keeps (only [.dev, .regs, .mem, .host, .eng, .flt, .log, .mer, .tim, .lcs, .fab, .net, .free]) s t ∧ t.now = max s.now (s.tickAt 5625) ∧
        t.fld rFab_SPINE_VIEW 0 16 = s.seenOn true 0 s.spineM % 65536 ∧ ∀ f ∈ t.fab.frames, f.spine = false) ∧
    (s.rd rFab_CONF_MAP ≠ 0 → s.tickAt 3350 < 2 ^ 64 →
      ∃ t, exec (.imageClassEnd false) s = .next t ∧ Keeps (only [.dev, .regs, .mem, .host, .eng, .flt, .log, .mer, .tim, .lcs, .fab, .net, .free]) s t ∧ t.now = max s.now (s.tickAt 3350) ∧
        (t.rd rFab_VIEW_A).toNat = s.seenOn false 0 32 ∧ t.bit rFab_FAB_STAT 9 = s.ringQuorum (s.seenOn false 0 32) ∧
        ∀ f ∈ t.fab.frames, f.spine = true) ∧
    (∀ pl : Fin 2, s.planeOn pl.val = true → 4 ≤ Tab.get (fun _ => 0) s.fab.bad pl.val → Tab.get (fun _ => false) s.fab.loss pl.val = false →
      ∃ t, exec (.planeLoss pl) s = .next t ∧ Keeps (only [.dev, .regs, .mem, .host, .eng, .flt, .log, .mer, .fab, .net]) s t ∧ Tab.get (fun _ => false) t.fab.loss pl.val = true ∧
        (t.det (320 + pl.val)).held = true ∧
        (s.modeIs .operate = true → (s.fabDual = false ∧ pl = 0 ∨ Tab.get (fun _ => false) s.fab.loss (1 - pl.val) = true) → t.dev.mode = .harebell)) ∧
    (s.rd rFab_CONF_MAP ≠ 0 → s.fld rFab_FAB_STAT 0 2 ≠ 2 → 330 ∉ s.fab.unformed → s.fab.syncAt + 80000000 < 2 ^ 64 →
      ∃ t, exec .ringUnformed s = .next t ∧ Keeps (only [.regs, .flt, .mer, .fab]) s t ∧ t.now = max s.now (s.fab.syncAt + 80000000) ∧ 330 ∈ t.fab.unformed ∧ (t.det 330).held = true) ∧
    (s.isBridge = true → s.bit rFab_FAB_STAT 11 = false → 331 ∉ s.fab.unformed → s.fab.syncAt + 150000000 < 2 ^ 64 →
      ∃ t, exec .spineUnformed s = .next t ∧ Keeps (only [.regs, .flt, .mer, .fab]) s t ∧ t.now = max s.now (s.fab.syncAt + 150000000) ∧ 331 ∈ t.fab.unformed ∧ (t.det 331).held = true)

/-- SYNC, mirror and event frames. derived: R170, R181, R183, R350, R353, R354, R364, R487,
spec/07_coelostat_lockstep.md, spec/13_uhlilo_fabric.md, spec/18_logbook_events.md. -/
def Obligations.FabricData : Prop :=
  ∀ (s : State) (p : Fin 8) (bs : List Byte) (ln : RxLine),
    let pl := frPayload bs
    (∀ frac : Fin 64, FrameOk s p.val 1 0 50 bs ln → frLen bs = 32 →
      ∃ t, exec (.syncFrameReceive p bs ln frac) s = .next t ∧ Keeps (only [.dev, .regs, .mem, .host, .eng, .flt, .log, .cfg, .mer, .tim, .lcs, .fab, .net, .vern, .ngl]) s t ∧ (t.port p.val).t4 = 64 * s.now + frac.val ∧
        (t.port p.val).t4Sf = s.sf) ∧
    (s.trainMode = true → s.bit rFab_FAB_CFG 21 = true → s.tickAt 3350 < 2 ^ 64 →
      ∃ t, exec .mirrorClassStart s = .next t ∧ Keeps (only [.regs, .host, .eng, .flt, .mer, .fab, .net]) s t ∧ t.now = max s.now (s.tickAt 3350) ∧ t.eng.mirTx = 0 ∧
        (s.eng.mirOut = [] → t.eng.mirOut = []) ∧
        ∀ x, s.eng.mirOut = [x] → x.resync = none → x.sent = 0 → 0 < x.len → x.len ≤ 16384 → s.buddyPort ≠ none → t.eng.mirOut = []) ∧
    (∀ q : Fin 16, s.bit rEph_MIR_TX_CFG q.val = true →
      ∃ t, exec (.mirrorResync q) s = .next t ∧ Keeps (only [.regs, .eng, .flt]) s t ∧ q.val ∈ t.eng.resync ∧
        ∃ x, t.eng.mirOut.getLast? = some x ∧ x.part = q.val ∧ x.gen = (s.part q.val).gen ∧ x.sent = 0 ∧ x.resync.isSome = true) ∧
    (FrameOk s p.val 4 3350 5625 bs ln → 16 ≤ frLen bs → frOrigin bs = s.slotAt s.buddyPos → s.bit rFab_FAB_CFG 21 = true →
      (s.eng.mirRx = none → leAt pl 4 4 = 0 → ((pl.drop 16).take (min 16384 (leAt pl 8 4))).length < leAt pl 8 4 →
        let data := (pl.drop 16).take (min 16384 (leAt pl 8 4))
        ∃ t, exec (.mirrorFrameReceive p bs ln) s = .next t ∧ Keeps (only [.regs, .mem, .eng, .flt, .cfg, .fab]) s t ∧ { t.mem with eph := s.mem.eph } = s.mem ∧
          Mem.bytes t.mem.eph (mirInAt (leAt pl 0 4 % 2)) data.length = data ∧
          t.eng.mirRx = some ⟨leAt pl 0 4, leAt pl 8 4, data.length, []⟩) ∧
      (∀ x, s.eng.mirRx = some x → x.gen = leAt pl 0 4 → x.total = leAt pl 8 4 → x.count = leAt pl 4 4 → x.count ≠ 0 →
        let data := (pl.drop 16).take (min 16384 (leAt pl 8 4 - leAt pl 4 4))
        x.count + data.length < x.total → x.count + data.length ≤ 0x100000 →
          ∃ t, exec (.mirrorFrameReceive p bs ln) s = .next t ∧ Keeps (only [.regs, .mem, .eng, .flt, .cfg, .fab]) s t ∧ { t.mem with eph := s.mem.eph } = s.mem ∧
            Mem.bytes t.mem.eph (mirInAt (x.gen % 2) + x.count) data.length = data ∧
            t.eng.mirRx = some { x with count := x.count + data.length }) ∧
      (leAt pl 4 4 ≠ 0 → (∀ x, s.eng.mirRx = some x → x.gen ≠ leAt pl 0 4 ∨ x.total ≠ leAt pl 8 4 ∨ x.count ≠ leAt pl 4 4) →
        ∃ t, exec (.mirrorFrameReceive p bs ln) s = .next t ∧ Keeps (only [.regs, .mem, .eng, .flt, .cfg, .fab]) s t ∧ t.mem = s.mem ∧ t.eng.mirRx = none ∧
          (t.det 203).held = true ∧ (t.rd rEph_MIR_GAP_CNT).toNat = min ((s.rd rEph_MIR_GAP_CNT).toNat + 1) (2 ^ 32 - 1))) ∧
    (s.mirrorLate bs ln p.val = true → 16 ≤ frLen bs → frOrigin bs = s.slotAt s.buddyPos → s.bit rFab_FAB_CFG 21 = true →
      ∃ t, exec (.mirrorFrameReceive p bs ln) s = .next t ∧ Keeps (only [.regs, .mem, .eng, .flt, .cfg, .fab]) s t ∧ t.mem = s.mem ∧ t.eng.mirRx = none ∧
        (t.det 203).held = true ∧ (t.rd rEph_MIR_GAP_CNT).toNat = min ((s.rd rEph_MIR_GAP_CNT).toNat + 1) (2 ^ 32 - 1)) ∧
    (FrameOk s p.val 5 5625 6250 bs ln → 2 ≤ frHops bs → frOrigin bs ≠ s.dev.slot.toNat → s.portUp (portOpp p.val) = true →
      s.fabAuth = false →
        ∃ t b, exec (.eventFrameReceive p bs ln) s = .next t ∧ Keeps (only [.regs, .mem, .host, .flt, .cfg, .fab, .net]) s t ∧ t.mem = s.mem ∧
          t.host.out = s.host.out ++ [.frame (portOpp p.val) 5 0 b] ∧ frHops b = frHops bs - 1 ∧ frPayload b = pl) ∧
    (FrameOk s p.val 5 5625 6250 bs ln → frHops bs = 1 → s.bit rLog_LOG_CFG 7 = true →
      let n := min (leAt pl 0 8) ((frLen bs - 8) / 32)
      ∃ t, exec (.eventFrameReceive p bs ln) s = .next t ∧ Keeps (only [.regs, .mem, .host, .flt, .cfg, .fab, .net]) s t ∧
        (1 ≤ n → t.fab.collect = (s.fab.collect + n) % 4096 ∧ t.fld rLog_COLL_WP 0 12 = (s.fab.collect + n) % 4096) ∧
        (n = 1 → Mem.bytes t.mem.logm (0x3C0000 + 64 * (s.fab.collect % 4096) + 32) 32 = (pl.drop 8).take 32))

/-- Image sets and the buddy's image: the events class, votes, COMMIT, ABORT, time limits. derived: R354, R444, R445,
R446, R447, spec/13_uhlilo_fabric.md, spec/16_partitions_configuration.md. -/
def Obligations.ImageSets : Prop :=
  ∀ (s : State) (p : Fin 8) (bs : List Byte) (ln : RxLine),
    let pl := frPayload bs
    (s.trainMode = false → exec .eventsClassStart s = .next s) ∧
    (s.trainMode = true → s.tickAt 5625 < 2 ^ 64 →
      ∃ t, exec .eventsClassStart s = .next t ∧ Keeps (only [.regs, .mem, .host, .flt, .cfg, .mer, .fab, .net]) s t ∧ t.now = max s.now (s.tickAt 5625) ∧ t.fab.bulk = [] ∧
        ∀ b ∈ s.fab.bulk, ∀ q ∈ s.ringPorts, s.portUp q = true → s.fabAuth = false → ∃ bs, Out.frame q 6 (leAt b 2 2) bs ∈ t.host.out) ∧
    (BulkOk s p.val 1 bs ln →
      ∃ t, exec (.almReqReceive p bs ln) s = .next t ∧ Keeps (only [.regs, .host, .flt, .cfg, .fab, .net]) s t ∧
        t.cfg.almSend = if s.buddyLen = 0 then s.cfg.almSend else some (frOrigin bs, leAt pl 8 4)) ∧
    (BulkOk s p.val 2 bs ln → s.modeIs .sync = true → s.cfg.inForce = false → s.cfg.checked = false → leAt pl 12 4 ≤ 0x800080 →
      leAt pl 8 4 ≤ leAt pl 12 4 → s.cfg.staging = true → s.cfg.almLen = leAt pl 12 4 → s.cfg.almNext = leAt pl 8 4 →
        let data := (pl.drop 24).take (leAt pl 12 4 - leAt pl 8 4)
        ∃ t, exec (.almDataReceive p bs ln) s = .next t ∧ Keeps (only [.regs, .mem, .host, .flt, .cfg, .fab, .net]) s t ∧ t.cfg.almNext = leAt pl 8 4 + data.length ∧
          Mem.bytes t.mem.flash (s.staged + leAt pl 8 4) data.length = data) ∧
    (BulkOk s p.val 2 bs ln → s.cfg.inForce = true → leAt pl 12 4 ≤ 0x800080 → leAt pl 8 4 ≤ leAt pl 12 4 → s.bit rFab_FAB_CFG 21 = true →
      frOrigin bs = s.slotAt s.buddyPos →
        let data := (pl.drop 24).take (leAt pl 12 4 - leAt pl 8 4)
        ∃ t, exec (.almDataReceive p bs ln) s = .next t ∧ Keeps (only [.regs, .mem, .host, .flt, .cfg, .fab, .net]) s t ∧ t.cfg = s.cfg ∧
          Mem.bytes t.mem.flash (0x2000000 + leAt pl 8 4) data.length = data) ∧
    (BulkOk s p.val 3 bs ln → s.setMatch pl = true → s.isCoord = true → frOrigin bs ∈ s.setMembers → s.cfg.switchT = none →
      (leAt pl 1 1 = 0 → ∃ t, exec (.voteReceive p bs ln) s = .next t ∧ Keeps (only [.regs, .mem, .host, .flt, .cfg, .fab, .net]) s t ∧ t.cfg.staging = false ∧ t.cfg.votes = []) ∧
      (leAt pl 1 1 ≠ 0 → ∃ t, exec (.voteReceive p bs ln) s = .next t ∧ Keeps (only [.regs, .mem, .host, .flt, .cfg, .fab, .net]) s t ∧ t.cfg.staging = s.cfg.staging ∧
        (frOrigin bs, leAt pl 1 1, leAt pl 16 8) ∈ t.cfg.votes)) ∧
    (BulkOk s p.val 4 bs ln → s.setMatch pl = true → s.cfg.yesAt ≠ none → s.cfg.switchT = none → s.now ≤ leAt pl 16 8 →
      leAt pl 16 8 % 1600000 = 0 →
        ∃ t, exec (.commitMsgReceive p bs ln) s = .next t ∧ Keeps (only [.regs, .host, .flt, .cfg, .fab, .net]) s t ∧ t.cfg.switchT = some (leAt pl 16 8) ∧
          t.rd64 rCfg_SW_TIME_LO = leAt pl 16 8) ∧
    (BulkOk s p.val 5 bs ln → s.setMatch pl = true →
      ∃ t, exec (.abortReceive p bs ln) s = .next t ∧ Keeps (only [.regs, .mem, .host, .flt, .cfg, .fab, .net]) s t ∧ t.cfg.staging = false ∧ t.cfg.switchT = none) ∧
    (s.modeIs .sync = true → s.cfg.inForce = false → s.now + 1600000 < 2 ^ 64 →
      ∃ t, exec .almReqSend s = .next t ∧ Keeps (only [.mer, .fab]) s t ∧ t.now = (s.now / 1600000 + 1) * 1600000 ∧
        t.fab.bulk.length = s.fab.bulk.length + 1) ∧
    (s.modeIs .sync = false ∨ s.cfg.inForce = true → exec .almReqSend s = .next s) ∧
    (s.cfg.yesAt = none ∨ s.cfg.switchT ≠ none ∨ s.modeIs .dormant = true → exec .setVoteTimeout s = .next s ∧ exec .setAbort s = .next s) ∧
    (∀ t0, s.cfg.yesAt = some t0 → s.cfg.switchT = none → s.isCoord = true → s.modeIs .dormant = false → t0 + 200000000 < 2 ^ 64 →
      ∃ t, exec .setVoteTimeout s = .next t ∧ Keeps (only [.regs, .mem, .cfg, .mer, .fab]) s t ∧ t.now = max s.now (t0 + 200000000) ∧ t.cfg.staging = false) ∧
    (∀ t0, s.cfg.yesAt = some t0 → s.cfg.switchT = none → s.modeIs .dormant = false → t0 + 1000000000 < 2 ^ 64 →
      ∃ t, exec .setAbort s = .next t ∧ Keeps (only [.regs, .mem, .flt, .cfg, .mer]) s t ∧ t.now = max s.now (t0 + 1000000000) ∧ t.cfg.staging = false ∧ (t.det 953).held = true)

/-- Safe frames and keys: sending, receiving, watchdog, RESTART, key actions, RETIRE, the IV's high-water mark.
derived: R34, R382, R384, R385, R386, R387, R389, R391, R392, R393, R449, spec/02_register_model_host.md. -/
def Obligations.SafeFrames : Prop :=
  (∀ (s : State) (c : Fin 64), (s.conn c.val).cfg.getLsbD 0 = true → (s.conn c.val).cfg.getLsbD 1 = true → (s.conn c.val).sends = true →
    (s.modeIs .operate = true ∨ s.modeIs .harebell = true ∨ s.modeIs .halted = true) → s.txNext c.val < 2 ^ 64 →
    ((s.conn c.val).auth = false ∨
      (s.advanceTo (s.txNext c.val)).ivHeld = false ∧ ((s.advanceTo (s.txNext c.val)).txSlot c.val).isSome = true) →
      ∃ t, exec (.safeFrameSend c) s = .next t ∧ Keeps (only [.regs, .host, .flt, .mer, .net]) s t ∧ t.now = max s.now (s.txNext c.val) ∧ (t.conn c.val).sent = true ∧
        (t.conn c.val).seqL = (if (s.conn c.val).sent then ((s.conn c.val).seqL + 1) % 2 ^ 32 else t.sf % 2 ^ 32) ∧
        ∀ k < 2, (s.conn c.val).paths k = true → s.ethUp k = true → ∃ bs, Out.eth k bs ∈ t.host.out) ∧
  (∀ (s : State) (c : Fin 64), ((s.conn c.val).cfg.getLsbD 0 = false ∨ (s.conn c.val).cfg.getLsbD 1 = false ∨ (s.conn c.val).sends = false ∨
    s.modeIs .operate = false ∧ s.modeIs .harebell = false ∧ s.modeIs .halted = false) → exec (.safeFrameSend c) s = .next s) ∧
  (∀ (s : State) (k : Fin 2) (udp : Bool) (bs : List Byte), s.ethUp k.val = true →
    let find := (List.range 64).find? fun c => s.consumer c && (s.conn c).paths k.val && (s.conn c).udp = udp && (s.conn c).id = leAt bs 4 4
    (find = none →
      ∃ t, exec (.safeFrameReceive k udp bs) s = .next t ∧ Keeps (only [.regs, .mem, .host, .eng, .flt, .log, .net]) s t ∧ t.net = s.net ∧ t.mem = s.mem ∧
        (t.rd rSafe_UNKNOWN_CNT).toNat = min ((s.rd rSafe_UNKNOWN_CNT).toNat + 1) (2 ^ 32 - 1)) ∧
    (∀ c, find = some c → (s.conn c).st = 2 →
      (∀ n, s.copyFault c bs = some n →
        ∃ t, exec (.safeFrameReceive k udp bs) s = .next t ∧ Keeps (only [.regs, .mem, .host, .eng, .flt, .log, .net]) s t ∧ (t.det n).held = true ∧ (t.conn c).st = 2 ∧ t.mem = s.mem) ∧
      (s.copyFault c bs = none → ((s.conn c).tsL = 0 ∨ pdSeq bs ≠ (s.conn c).seqL) → (s.conn c).tsL < pdTs bs →
        ∃ t, exec (.safeFrameReceive k udp bs) s = .next t ∧ Keeps (only [.regs, .mem, .host, .eng, .flt, .log, .net]) s t ∧ (t.conn c).st = 2 ∧ (t.conn c).seqL = pdSeq bs ∧
          (t.conn c).tsL = pdTs bs ∧
          ∀ id req i slot, s.connEntries c = [(id, req, i, slot)] →
            let w : Csw := BitVec.ofNat 64 (leAt bs (40 + 8 * i) 8)
            cswValid aT w id = true → (req = true → natBit (leAt bs 32 8) i = true) → t.imgRd (0x21000 + 8 * slot) = fixQual id w) ∧
      (s.copyFault c bs = none → (s.conn c).tsL ≠ 0 → pdSeq bs = (s.conn c).seqL → pdWords bs = (s.conn c).held →
        ∃ t, exec (.safeFrameReceive k udp bs) s = .next t ∧ Keeps (only [.regs, .mem, .host, .eng, .flt, .log, .net]) s t ∧ t.mem = s.mem ∧ (t.conn c).st = 2 ∧
          (t.conn c).dup = satAdd 32 (s.conn c).dup 1) ∧
      (s.copyFault c bs = none → (s.conn c).tsL ≠ 0 → pdSeq bs = (s.conn c).seqL → pdWords bs ≠ (s.conn c).held →
        ∃ t, exec (.safeFrameReceive k udp bs) s = .next t ∧ Keeps (only [.regs, .mem, .host, .eng, .flt, .log, .net]) s t ∧ (t.conn c).st = 4 ∧ (t.det 366).held = true ∧
          ∀ id req i slot, s.connEntries c = [(id, req, i, slot)] → t.imgRd (0x21000 + 8 * slot) = mkCsw aT id 0 t.sf .fault) ∧
      (s.copyFault c bs = none → pdSeq bs ≠ (s.conn c).seqL → pdTs bs ≤ (s.conn c).tsL →
        ∃ t, exec (.safeFrameReceive k udp bs) s = .next t ∧ Keeps (only [.regs, .mem, .host, .eng, .flt, .log, .net]) s t ∧ t.mem = s.mem ∧
          t.conn c = { s.conn c with old := satAdd 32 (s.conn c).old 1 }))) ∧
  (∀ (s : State) (c : Fin 64), s.consumer c.val = true →
      let x := s.conn c.val
      let due := if x.st = 2 then x.tsL + 100 * x.wd - 400 else x.waitAt + 100 * x.wd
      ((x.st = 1 ∨ x.st = 2) → s.modeIs .dormant = false → due < 2 ^ 64 →
        ∃ t, exec (.connTimeout c) s = .next t ∧ Keeps (only [.regs, .mem, .eng, .flt, .mer, .net]) s t ∧ t.now = max s.now due ∧ (t.conn c.val).st = 3 ∧
          (t.det 360).held = true) ∧
      (x.st ≠ 1 → x.st ≠ 2 → exec (.connTimeout c) s = .next s)) ∧
  (∀ (s : State) (m : Master) (c : Fin 64), Admitted s m rSafe_CMD (s.privAt m rSafe_CMD) →
      ∃ t, exec (.connRestart m c) s = .next t ∧ Keeps (only [.regs, .host, .flt, .cfg, .net]) s t ∧
        (t.conn c.val).st = if (s.conn c.val).st = 4 then 1 else (s.conn c.val).st) ∧
  (∀ (s : State) (m : Master), s.modeIs .dormant = false → s.mayWrite m rKeys_KEY_CMD (s.holdsAdmin m) = true → s.keyBusy = false →
    (s.keyRefused = false →
      ∃ t, exec (.keyLoad m) s = .next t ∧ Keeps (only [.regs, .mem, .host, .flt, .cfg]) s t ∧ t.fld rKeys_KEY_STAT 2 3 = 0 ∧
        t.cfg.queue.map (·.2) = s.cfg.queue.map (·.2) ++ [.keyLoad s.keyOwner s.keyIdx s.keyData (s.rd rKeys_KEY_EPOCH).toNat
          (s.rd64 rKeys_KEY_START_LO) (s.rd64 rKeys_KEY_RETIRE_LO)]) ∧
    (s.keyRefused = true →
      ∃ t, exec (.keyLoad m) s = .next t ∧ Keeps (only [.regs, .mem, .host, .flt, .cfg]) s t ∧ t.fld rKeys_KEY_STAT 2 3 = 2 ∧ t.cfg.queue = s.cfg.queue) ∧
    (∃ t, exec (.keyErase m) s = .next t ∧ Keeps (only [.regs, .mem, .host, .flt, .cfg]) s t ∧ if s.keyOwner < 72 then t.fld rKeys_KEY_STAT 2 3 = 0 ∧
      t.cfg.queue.map (·.2) = s.cfg.queue.map (·.2) ++ [.keyErase s.keyOwner s.keyIdx]
      else t.fld rKeys_KEY_STAT 2 3 = 2 ∧ t.cfg.queue = s.cfg.queue) ∧
    (∃ t, exec (.keySetRetire m) s = .next t ∧ Keeps (only [.regs, .mem, .host, .flt, .cfg]) s t ∧ if s.keyOwner < 72 then t.fld rKeys_KEY_STAT 2 3 = 0 ∧
      t.cfg.queue.map (·.2) = s.cfg.queue.map (·.2) ++ [.keySetRetire s.keyOwner s.keyIdx (s.rd64 rKeys_KEY_RETIRE_LO)]
      else t.fld rKeys_KEY_STAT 2 3 = 2 ∧ t.cfg.queue = s.cfg.queue)) ∧
  (∀ (s : State) (m : Master) c, c = .keyLoad m ∨ c = .keyErase m ∨ c = .keySetRetire m → s.modeIs .dormant = false →
    s.mayWrite m rKeys_KEY_CMD (s.holdsAdmin m) = true → s.keyBusy = true →
      ∃ t, exec c s = .next t ∧ t.fld rKeys_KEY_STAT 2 3 = 3 ∧ t.cfg.queue = s.cfg.queue) ∧
  (∀ (s : State) (o : Fin 72) (k : Fin 2), (s.keySlot o.val k.val).present = true → (s.keySlot o.val k.val).retire ≠ 0 →
    s.modeIs .dormant = false → (s.keySlot o.val k.val).retire < 2 ^ 64 →
      ∃ t, exec (.keyRetired o k) s = .next t ∧ Keeps (only [.regs, .flt, .mer, .net]) s t ∧ t.keySlot o.val k.val = KeySlot.reset ∧
        t.now = max s.now (s.keySlot o.val k.val).retire ∧ (t.det 372).held = true) ∧
  (∀ s : State, (s.ivHeld = false → s.modeIs .dormant = false → max s.now (s.hwm - 1) + 360000000000 < 2 ^ 64 →
      ∃ t, exec .hwmUpdate s = .next t ∧ Keeps (only [.regs, .mer, .net]) s t ∧ t.now = max s.now (s.hwm - 1) ∧ t.hwm = t.now + 360000000000) ∧
    (s.ivHeld = true ∨ s.modeIs .dormant = true → exec .hwmUpdate s = .next s))

/-- Ethernet ports: link, ARP, PTP, discarded frames. derived: R378, R394, R395, R397, R398,
spec/14_safe_frames_ethernet.md. -/
def Obligations.Ethernet : Prop :=
  ∀ (s : State) (k : Fin 2),
    let udp := anyBelow 64 fun c => (s.conn c).cfg.getLsbD 0 && (s.conn c).udp && (s.conn c).paths k.val
    let inc := fun (t : State) (a : Nat) => (t.rd a).toNat = min ((s.rd a).toNat + 1) (2 ^ 32 - 1)
    (s.ethOn k.val = true →
      (s.linksOn = true → ∃ t, exec (.ethLinkChange k true true) s = .next t ∧ Keeps (only [.regs, .flt, .net]) s t ∧ t.bit (rEth_ETH_STAT k.val) 0 = true ∧ t.flt = s.flt) ∧
      (s.linksOn = true → ∃ t, exec (.ethLinkChange k true false) s = .next t ∧ Keeps (only [.regs, .flt, .net]) s t ∧ t.bit (rEth_ETH_STAT k.val) 0 = false ∧
        (t.det (352 + 4 * k.val)).held = true) ∧
      ∀ fast, ∃ t, exec (.ethLinkChange k false fast) s = .next t ∧ Keeps (only [.regs, .flt, .net]) s t ∧ t.bit (rEth_ETH_STAT k.val) 0 = false ∧
        (s.bit (rEth_ETH_STAT k.val) 0 = true → (t.det (352 + 4 * k.val)).held = true)) ∧
    (s.ethUp k.val = true →
      (∀ (mac : BitVec 48) (ip target : BitVec 32),
        (udp = true → target.toNat = (s.rd (rEth_IP_ADDR k.val)).toNat →
          ∃ t bs, exec (.arpRequest k mac ip target) s = .next t ∧ Keeps (only [.regs, .host, .net]) s t ∧ t.host.out = s.host.out ++ [.eth k.val bs] ∧
            inc t (rEth_TX_FRAMES k.val) ∧ inc t (rEth_RX_FRAMES k.val)) ∧
        ((udp = false ∨ target.toNat ≠ (s.rd (rEth_IP_ADDR k.val)).toNat) →
          ∃ t, exec (.arpRequest k mac ip target) s = .next t ∧ Keeps (only [.regs, .host, .net]) s t ∧ t.host.out = s.host.out ∧ inc t (rEth_RX_DISCARD k.val))) ∧
      (∀ (dom : BitVec 7) (msg : PtpMsg),
        let ours := s.bit (rEth_ETH_CFG k.val) 7 = true ∧ dom.toNat = s.fld (rEth_ETH_CFG k.val) 9 7 ∧
          msg.udp = s.bit (rEth_ETH_CFG k.val) 8 ∧ msg.kind ≠ .unsupported
        let sends := fun (t : State) (kind time : Nat) => t.host.out = s.host.out ++ [.ptp k.val msg.udp kind time]
        (¬ ours → ∃ t, exec (.ptpMessage k dom msg) s = .next t ∧ Keeps (only [.dev, .regs, .mem, .host, .eng, .flt, .log, .cfg, .mer, .tim, .lcs, .fab, .net, .vern, .ngl]) s t ∧ t.net = s.net ∧ t.host.out = s.host.out ∧
          inc t (rEth_RX_DISCARD k.val)) ∧
        (ours → ∃ t, exec (.ptpMessage k dom msg) s = .next t ∧ Keeps (only [.dev, .regs, .mem, .host, .eng, .flt, .log, .cfg, .mer, .tim, .lcs, .fab, .net, .vern, .ngl]) s t ∧ t.net.ptpAt = s.now ∧ t.net.ptpLost = false ∧
          inc t (rEth_RX_FRAMES k.val) ∧
          (∀ st, msg.kind = .announce st → t.fld (rEth_ETH_STAT k.val) 2 3 = s.ptpShown st.val) ∧
          (s.ptpSlaveAt k.val = true →
            (∀ sub t1, msg.kind = .sync sub (some t1) → sends t 1 (s.ptpTime 0) ∧
              (t.ptpPort k.val).ms = some ((s.ptpTime sub.val : Int) - t1.toNat)) ∧
            (∀ sub, msg.kind = .sync sub none → (t.ptpPort k.val).t2 = some (s.ptpTime sub.val) ∧ t.host.out = s.host.out) ∧
            (∀ t1 t2, msg.kind = .followUp t1 → (s.ptpPort k.val).t2 = some t2 → sends t 1 (s.ptpTime 0) ∧
              (t.ptpPort k.val).ms = some ((t2 : Int) - t1.toNat)) ∧
            (∀ t4 ms, msg.kind = .delayResp t4 → (s.ptpPort k.val).ms = some ms →
              let sm : Int := t4.toNat - (s.ptpPort k.val).t3
              (t.ptpPort k.val).ms = none ∧ t.fld rMer_SYNC_STAT 4 2 = 2 ∧
              ((ms - sm).tdiv 2 < 2 ^ 31 → -(2 ^ 31) ≤ (ms - sm).tdiv 2 →
                (t.rd (rEth_PTP_OFFSET k.val)).toInt = (ms - sm).tdiv 2) ∧
              ((ms + sm).tdiv 2 < 2 ^ 31 → -(2 ^ 31) ≤ (ms + sm).tdiv 2 →
                (t.rd (rEth_PTP_DELAY k.val)).toInt = (ms + sm).tdiv 2))) ∧
          ∀ sub, msg.kind = .delayReq sub → s.ptpState k.val = 3 → sends t 9 (s.ptpTime sub.val))) ∧
      (∃ t, exec (.ethRxDiscard k .fcs) s = .next t ∧ Keeps (only [.regs, .flt]) s t ∧ inc t (rEth_FCS_ERR k.val) ∧ (t.det (354 + 4 * k.val)).held = true) ∧
      (∃ t, exec (.ethRxDiscard k .overflow) s = .next t ∧ Keeps (only [.regs, .flt]) s t ∧ inc t (rEth_RX_FRAMES k.val) ∧ (t.det (355 + 4 * k.val)).held = true) ∧
      (∃ t, exec (.ethRxDiscard k .kind) s = .next t ∧ Keeps (only [.regs, .flt]) s t ∧ inc t (rEth_RX_DISCARD k.val) ∧ t.flt = s.flt) ∧
      ∃ t, exec (.ethRxDiscard k .pcs) s = .next t ∧ Keeps (only [.regs, .flt]) s t ∧ (t.det (353 + 4 * k.val)).held = true) ∧
    (s.net.ptpLost = false → s.tbRuns = true → s.ptpSlave = true → (s.ptpState k.val = 1 ∨ s.ptpState k.val = 2) →
      s.net.ptpAt + 300000000 < 2 ^ 64 →
      ∃ t, exec .ptpLoss s = .next t ∧ Keeps (only [.regs, .flt, .mer, .net]) s t ∧ t.net.ptpLost = true ∧ t.now = max s.now (s.net.ptpAt + 300000000) ∧
        (t.det 369).held = true ∧ ((s.syncState = 2 ∨ s.syncState = 4) → t.syncState = 3))

/-- Random numbers, OTP burns, manual BIST and the proof-test slices. derived: R409, R414, R415, R416, R417, R418,
R419, R421, R422, R431, spec/15_startup_lifecycle.md, spec/16_partitions_configuration.md. -/
def Obligations.RandomAndProof : Prop :=
  ∀ s : State,
    (s.rngReady = false → s.bit rRng_RNG_STAT 2 = false → s.modeIs .dormant = false →
      ∃ t, exec .rngReady s = .next t ∧ Keeps (only [.regs, .cfg, .lcs]) s t ∧ t.rngReady = true ∧ t.bit rRng_RNG_STAT 1 = false) ∧
    (∃ t, exec .rngHealth s = .next t ∧ Keeps (only [.regs, .flt, .lcs]) s t ∧ t.fld rRng_RNG_STAT 0 2 = 2 ∧ t.rd rRng_RNG_DATA = 0 ∧
      (t.rd rRng_HT_FAIL_CNT).toNat = min ((s.rd rRng_HT_FAIL_CNT).toNat + 1) (2 ^ 32 - 1) ∧ (t.det 48).held = true) ∧
    (∀ host, s.rngReady = true →
      ∃ t, exec (.rngReseed host) s = .next t ∧ Keeps (only [.regs, .mer, .lcs]) s t ∧
        (t.rd rRng_RESEED_CNT).toNat = min ((s.rd rRng_RESEED_CNT).toNat + 1) (2 ^ 32 - 1) ∧
        ∀ i, Tab.get (fun _ => 0) t.lcs.reqs i = (if i = b2n host then 0 else Tab.get (fun _ => 0) s.lcs.reqs i) ∧
          Tab.get (fun _ => 0) t.lcs.seeded i = if i = b2n host then t.now else Tab.get (fun _ => 0) s.lcs.seeded i) ∧
    (∀ m,
      (s.rngReady = true → ∃ t, exec (.rngDataRead m) s = .next t ∧ Keeps (only [.regs, .host, .lcs]) s t ∧
        t.host.out = s.host.out ++ [.rdata m ((s.rd rRng_RNG_DATA).setWidth 64)] ∧ t.rd rRng_RNG_DATA = (Config.drbg s.lcs.draws).setWidth 32 ∧
        t.lcs.draws = s.lcs.draws + 1) ∧
      (s.rngReady = false → ∃ t, exec (.rngDataRead m) s = .next t ∧ Keeps (only [.regs, .host, .lcs]) s t ∧ t.host.out = s.host.out ++ [.rdata m 0] ∧
        t.rd rRng_RNG_DATA = s.rd rRng_RNG_DATA ∧ t.lcs = s.lcs)) ∧
    (∀ m ok, s.modeIs .boot = false → s.modeIs .dormant = false → s.holdsAdmin m = false →
      ∃ t, exec (.otpBurn m ok) s = .next t ∧ Keeps (only [.regs, .mem, .host, .flt, .cfg, .lcs]) s t ∧ t.lcs = s.lcs ∧ (t.rd rOtp_BURN_STAT).toNat = 83) ∧
    (∀ m, s.modeIs .boot = false → s.holdsAdmin m = true → Admitted s m rOtp_BURN_CMD true → s.expertAt m rOtp_BURN_CMD = true →
      let w := s.fld rOtp_BURN_ADDR 0 8
      let d := s.rd rOtp_BURN_DATA
      (∀ ok, burnReason s.lc w ≠ 0 → ∃ t, exec (.otpBurn m ok) s = .next t ∧ Keeps (only [.regs, .mem, .host, .flt, .cfg, .lcs]) s t ∧ t.lcs = s.lcs ∧
        (t.rd rOtp_BURN_STAT).toNat = 3 + 16 * burnReason s.lc w) ∧
      (burnReason s.lc w = 0 →
        (∀ ok, s.otpWord w &&& ~~~ d ≠ 0 → ∃ t, exec (.otpBurn m ok) s = .next t ∧ Keeps (only [.regs, .mem, .host, .flt, .cfg, .lcs]) s t ∧ t.lcs = s.lcs ∧
          (t.rd rOtp_BURN_STAT).toNat = 35) ∧
        (s.otpWord w &&& ~~~ d = 0 →
          (∃ t, exec (.otpBurn m true) s = .next t ∧ Keeps (only [.regs, .mem, .host, .flt, .cfg, .lcs]) s t ∧ (∀ x, t.otpWord x = if x = w then d else s.otpWord x) ∧
            (t.rd rOtp_BURN_STAT).toNat = 2) ∧
          ∃ t, exec (.otpBurn m false) s = .next t ∧ Keeps (only [.regs, .mem, .host, .flt, .cfg, .lcs]) s t ∧ t.lcs = s.lcs ∧ (t.det 35).held = true ∧
            (t.rd rOtp_BURN_STAT).toNat = 67)) ∧
      (s.lc = 1 → w ∈ s.lcs.weak →
        ∃ t, exec (.otpReburn m true) s = .next t ∧ Keeps (only [.regs, .mem, .host, .flt, .cfg, .lcs]) s t ∧ t.lcs.weak = s.lcs.weak.filter (fun x => decide (x ≠ w)) ∧
          (∀ x, t.otpWord x = s.otpWord x) ∧ (t.rd rOtp_BURN_STAT).toNat = 2 ∧
          (t.rd rOtp_WEAK_ADDR).toNat = match t.lcs.weak with
            | [] => 0
            | x :: _ => (x + 256 * b2n (t.lcs.weakHi.contains x) + 512) % 2 ^ 32)) ∧
    (∀ m pass c, s.lc = 0 → s.modeIs .dormant = false → c = .manBistLogic m pass ∨ c = .manBistMemory m pass →
      (m = .spi → (s.sess .spi).role = 0 → (s.modeIs .sync || s.modeIs .halted) = true → (pageBlock (s.fld rLcs_MAN_SEL 0 9)).isSome = true →
        ∃ t, exec c s = .next t ∧ Keeps (only [.dev, .regs, .mem, .host, .eng, .flt, .log, .cfg, .mer, .fab, .net]) s t ∧ t.dev.mode = .halted ∧ (t.rd rLcs_MAN_STAT).toNat = if pass then 2 else 4) ∧
      (m ≠ .spi ∨ (s.sess .spi).role ≠ 0 → ∃ t, exec c s = .next t ∧ Keeps (only [.dev, .regs, .mem, .host, .eng, .flt, .log, .cfg, .mer, .fab, .net]) s t ∧ t.dev = s.dev ∧ (t.rd rLcs_MAN_STAT).toNat = 8)) ∧
    (∀ m pass, Admitted s m rLcs_MAN_CMD (s.holdsAdmin m) → s.expertAt m rLcs_MAN_CMD = true →
      (∀ c, c = .manBistLogic m pass ∨ c = .manBistMemory m pass →
        ((s.lc = 1 ∨ s.lc = 3) → (s.modeIs .sync || s.modeIs .halted) = true → (pageBlock (s.fld rLcs_MAN_SEL 0 9)).isSome = true →
          ∃ t, exec c s = .next t ∧ Keeps (only [.dev, .regs, .mem, .host, .eng, .flt, .log, .cfg, .mer, .fab, .net]) s t ∧ t.dev.mode = .halted ∧ (t.rd rLcs_MAN_STAT).toNat = if pass then 2 else 4) ∧
        (s.lc = 2 → ∃ t, exec c s = .next t ∧ Keeps (only [.dev, .regs, .mem, .host, .eng, .flt, .log, .cfg, .mer, .fab, .net]) s t ∧ t.dev = s.dev ∧ (t.rd rLcs_MAN_STAT).toNat = 8))) ∧
    (∀ u : Fin 6, s.sliceOk u.val = true →
      let k := Tab.get (fun _ => 0) s.lcs.slices u.val + 1
      let ends := decide (4 ≤ u.val) || decide (160 ≤ k)
      (ends = false → ∀ pass, ∃ t, exec (.proofSubslice u pass) s = .next t ∧ Keeps (only [.dev, .regs, .mem, .host, .eng, .flt, .log, .mer, .lcs, .fab, .net]) s t ∧
        Tab.get (fun _ => 0) t.lcs.slices u.val = k ∧ (t.pair u.val).cache = [] ∧ t.core (2 * u.val) = CoreSt.reset ∧
        t.core (2 * u.val + 1) = CoreSt.reset ∧ t.lcs.lastPass = s.lcs.lastPass) ∧
      (ends = true →
        (∃ t, exec (.proofSubslice u true) s = .next t ∧ Keeps (only [.dev, .regs, .mem, .host, .eng, .flt, .log, .mer, .lcs, .fab, .net]) s t ∧ Tab.get (fun _ => 0) t.lcs.slices u.val = 0 ∧
          Tab.get (fun _ => 0) t.lcs.lastPass u.val = s.now + 1 ∧ t.bit rLcs_PROOF_STAT (16 + u.val) = false) ∧
        ∃ t, exec (.proofSubslice u false) s = .next t ∧ Keeps (only [.dev, .regs, .mem, .host, .eng, .flt, .log, .mer, .lcs, .fab, .net]) s t ∧ Tab.get (fun _ => 0) t.lcs.slices u.val = 0 ∧
          t.lcs.lastPass = s.lcs.lastPass ∧ t.bit rLcs_PROOF_STAT (16 + u.val) = true ∧ (t.det 42).held = true ∧
          (u.val < 4 → (t.pair u.val).offlinePend = true))) ∧
    (∀ u : Fin 6, s.lcs.proofFrom ≠ 0 → s.bit rLcs_PROOF_STAT (16 + u.val) = false →
      (Tab.get (fun _ => 0) s.lcs.starved u.val ≠ s.starveAt u.val → s.modeIs .dormant = false → s.starveAt u.val < 2 ^ 64 →
        ∃ t, exec (.proofStarved u) s = .next t ∧ Keeps (only [.regs, .flt, .mer, .lcs]) s t ∧ t.now = max s.now (s.starveAt u.val) ∧ (t.det 43).held = true ∧
          Tab.get (fun _ => 0) t.lcs.starved u.val = s.starveAt u.val) ∧
      (Tab.get (fun _ => 0) s.lcs.starved u.val = s.starveAt u.val → exec (.proofStarved u) s = .next s)) ∧
    (∀ u : Fin 6, s.lcs.proofFrom = 0 ∨ s.modeIs .dormant = true ∨ s.bit rLcs_PROOF_STAT (16 + u.val) = true → exec (.proofStarved u) s = .next s)

/-- Staging, checking and committing an image; the change log's entries and what waits for them. derived: R34, R392,
R431, R436, R442, R449, R451, spec/02_register_model_host.md, spec/14_safe_frames_ethernet.md,
spec/16_partitions_configuration.md. -/
def Obligations.Commit : Prop :=
  ∀ s : State,
    (∀ m, Admitted s m rCfg_STG_CMD (s.holdsAdmin m) →
      (s.commitGate = true →
        (∃ t, exec (.stgBegin m) s = .next t ∧ Keeps (only [.regs, .mem, .host, .flt, .cfg]) s t ∧ t.cfg.staging = true ∧ t.cfg.checked = false ∧ t.rd rCfg_STG_OFF = 0 ∧
          t.rd rCfg_STG_RESULT = 0 ∧ ∀ i < 0x1000000, Mem.byte t.mem.flash (s.staged + i) = 0) ∧
        (s.cfg.staging = true → ∃ t, exec (.stgCheck m) s = .next t ∧ Keeps (only [.regs, .mem, .host, .flt, .cfg]) s t ∧ (t.rd rCfg_STG_RESULT).toNat = 1 ∧ t.mem = s.mem ∧
          t.cfg.checked = false ∧ t.cfg.commitReq = false) ∧
        (s.cfg.checked = true → s.cfg.commitReq = false → s.imgIsSet s.staged = false →
          ∃ t, exec (.stgCommit m) s = .next t ∧ Keeps (only [.regs, .mem, .host, .flt, .cfg]) s t ∧ t.cfg.commitReq = true ∧ t.cfg.logged = false ∧
            t.cfg.queue.map (·.2) = s.cfg.queue.map (·.2) ++ [.commit] ∧
            t.fld rCfg_STG_RESULT 0 8 = if anyBelow 16 s.ptLive then 9 else s.fld rCfg_STG_RESULT 0 8)) ∧
      (s.commitGate = false → ∀ c, c = .stgBegin m ∨ c = .stgCheck m ∨ c = .stgCommit m →
        ∃ t, exec c s = .next t ∧ Keeps (only [.regs, .mem, .host, .flt, .cfg]) s t ∧ t.cfg.staging = s.cfg.staging ∧ t.cfg.checked = s.cfg.checked ∧
          t.cfg.commitReq = s.cfg.commitReq ∧ t.mem.flash = s.mem.flash) ∧
      (s.cfg.staging = true → ∃ t, exec (.stgAbandon m) s = .next t ∧ Keeps (only [.regs, .mem, .host, .flt, .cfg]) s t ∧ t.cfg.staging = false ∧ t.cfg.checked = false ∧
        t.cfg.commitReq = false ∧ t.rd rCfg_STG_RESULT = 0)) ∧
    (∀ m v ok, Admitted s m rCfg_STG_DATA_HI (s.holdsAdmin m) → s.cfg.staging = false ∨ s.commitGate = false →
      ∃ t, exec (.stgDataWrite m v ok) s = .next t ∧ Keeps (only [.regs, .mem, .host, .flt, .cfg]) s t ∧ t.mem = s.mem ∧ t.cfg = s.cfg) ∧
    (∀ m v, Admitted s m rCfg_STG_DATA_HI (s.holdsAdmin m) → s.cfg.staging = true → s.commitGate = true →
      let off := (s.rd rCfg_STG_OFF).toNat / 8 * 8 % 0x800000
      (∃ t, exec (.stgDataWrite m v true) s = .next t ∧ Keeps (only [.regs, .mem, .host, .flt, .cfg]) s t ∧
        Mem.bytes t.mem.flash (s.staged + off) 8 = natLe 4 (s.rd rCfg_STG_DATA_LO).toNat ++ natLe 4 v.toNat ∧
        (∀ x, x < s.staged + off ∨ s.staged + off + 8 ≤ x → Mem.byte t.mem.flash x = Mem.byte s.mem.flash x) ∧
        (t.rd rCfg_STG_OFF).toNat = (off + 8) % 0x800000 ∧ t.cfg.checked = false) ∧
      ∃ t, exec (.stgDataWrite m v false) s = .next t ∧ Keeps (only [.regs, .mem, .host, .flt, .cfg]) s t ∧ t.mem = s.mem ∧ (t.rd rCfg_STG_RESULT).toNat = 10) ∧
    (s.cfg.staging = true → s.fld rCfg_STG_RESULT 0 8 = 1 →
      let r := s.checkImage s.otherCopy
      ∃ t, exec .commitCheckDone s = .next t ∧ Keeps (only [.regs, .mem, .flt, .cfg]) s t ∧ t.fld rCfg_STG_RESULT 0 8 = r.1 ∧
        t.cfg.checked = decide (r.1 = 2) ∧ (r.1 ≠ 2 → t.cfg.noVote = true ∧ (t.det 952).held = true)) ∧
    (s.cfg.settle = true → Memory.wf s.mem.flash = true →
      let n := s.imgLen (copyAt s.cfg.copy) + 128
      ∃ t, exec .flashSettleDone s = .next t ∧ Keeps (only [.mem, .cfg]) s t ∧ t.cfg.settle = false ∧
        Mem.bytes t.mem.flash s.staged n = Mem.bytes s.mem.flash (copyAt s.cfg.copy) n ∧
        ∀ x, x < s.staged ∨ s.staged + 0x1000000 + n ≤ x → Mem.byte t.mem.flash x = Mem.byte s.mem.flash x) ∧
    (s.cfg.settle = false → exec .flashSettleDone s = .next s) ∧
    (s.cfg.queue = [] → ∀ ok, exec (.clogWriteDone ok) s = .next s) ∧
    (∀ body act rest, s.cfg.queue = (body, act) :: rest →
      (∃ t, exec (.clogWriteDone true) s = .next t ∧ Keeps (only [.dev, .regs, .mem, .host, .eng, .flt, .log, .cfg, .mer, .field, .fab, .net, .ngl, .free]) s t ∧ t.cfg.queue = rest ∧ t.cfg.clogSeq = s.cfg.clogSeq + 1 ∧
        (t.rd rCfg_CLOG_HEAD).toNat = (s.cfg.clogSeq + 1) % 2 ^ 32 ∧ (act = .commit → t.cfg.logged = true) ∧
        (∀ o k key e st re, act = .keyLoad o k key e st re → t.keySlot o k = ⟨true, key, e, st, re⟩) ∧
        (∀ o k, act = .keyErase o k → t.keySlot o k = KeySlot.reset) ∧
        (∀ o k re, act = .keySetRetire o k re → t.keySlot o k = { s.keySlot o k with retire := re }) ∧
        ∀ role p salt n v, act = .pwChange role p salt n v → t.roleRec role p = { s.roleRec role p with
          pwGen := (s.roleRec role p).pwGen + 1
          iter := n
          salt := salt
          v := v }) ∧
      ∃ t, exec (.clogWriteDone false) s = .next t ∧ Keeps (only [.dev, .regs, .mem, .host, .eng, .flt, .log, .cfg, .mer, .field, .fab, .net, .ngl, .free]) s t ∧ t.cfg.queue = rest ∧ t.cfg.clogSeq = s.cfg.clogSeq ∧
        (t.det 956).held = true ∧ t.cfg.roles = s.cfg.roles ∧ t.net.keys = s.net.keys ∧
        (act = .commit → t.cfg.commitReq = false ∧ (t.rd rCfg_STG_RESULT).toNat = 10) ∧
        ((∃ o k key e st re, act = .keyLoad o k key e st re) ∨ (∃ o k, act = .keyErase o k) ∨ (∃ o k re, act = .keySetRetire o k re) →
          t.fld rKeys_KEY_STAT 2 3 = 2))

/-- Logbook consumers and buckets; vectors, routing and pending bits; W1C bits against hardware. derived: R34, R36,
R37, R38, R43, R483, R485, R486, R490, R491, R493, R494. -/
def Obligations.LogbookEvents : Prop :=
  ∀ s : State,
    ((∀ n, 1068 ≤ n → n ≤ 1070 → (s.route n).getLsbD 8 = false) →
      (s.modeIs .dormant = false → s.nextMultiple 100000 < 2 ^ 64 →
        ∃ t, exec .logBucketEnd s = .next t ∧ Keeps (only [.regs, .mem, .host, .flt, .log, .mer]) s t ∧ t.log.coal = [] ∧ t.now = s.nextMultiple 100000 ∧
          (t.rd rLog_SEQ_NEXT).toNat = ((s.rd rLog_SEQ_NEXT).toNat + s.log.coal.length) % 2 ^ 32) ∧
      ∀ m, Admitted s m rLog_CMD (s.privAt m rLog_CMD) →
        ∃ t, exec (.flushCoal m) s = .next t ∧ Keeps (only [.regs, .mem, .host, .flt, .log, .cfg]) s t ∧ t.log.coal = [] ∧
          (t.rd rLog_SEQ_NEXT).toNat = ((s.rd rLog_SEQ_NEXT).toNat + s.log.coal.length) % 2 ^ 32) ∧
    (∀ m v, Admitted s m rLog_HOST_RP (s.privAt m rLog_HOST_RP) →
      ∃ t, exec (.logHostRpWrite m v) s = .next t ∧ Keeps (only [.regs, .mem, .host, .flt, .log, .cfg]) s t ∧ t.fld rLog_HOST_RP 0 17 = v.toNat % 2 ^ 17) ∧
    (let slot := s.fld rLog_SPILL_RP 0 17
     let prio := natBits (Mem.byte s.mem.logm (32 * slot + 15)).toNat 0 2
     let b := Mem.bytes s.mem.logm (32 * slot) 32
     s.bit rLog_LOG_CFG 0 = true → s.logPend slot ≠ 0 → ∀ e,
      ∃ t, exec (.logSpillWrite e) s = .next t ∧ Keeps (only [.regs, .mem, .host, .flt, .log]) s t ∧ t.fld rLog_SPILL_RP 0 17 = (slot + 1) % s.logN ∧
        (s.fld rLog_LOG_CFG 1 2 < prio → t.mem.spill = s.mem.spill) ∧
        (prio ≤ s.fld rLog_LOG_CFG 1 2 → e = .written → Mem.bytes t.mem.spill (32 * (leNat ((b.drop 8).take 4) % 1048576)) 32 = b) ∧
        (prio ≤ s.fld rLog_LOG_CFG 1 2 → e = .flashFail → t.mem.spill = s.mem.spill ∧ (t.det 91).held = true) ∧
        (prio ≤ s.fld rLog_LOG_CFG 1 2 → e = .eccUncorr → (t.det 90).held = true ∧
          let c := Mem.bytes t.mem.spill (32 * (leNat ((b.drop 8).take 4) % 1048576)) 32
          leNat (c.drop 28) ≠ (crc32c (c.take 28)).toNat)) ∧
    (∀ m v, Admitted s m rLog_FL_SEL (s.privAt m rLog_FL_SEL) →
      let a := 32 * (v.toNat % 1048576)
      let b := Mem.bytes s.mem.spill a 32
      let good := leNat ((b.drop 8).take 4) = v.toNat ∧ leNat (b.drop 28) = (crc32c (b.take 28)).toNat
      let absent := leNat (b.drop 28) = (crc32c (b.take 28)).toNat ∨ b.all (· = 0) = true
      ∃ t, exec (.logFlRead m v) s = .next t ∧ Keeps (only [.regs, .host, .flt, .log, .cfg]) s t ∧ t.rd rLog_FL_SEL = v ∧ t.mem = s.mem ∧
        (good → (t.rd rLog_FL_STAT).toNat = 1 ∧ ∀ i < 8, t.rd (rLog_FL_DATA i) = Mem.w32 s.mem.spill (a + 4 * i)) ∧
        (¬ good → (t.rd rLog_FL_STAT).toNat = (if absent then 4 else 0) ∧
          ∀ i < 8, t.rd (rLog_FL_DATA i) = if absent then 0 else Mem.w32 s.mem.spill (a + 4 * i))) ∧
    (∀ m (v : Fin 64), Admitted s m rEvt_VEC_ACK (s.privAt m rEvt_VEC_ACK) →
      (s.vecWanted v.val = false → ∃ t, exec (.vecAck m v) s = .next t ∧ Keeps (only [.regs, .host, .flt, .cfg]) s t ∧ t.inService v.val = false ∧ t.host.out = s.host.out) ∧
      (s.vecWanted v.val = true → s.msixOn = true → Tab.get (fun _ => true) s.host.vmask v.val = false →
        ∃ t, exec (.vecAck m v) s = .next t ∧ Keeps (only [.regs, .host, .flt, .cfg]) s t ∧ t.inService v.val = true ∧ t.host.out = s.host.out ++ [s.vecMsg v.val])) ∧
    (∀ m v, Admitted s m rEvt_RT_DATA (s.privAt m rEvt_RT_DATA) →
      let n := s.fld rEvt_RT_SEL 0 11
      (1536 ≤ n → ∃ t, exec (.routingWrite m v) s = .next t ∧ Keeps (only [.regs, .host, .flt, .evt, .cfg]) s t ∧ t.evt = s.evt ∧ t.host.out = s.host.out) ∧
      (n < 1536 → ∃ t, exec (.routingWrite m v) s = .next t ∧ Keeps (only [.regs, .host, .flt, .evt, .cfg]) s t ∧
        (∀ k, t.route k = if k = n then v.setWidth 9 else s.route k) ∧ t.rd rEvt_RT_DATA = v ∧
        let vec := natBits v.toNat 0 6
        (s.pendBit n = true → natBit v.toNat 6 = true → s.inService vec = false → s.msixOn = true →
          Tab.get (fun _ => true) s.host.vmask vec = false → t.host.out = s.host.out ++ [s.vecMsg vec]) ∧
        (natBit v.toNat 6 = false → t.host.out = s.host.out))) ∧
    (∀ v : Fin 64,
      let pend := Tab.get (fun _ => false) s.host.vpend v.val
      (pend = false → ∃ t, exec (.msixUnmask v) s = .next t ∧ Keeps (only [.regs, .host]) s t ∧ Tab.get (fun _ => true) t.host.vmask v.val = false ∧
        t.host.out = s.host.out) ∧
      (pend = true → s.msixOn = true → s.inService v.val = false →
        ∃ t, exec (.msixUnmask v) s = .next t ∧ Keeps (only [.regs, .host]) s t ∧ Tab.get (fun _ => true) t.host.vmask v.val = false ∧
          Tab.get (fun _ => false) t.host.vpend v.val = false ∧ t.inService v.val = true ∧ t.host.out = s.host.out ++ [s.vecMsg v.val])) ∧
    (∀ bme msix, ∃ t, exec (.busMasterEnableChange bme msix) s = .next t ∧ Keeps (only [.regs, .host]) s t ∧ t.msixOn = (bme && msix) ∧
      ((bme && msix) = false → t.host.out = s.host.out)) ∧
    (∀ m (k : Fin 48) (v hw : BitVec 32), s.asleep (rEvt_PEND k.val) = false →
      let set := BitVec.ofNat 32 (bitMask 32 fun i => natBit hw.toNat i && s.pendTakes (32 * k.val + i))
      ∃ t, exec (.evtPendClear m k v hw) s = .next t ∧ Keeps (only [.regs, .host, .cfg]) s t ∧ t.rd (rEvt_PEND k.val) = ((s.rd (rEvt_PEND k.val) &&& ~~~ v) ||| set) ∧
        t.rd (rEvt_AGAIN k.val) = (s.rd (rEvt_AGAIN k.val) ||| (set &&& v))) ∧
    (∀ m (i : BitVec 19) (v hw : BitVec 32) r,
      let a := 4 * i.toNat
      regSpecAt a = some r → a % 0x1000 ≠ 0x28 → s.asleep a = false →
      (r.w1c ≠ 0 → ∃ t, exec (.evStickyClear m i v hw) s = .next t ∧ Keeps (only [.regs, .host, .cfg]) s t ∧
        t.rd a = ((s.rd a &&& ~~~ (v &&& r.w1c)) ||| (hw &&& r.w1c)) ∧
        ∀ g, againOf a = some g → t.rd g = (s.rd g ||| (hw &&& r.w1c &&& v))) ∧
      (r.w1c = 0 → exec (.evStickyClear m i v hw) s = .next s)) ∧
    (∀ m (pg : Fin 448) (hw : BitVec 32),
      ((pageBlock pg.val).isSome = true → ∃ t, exec (.evAgainRead m pg hw) s = .next t ∧ Keeps (only [.regs, .host]) s t ∧
        t.host.out = s.host.out ++ [.rdata m ((s.rd (rPg_EV_AGAIN pg.val)).setWidth 64)] ∧ t.rd (rPg_EV_AGAIN pg.val) = hw) ∧
      ((pageBlock pg.val).isSome = false → exec (.evAgainRead m pg hw) s = .next s))

/-- A write of a register with no command of its own; staged low halves; PG_CTRL's EN, EXPERT and LOCK_REQ. derived:
R5, R24, R31, R32, R34, R35, R42, R43, spec/00_scope.md, spec/02_register_model_host.md. -/
def Obligations.RegisterWrites : Prop :=
  ∀ (s : State) (m : Master),
    (∀ (i : BitVec 26) (v : BitVec 32) (env : WriteEnv) b k r c,
      c = .registerWrite m ⟨.bar0, i⟩ v none env ∨ c = .wideLowWrite m i v env ∨ c = .wideHighWrite m i v env →
      let a := 4 * i.toNat
      let o := a % 0x1000
      let expertOk := o < 0x400 ∨ s.expertAt m a = true
      pageBlock (a / 0x1000) = some (b, k) → regSpecAt a = some r → r.w1c = 0 → 0x40 ≤ o → s.wrBlock m b k o v env = none →
      s.asleep a = false → s.locked a = false → ¬ (0x019 ≤ a / 0x1000 ∧ a / 0x1000 ≤ 0x01B) →
        (s.mayWrite m a (s.roleAt m a v) = false → ∃ t, exec c s = .next t ∧ WriteDenied s t m a ∧ (a ≠ rHost_DENY_ADDR → a ≠ rHost_DENY_MASTER → a ≠ rFlt0_BUS_SAT → t.rd a = s.rd a)) ∧
        (s.mayWrite m a (s.roleAt m a v) = true → ¬ expertOk →
          ∃ t, exec c s = .next t ∧ Keeps (only [.regs, .host, .flt, .cfg]) s t ∧ (t.det 944).held = true ∧ t.rd rHost_DENY_ADDR = BitVec.ofNat 32 a ∧
            (a ≠ rHost_DENY_ADDR → a ≠ rHost_DENY_MASTER → a ≠ rFlt0_BUS_SAT → t.rd a = s.rd a)) ∧
        (s.mayWrite m a (s.roleAt m a v) = true → expertOk →
          (r.rl = true → r.rw ≠ 0 → ∃ t, exec c s = .next t ∧ Keeps (only [.regs, .host, .cfg]) s t ∧ t.rd a = s.rd a ∧
            (t.master m).staged = some (a, v)) ∧
          (r.rl = true → r.rw = 0 → ∃ t, exec c s = .next t ∧ Keeps (only [.regs, .host, .cfg]) s t ∧ t.rd a = s.rd a) ∧
          (r.rl = false → s.stagedFor m a = none →
            ∃ t, exec c s = .next t ∧ Keeps (only [.regs, .host, .cfg]) s t ∧ t.rd a = wrBits false r (s.rd a) v ∧ t.host.out = s.host.out ∧
              (t.master m).staged = none ∧ ∀ x, x ≠ a → x ≠ lw a → x ≠ rPg_PM_STAT (a / 0x1000) → t.rd x = s.rd x) ∧
          (∀ w q, r.rl = false → s.stagedFor m a = some w → regSpecAt (a - 4) = some q → 0x44 ≤ o →
            ∃ t, exec c s = .next t ∧ Keeps (only [.regs, .host, .cfg]) s t ∧ t.rd a = wrBits false r (s.rd a) v ∧
              t.rd (a - 4) = wrBits false q (s.rd (a - 4)) w ∧ (t.master m).staged = none))) ∧
    (∀ pg : Fin 448, (pageBlock pg.val).isSome = true →
      let a := rPg_PG_CTRL pg.val
      Admitted s m a (s.roleAt m a 0) →
        (∀ en, let no := (en = false ∧ s.cfg.used.contains pg.val = true) ∨ (s.locked a = true ∧ en ≠ s.bit a 0)
          ∃ t, exec (.pgEnWrite m pg en) s = .next t ∧ Keeps (only [.regs, .host, .flt, .cfg]) s t ∧ (no → t.bit a 0 = s.bit a 0 ∧ (t.det 949).held = true) ∧
            (¬ no → t.bit a 0 = en ∧ t.flt = s.flt) ∧ t.bit a 1 = s.bit a 1) ∧
        (s.bit a 0 = true → ∀ ex, let no := ex = true ∧ s.bit a 1 = false ∧ s.holdsExpert m = false
          ∃ t, exec (.pgExpertWrite m pg ex) s = .next t ∧ Keeps (only [.regs, .host, .flt, .cfg]) s t ∧ (no → t.bit a 1 = false ∧ (t.det 944).held = true) ∧
            (¬ no → t.bit a 1 = ex ∧ t.flt = s.flt) ∧ t.bit a 0 = true) ∧
        ∃ t, exec (.lockReq m pg) s = .next t ∧ Keeps (only [.regs, .host, .flt, .cfg]) s t ∧ t.bit (rPg_PG_STAT pg.val) 1 = true ∧ t.bit a 2 = true ∧
          t.bit a 0 = s.bit a 0 ∧ t.bit a 1 = s.bit a 1) ∧
    (∀ n i v hi env, exec (.registerWrite .pcie ⟨.bar2 n, i⟩ v hi env) s = .next s) ∧
    (∀ (n : Fin 64) (i : BitVec 26) (v : BitVec 32) env, 4 * i.toNat % 4096 = 16 * n.val + 8 →
      ∃ t, exec (.registerWrite .pcie ⟨.bar4, i⟩ v none env) s = .next t ∧ Keeps (only [.host]) s t ∧ t.host.out = s.host.out ∧
        ∀ k : Nat, Tab.get (fun _ => 0) t.host.vdata k = if k = n.val then v else Tab.get (fun _ => 0) s.host.vdata k) ∧
    (∀ (n : Fin 64) (i : BitVec 26) (v : BitVec 32) env, 4 * i.toNat % 4096 = 16 * n.val + 12 → v.getLsbD 0 = true →
      ∃ t, exec (.registerWrite .pcie ⟨.bar4, i⟩ v none env) s = .next t ∧ Keeps (only [.host]) s t ∧ t.host.out = s.host.out ∧
        ∀ k : Nat, Tab.get (fun _ => true) t.host.vmask k = if k = n.val then true else Tab.get (fun _ => true) s.host.vmask k)

/-- Reads of registers, shadows of wide values, 8-byte reads, and SPI frames. derived: R5, R23, R24, R27, R28, R34,
R40, R41, R190, spec/00_scope.md, spec/02_register_model_host.md, spec/07_coelostat_lockstep.md. -/
def Obligations.RegisterReads : Prop :=
  ∀ (s : State) (m : Master),
    (∀ (i : BitVec 26) r c,
      c = .rcRegisterRead m ⟨.bar0, i⟩ false ∨ c = .wideLowRead m i false ∨ c = .wideHighRead m i →
      let a := 4 * i.toNat
      let s1 := s.touch a
      regSpecAt a = some r → a ≠ rRng_RNG_DATA → dbgDataPair a = none → ¬ (a / 0x1000 = 0x072 ∧ 0x84 ≤ a % 0x1000) →
      ∃ t, exec c s = .next t ∧ Keeps (only [.regs, .host]) s t ∧
        (r.rc = true → t.rd a = r.rst) ∧ (r.rc = false → t.regs = s1.regs) ∧ (∀ x, x ≠ a → t.rd x = s1.rd x) ∧
        (isLow a = true → t.host.out = s.host.out ++ [.rdata m ((s1.view (some m) a).setWidth 64)] ∧ (t.master m).shadowTag = some a ∧
          (r.rc = false → (t.master m).shadow = s1.view (some m) (a + 4))) ∧
        (isLow a = false →
          (4 ≤ a → isLow (a - 4) = true → (s.master m).shadowTag = some (a - 4) →
            t.host.out = s.host.out ++ [.rdata m (((s.master m).shadow).setWidth 64)]) ∧
          ((isLow (a - 4) = false ∨ (s.master m).shadowTag ≠ some (a - 4)) →
            t.host.out = s.host.out ++ [.rdata m ((s1.view (some m) a).setWidth 64)]) ∧
          t.host.masters = s.host.masters)) ∧
    (∀ (i : BitVec 26) r q c, c = .rcRegisterRead m ⟨.bar0, i⟩ true ∨ c = .wideLowRead m i true →
      let a := 4 * i.toNat
      let s2 := (s.touch a).touch (a + 4)
      a % 8 = 0 → regSpecAt a = some r → regSpecAt (a + 4) = some q → r.rc = false → q.rc = false → a ≠ rRng_RNG_DATA → a + 4 ≠ rRng_RNG_DATA →
      dbgDataPair a = none →
      ∃ t, exec c s = .next t ∧ Keeps (only [.regs, .host]) s t ∧ t.regs = s2.regs ∧ t.host.masters = s.host.masters ∧
        t.host.out = s.host.out ++ [.rdata m (BitVec.ofNat 64 (((s.touch a).view (some m) a).toNat + 2 ^ 32 * (s2.view (some m) (a + 4)).toNat))]) ∧
    (∀ (hdr : BitVec 32) (data : BitVec 64) (crc : BitVec 8) (env : WriteEnv),
      let w64 := hdr.getLsbD 30
      let a := natBits hdr.toNat 0 28
      let err := fun (t : State) (n : Nat) => (t.rd rHost_SPI_ERR).toNat = min ((s.rd rHost_SPI_ERR).toNat + 1) (2 ^ 32 - 1) ∧ t.host.spiLast = n ∧
        t.host.out = s.host.out ++ [.misoStatus s.spiStatus]
      (∃ t, exec (.spiFrame hdr data crc false env) s = .next t ∧ Keeps (only [.regs, .host, .flt]) s t ∧ err t 1 ∧ t.flt = s.flt) ∧
      (hdr.getLsbD 31 = false → crc ≠ spiCrc hdr data w64 →
        ∃ t, exec (.spiFrame hdr data crc true env) s = .next t ∧ Keeps (only [.regs, .host, .flt]) s t ∧ err t 1 ∧ (t.det 946).held = true) ∧
      ((hdr.getLsbD 31 = true ∨ crc = spiCrc hdr data w64) → a % (if w64 then 8 else 4) ≠ 0 →
        ∃ t, exec (.spiFrame hdr data crc true env) s = .next t ∧ Keeps (only [.regs, .host, .flt]) s t ∧ err t 3 ∧ (t.det 945).held = true) ∧
      (∀ r, hdr.getLsbD 31 = true → w64 = false → a % 4 = 0 → regSpecAt a = some r → r.rc = false → a ≠ rRng_RNG_DATA → isLow a = false →
        (s.master .spi).shadowTag ≠ some (a - 4) →
        let v : BitVec 64 := ((s.touch a).view (some .spi) a).setWidth 64
        ∃ t, exec (.spiFrame hdr data crc true env) s = .next t ∧ Keeps (only [.regs, .host]) s t ∧ t.regs = (s.touch a).regs ∧ t.host.spiLast = 0 ∧
          t.host.out = s.host.out ++ [.miso s.spiStatus v (spiCrc hdr v false)]) ∧
      (∀ b k r, hdr.getLsbD 31 = false → crc = spiCrc hdr data w64 → w64 = false → a % 4 = 0 → pageBlock (a / 0x1000) = some (b, k) →
        regSpecAt a = some r → r.w1c = 0 → r.rl = false → 0x40 ≤ a % 0x1000 → a % 0x1000 < 0x400 →
        s.wrBlock .spi b k (a % 0x1000) (data.setWidth 32) env = none → s.asleep a = false → s.locked a = false →
        ¬ (0x019 ≤ a / 0x1000 ∧ a / 0x1000 ≤ 0x01B) → s.stagedFor .spi a = none →
        let role := s.roleAt .spi a (data.setWidth 32)
        (s.mayWrite .spi a role = true →
          ∃ t, exec (.spiFrame hdr data crc true env) s = .next t ∧ Keeps (only [.regs, .host, .cfg]) s t ∧ t.host.spiLast = 0 ∧
            t.rd a = wrBits false r (s.rd a) (data.setWidth 32) ∧ t.host.out = s.host.out ++ [.misoStatus s.spiStatus]) ∧
        (s.mayWrite .spi a role = false →
          ∃ t, exec (.spiFrame hdr data crc true env) s = .next t ∧ Keeps (only [.regs, .host, .flt, .cfg]) s t ∧ t.host.spiLast = 2 ∧
            (t.det 949).held = true))) ∧
    (∀ (n : Fin 4) (i : BitVec 26), 4 * i.toNat = rPair_DBG_DATA_LO n.val → s.bit (rPair_DBG_STAT n.val) 2 = true →
      (s.pair n.val).replayAt ≠ s.now → ∃ t, exec (.wideLowRead m i false) s = .next t ∧ (t.pair n.val).replay = [.regRead] ∧ t.mem = s.mem) ∧
    (s.modeIs .dormant = false → ∀ n (i : BitVec 26) wide, ∃ t, exec (.rcRegisterRead .pcie ⟨.bar2 n, i⟩ wide) s = .next t ∧
      Keeps (only [.host]) s t ∧ t.host.out = s.host.out ++ [.window (Mem.bytes s.mem.logm (i.toNat % 2 ^ 22) n.val)]) ∧
    (∀ i : BitVec 26, 4 * i.toNat % 4096 = 0x800 → ∃ t, exec (.rcRegisterRead .pcie ⟨.bar4, i⟩ false) s = .next t ∧ Keeps (only [.host]) s t ∧
      ∃ w : Word, t.host.out = s.host.out ++ [.rdata .pcie (w.setWidth 64)] ∧ ∀ v < 32, w.getLsbD v = Tab.get (fun _ => false) s.host.vpend v) ∧
    ∀ (v : Fin 64) (i : BitVec 26), 4 * i.toNat % 4096 = 16 * v.val + 12 → ∃ t, exec (.rcRegisterRead .pcie ⟨.bar4, i⟩ false) s = .next t ∧
      Keeps (only [.host]) s t ∧ t.host.out = s.host.out ++ [.rdata .pcie (BitVec.ofNat 64 (b2n (Tab.get (fun _ => true) s.host.vmask v.val)))]

/-- BAR0 accesses of a wrong size, not aligned, or too long, and the reserved pages beyond the last page. stated: R25.
-/
def Obligations.BadAccesses : Prop :=
  ∀ s : State,
    let same := fun (t : State) (m : Master) => { t.host with out := s.host.out } = s.host ∧ (t.det 945).held = true ∧
      ∀ a, a ≠ (match m with
        | .pcie => rHost_PCIE_ERR
        | .spi => rHost_SPI_ERR) → a ≠ rFlt0_BUS_SAT → t.rd a = s.rd a
    (∀ write long, ∃ t, exec (.bar0BadAccess write long) s = .next t ∧ Keeps (only [.regs, .host, .flt]) s t ∧ same t .pcie ∧
      t.host.out = s.host.out ++ (if long then [.abort] else if write then [] else [.rdata .pcie 0])) ∧
    (∀ m (i : BitVec 26) v w env, (4 * i.toNat) % 8 ≠ 0 →
      (∃ t, exec (.registerWrite m ⟨.bar0, i⟩ v (some w) env) s = .next t ∧ Keeps (only [.regs, .flt]) s t ∧ same t m ∧ t.host.out = s.host.out) ∧
      ∀ c, c = .rcRegisterRead m ⟨.bar0, i⟩ true ∨ c = .wideLowRead m i true →
        ∃ t, exec c s = .next t ∧ Keeps (only [.regs, .flt, .host]) s t ∧ same t m ∧ t.host.out = s.host.out ++ [.rdata m 0]) ∧
    (∀ m (i : BitVec 26) v env, 0x1C0000 ≤ 4 * i.toNat →
      (∃ t, exec (.registerWrite m ⟨.bar0, i⟩ v none env) s = .next t ∧ Keeps (only [.host, .cfg]) s t ∧ t.host.out = s.host.out) ∧
      ∃ t, exec (.rcRegisterRead m ⟨.bar0, i⟩ false) s = .next t ∧ Keeps (only [.host]) s t ∧ t.host.out = s.host.out ++ [.rdata m 0])

/-- DORMANT requests and wake; the RTC and its crystal; vigil inputs and their acknowledgement. derived: R18, R34,
R326, R514, R517, R519, R520, R521, R522, R523, spec/01_architecture.md, spec/02_register_model_host.md. -/
def Obligations.DormantAndVigil : Prop :=
  ∀ s : State,
    let woke := fun (t : State) (cause input c : Nat) (field : FieldFind) =>
      let n1 := (c + s.freeVal.toNat % 18) % 2 ^ 48
      t.dev.pllLocked = true ∧ t.dev.mode ≠ .dormant ∧ (t.rd rSup_DORM_STAT).toNat = 3 + 256 * cause + 1024 * input ∧ t.ngl.armed = false ∧
        t.ngl.cnt.toNat = n1 ∧ (s.ngl.kept = true → (t.rd rMer_MK_ELAPSED).toNat = min ((n1 + 2 ^ 48 - s.mer.n0) % 2 ^ 48) 0xFFFFFFFF) ∧
        (s.ngl.kept = false → (t.det 931).held = true) ∧ (fieldOk field = false → (t.det 69).held = true ∧ t.flt.safeLine = true)
    (∀ m use, Admitted s m rSup_DORM_CMD (s.holdsMA m) → s.modeIs .dormant = false →
      ∃ t, exec (.dormantEnterReq m use) s = .next t ∧ Keeps (only [.dev, .regs, .mem, .host, .flt, .log, .cfg, .ngl]) s t ∧ t.dev = { s.dev with dormPend := true } ∧ t.ngl.armed = use ∧
        (t.rd rSup_DORM_STAT).toNat = 1) ∧
    (∀ m use, s.holdsMA m = false → s.modeIs .dormant = false →
      ∃ t, exec (.dormantEnterReq m use) s = .next t ∧ Keeps (only [.dev, .regs, .mem, .host, .flt, .log, .cfg, .ngl]) s t ∧ t.dev = s.dev ∧ t.ngl = s.ngl ∧ (t.rd rSup_DORM_STAT).toNat = 66) ∧
    (s.modeIs .dormant = true →
      (∀ m use, exec (.dormantEnterReq m use) s = .next (s.noteWrite m rSup_DORM_CMD)) ∧
      (∀ m (dt : BitVec 32) field,
        (s.holdsMA m = true → ∃ t, exec (.dormantWakeCmd m dt field) s = .next t ∧ Keeps (only [.dev, .regs, .mem, .host, .eng, .flt, .log, .cfg, .mer, .tim, .lcs, .field, .fab, .net, .vern, .ngl, .free]) s t ∧
          woke t 1 0 ((s.ngl.cnt.toNat + dt.toNat) % 2 ^ 48) field) ∧
        (s.holdsMA m = false → ∃ t, exec (.dormantWakeCmd m dt field) s = .next t ∧ Keeps (only [.dev, .regs, .mem, .host, .eng, .flt, .log, .cfg, .mer, .tim, .lcs, .field, .fab, .net, .vern, .ngl, .free]) s t ∧ t.dev = s.dev ∧
          (t.rd rSup_DORM_STAT).toNat = 66)) ∧
      ∀ field,
        (s.ngl.armed = true → s.rtcNow ≤ s.rtcAlarmAt → ∃ t, exec (.rtcAlarm field) s = .next t ∧ Keeps (only [.dev, .regs, .mem, .host, .eng, .flt, .log, .cfg, .mer, .tim, .lcs, .field, .fab, .net, .vern, .ngl, .free]) s t ∧ woke t 2 0 s.rtcAlarmAt field) ∧
        ((s.ngl.armed = false ∨ s.rtcAlarmAt < s.rtcNow) → exec (.rtcAlarm field) s = .next s)) ∧
    (s.modeIs .dormant = false → (∀ m dt ok, exec (.dormantWakeCmd m dt ok) s = .next s) ∧ ∀ ok, exec (.rtcAlarm ok) s = .next s) ∧
    (∀ (c : Fin 4 → Fin 3) field,
      let old := fun k : Fin 4 => s.ngl.level.getLsbD k.val
      let now := fun k : Fin 4 => if s.vgEn k.val then vgReads (c k) (old k) else old k
      let quiet := s.dev.vlogValid && (s.modeIs .operate || s.modeIs .harebell)
      ∃ t, exec (.vigilSample (c 0) (c 1) (c 2) (c 3) field) s = .next t ∧ Keeps (only [.dev, .regs, .mem, .host, .eng, .flt, .log, .cfg, .mer, .tim, .lcs, .field, .fab, .net, .vern, .ngl, .free]) s t ∧
        (∀ k : Fin 4, t.ngl.level.getLsbD k.val = now k ∧
          t.ngl.alarm.getLsbD k.val = (s.ngl.alarm.getLsbD k.val || (!quiet && decide (now k ≠ old k)))) ∧
        ∀ k : Fin 4, now k ≠ old k → (∀ j < k, now j = old j) → s.modeIs .dormant = true → s.dev.vlogValid = true →
          woke t 3 k.val ((s.ngl.cnt.toNat / 8192 + 1) * 8192 % 2 ^ 48) field) ∧
    (∀ m (v : BitVec 4), Admitted s m rNgl_VG_ACK (s.holdsMaint m) →
      ∃ t, exec (.vgAck m v) s = .next t ∧ Keeps (only [.regs, .mem, .host, .flt, .cfg]) s t ∧ t.ngl = s.ngl ∧
        t.cfg.queue.map (·.2) = s.cfg.queue.map (·.2) ++ ((List.range 4).filter fun k => v.getLsbD k && s.ngl.level.getLsbD k).map .vgAck) ∧
    (s.synced = true → s.tbRuns = true →
      let c := s.now * 32768 / 100000000 % 2 ^ 48
      ∃ t, exec .rtcLoad s = .next t ∧ Keeps (only [.regs, .flt, .ngl]) s t ∧ t.ngl.cnt.toNat = c ∧ t.ngl.base = s.now ∧ t.ngl.valid = true ∧ t.ngl.kept = true ∧
        (32768 ≤ (if c ≤ s.rtcNow then s.rtcNow - c else c - s.rtcNow) → t.ngl.held = min 64 (s.ngl.held + 1))) ∧
    ((s.synced = false ∨ s.tbRuns = false) → exec .rtcLoad s = .next s) ∧
    (∀ ppm : BitVec 16,
      (s.tbRuns = false → exec (.xtalMeasure ppm) s = .next s) ∧
      (s.tbRuns = true → s.nextMultiple 1000000000 < 2 ^ 64 → ∃ t, exec (.xtalMeasure ppm) s = .next t ∧ Keeps (only [.regs, .flt, .mer, .ngl]) s t ∧ t.now = s.nextMultiple 1000000000 ∧
        (t.rd rNgl_XTAL_PPM).toNat = ppm.toNat ∧
        t.ngl.xtalOk = decide (ppm.toInt.natAbs ≤ 500) ∧ t.ngl.kept = (s.ngl.kept && decide (ppm.toInt.natAbs ≤ 500)) ∧
        (500 < ppm.toInt.natAbs → s.ngl.xtalOk = true → (t.det 79).held = true))) ∧
    (∃ t, exec .xtalStop s = .next t ∧ Keeps (only [.regs, .flt, .ngl]) s t ∧ t.ngl = { s.ngl with
      xtalOk := false
      kept := false } ∧ (s.dev.vlogValid = true → s.ngl.xtalOk = true → (t.det 79).held = true)) ∧
    (s.dev.vlogValid = false → ∃ t, exec .nglCountLost s = .next t ∧ Keeps (only [.ngl, .free]) s t ∧ t.ngl.valid = false ∧ t.ngl.kept = false ∧
      t.ngl.level = s.ngl.level ∧ t.ngl.alarm = s.ngl.alarm) ∧
    (s.dev.vlogValid = true → exec .nglCountLost s = .next s)

/-- Supply and temperature monitors; gating and wake of a block. derived: R31, R32, R510, R512, R524,
spec/02_register_model_host.md, spec/20_power_nightglass.md. -/
def Obligations.SupplyAndGating : Prop :=
  ∀ s : State,
    (s.dev.vlogValid = true →
      (∀ mv : BitVec 16, ∃ t, exec (.vlogOutOfRange mv) s = .next t ∧ Keeps (only [.regs, .flt]) s t ∧ (t.rd rSup_V_VLOG).toNat = mv.toNat ∧
        t.bit rSup_SUP_STAT 1 = decide (mv.toNat < 10800) ∧ t.bit rSup_SUP_STAT 2 = decide (13200 < mv.toNat) ∧
        (mv.toNat < 10800 → s.bit rSup_SUP_STAT 1 = false → (t.det 64).held = true) ∧
        (13200 < mv.toNat → s.bit rSup_SUP_STAT 2 = false → (t.det 65).held = true) ∧ (10800 ≤ mv.toNat → mv.toNat ≤ 13200 → t.flt = s.flt)) ∧
      (∀ mv : BitVec 16, s.nextMultiple 1000000000 < 2 ^ 64 →
        ∃ t, exec (.vbakSample mv) s = .next t ∧ Keeps (only [.regs, .flt, .mer, .ngl]) s t ∧ (t.rd rSup_V_VBAK).toNat = mv.toNat ∧
          t.bit rSup_SUP_STAT 3 = decide (2600 ≤ mv.toNat) ∧ t.now = (if s.modeIs .dormant = true then s.now else s.nextMultiple 1000000000) ∧
          (mv.toNat < 2600 → (s.ngl.vbakSeen = false ∨ s.bit rSup_SUP_STAT 3 = true) →
            (t.det 66).held = true ∧ t.ngl.held = min 64 (s.ngl.held + 1)) ∧
          ((2600 ≤ mv.toNat ∨ (s.ngl.vbakSeen = true ∧ s.bit rSup_SUP_STAT 3 = false)) → t.flt = s.flt ∧ t.ngl.held = s.ngl.held)) ∧
      (∀ mv : Fin 2000, ∃ t, exec (.vbakAbsent mv) s = .next t ∧ Keeps (only [.regs, .flt, .ngl]) s t ∧ (t.rd rSup_V_VBAK).toNat = mv.val ∧
        (s.ngl.vbakSeen = false ∨ 2000 ≤ s.fld rSup_V_VBAK 0 16 → (t.det 67).held = true) ∧
        (s.ngl.vbakSeen = true → s.fld rSup_V_VBAK 0 16 < 2000 → t.flt = s.flt)) ∧
      (∀ d : BitVec 16, ∃ t, exec (.tempHigh d) s = .next t ∧ Keeps (only [.regs, .flt]) s t ∧ (t.rd rSup_T_DIE).toNat = d.toNat ∧
        asSigned 16 (t.rd rSup_T_DIE_MAX).toNat = max d.toInt (asSigned 16 (s.fld rSup_T_DIE_MAX 0 16)) ∧
        t.bit rSup_SUP_STAT 4 = decide (1250 < d.toInt) ∧ (1250 < d.toInt → s.bit rSup_SUP_STAT 4 = false → (t.det 68).held = true))) ∧
    (s.dev.vlogValid = false → ∀ (mv d : BitVec 16) (k : Fin 2000), ∀ c, c = .vlogOutOfRange mv ∨ c = .vbakSample mv ∨ c = .vbakAbsent k ∨ c = .tempHigh d →
      exec c s = .next s) ∧
    (∀ pg : Fin 448, (pageBlock pg.val).isSome = true → s.modeIs .dormant = false →
      let st := rPg_PM_STAT pg.val
      let may := s.mayPowerGate pg.val
      (∀ power,
        (s.pmPolicy pg.val = 1 → exec (.pmAutoGate pg power) s = .next s) ∧
        (s.pmPolicy pg.val = 2 → ∃ t, exec (.pmAutoGate pg power) s = .next t ∧ Keeps (only [.regs]) s t ∧
          ((may && !s.cfg.used.contains pg.val) = true → t.fld st 0 2 = 2 ∧ t.offRefused pg.val = false) ∧
          ((may && !s.cfg.used.contains pg.val) = false → t.fld st 0 2 = s.fld st 0 2 ∧ ∀ m, (t.view m st).getLsbD 4 = true)) ∧
        ((s.pmPolicy pg.val = 0 ∨ s.pmPolicy pg.val = 3) → ∃ t, exec (.pmAutoGate pg power) s = .next t ∧ Keeps (only [.regs]) s t ∧
          t.fld st 0 2 = (if may && power then 2 else 1) ∧ ∀ m, (t.view m st).getLsbD 4 = false)) ∧
      ∀ late, ∃ t, exec (.pmWake pg late) s = .next t ∧ Keeps (only [.regs, .flt]) s t ∧ t.fld st 0 2 = 0 ∧
        (late = true → s.fld st 0 2 ≠ 0 → (t.det 70).held = true) ∧ ((late = false ∨ s.fld st 0 2 = 0) → t.flt = s.flt))

/-- Power, nRESET, the start-up and its failures; lifecycle changes and service actions. derived: R16, R193, R288,
R401, R402, R403, R410, R437, R455, R510, R519, R524. -/
def Obligations.Startup : Prop :=
  ∀ s : State,
    let up := fun (s0 : State) (cause : Nat) (env : StartEnv) (t : State) =>
      let s2 := (s0.porRelease cause env).sense env
      let step := (t.rd rLcs_BOOT_STEP).toNat
      let otpBad := s2.bit rOtp_OTP_STAT 3
      t.pending = s.pending ∧ (t.rd rLcs_BOOT_CAUSE).toNat = cause ∧
      (env.fails = some 0 → step = 17 ∧ t.lcs.retry = true ∧ t.dev.mode = .boot) ∧
      (env.fails = some 1 → step = 18 ∧ t.lcs.retry = true ∧ t.dev.mode = .boot) ∧
      (env.fails ≠ some 0 → env.fails ≠ some 1 → otpBad = true → step = 18 ∧ t.dev.mode = .halted ∧ (t.det 34).held = true) ∧
      (env.fails = some 2 → otpBad = false → step = 19 ∧ t.lcs.retry = true ∧ t.dev.mode = .boot) ∧
      (env.fails = none → otpBad = false →
        let held := step = 20 ∧ t.dev.mode = .halted ∧ t.flt.safeLine = true ∧ ∃ n, t.haltsBy n = true
        (env.logic = false → step = 20 ∧ t.dev.mode = .halted ∧ t.flt.safeLine = true ∧ (t.det 40).held = true) ∧
        (∀ n l, env.logic = true → env.sig = n :: l → step = 20 ∧ t.dev.mode = .halted ∧ t.flt.safeLine = true ∧ (t.det (116 + 24 * n.val)).held = true) ∧
        (env.logic = true → env.sig = [] → env.memory = false →
          (step = 21 ∧ t.dev.mode = .halted ∧ t.flt.safeLine = true ∧ (t.det 41).held = true) ∨ held) ∧
        (env.logic = true → env.sig = [] → env.memory = true → fieldOk env.field = false →
          (step = 24 ∧ t.dev.mode = .halted ∧ t.flt.safeLine = true) ∨ held) ∧
        (env.logic = true → env.sig = [] → env.memory = true → fieldOk env.field = true →
          (step = 10 ∧ (t.rd rLcs_READY_TIME).toNat = env.time.val ∧ (t.dev.mode = .sync ∨ t.dev.mode = .operate)) ∨
          held ∨
          (step = 24 ∧ t.dev.mode = .halted ∧ t.flt.safeLine = true ∧ ∃ n, t.haltsBy n = true)))
    (∀ dt env, s.dev.vlogValid = false →
      let s1 := (s.rtcSet (s.rtcNow + dt.toNat)).modDev fun d => { d with vlogValid := true }
      ∃ t, exec (.vlogValid dt env) s = .next t ∧ t.dev.vlogValid = true ∧ t.ngl.held = min 64 (s.ngl.held + 1) ∧
        (s.dev.nreset = true → t.dev.mode = s.dev.mode ∧ t.eng = s.eng ∧ t.pending = s.pending) ∧
        (s.dev.nreset = false → up (s1.blPut 4 0 false) (if s.lcs.starting then 3 else 0) env t)) ∧
    (∀ dt env, s.dev.vlogValid = true → exec (.vlogValid dt env) s = .next s) ∧
    (∀ env, s.lcs.retry = false ∨ s.dev.vlogValid = false ∨ s.dev.nreset = true → exec (.startupRetry env) s = .next s) ∧
    (∀ env, s.dev.nreset = false → exec (.nresetRelease env) s = .next s) ∧
    (s.dev.vlogValid = false → exec .vlogLost s = .next s ∧ exec .nresetAssert s = .next (s.modDev fun d => { d with nreset := true })) ∧
    (∀ env, s.lcs.retry = true → s.dev.vlogValid = true → s.dev.nreset = false →
      ∃ t, exec (.startupRetry env) s = .next t ∧
        up (if s.bit rLcs_BOOT_STEP 4 then s.rtcSet (s.rtcNow + 3277) else s) (s.fld rLcs_BOOT_CAUSE 0 3) env t) ∧
    (∀ env, s.dev.nreset = true →
      ∃ t, exec (.nresetRelease env) s = .next t ∧ t.dev.nreset = false ∧ (s.dev.vlogValid = false → t.dev.mode = s.dev.mode ∧ t.pending = s.pending) ∧
        (s.dev.vlogValid = true → up (s.modDev fun d => { d with nreset := false }) 1 env t)) ∧
    (s.dev.vlogValid = true →
      (∃ t, exec .vlogLost s = .next t ∧ Keeps (only [.dev, .regs, .mem, .host, .eng, .flt, .log, .evt, .cfg, .mer, .tim, .lcs, .field, .fab, .net, .vern, .ngl]) s t ∧ t.dev.vlogValid = false ∧ t.dev.mode = .boot ∧
        t.ngl.held = min 64 (s.ngl.held + 1) ∧ t.mem.flash = s.mem.flash ∧ t.mem.clog = s.mem.clog ∧ t.mem.img = initImage s.dev.slot 0 ∧
        ∀ b < 24, t.bit (rBank_BK_STAT b) 2 = true) ∧
      ∃ t, exec .nresetAssert s = .next t ∧ Keeps (only [.dev, .regs, .mem, .host, .eng, .flt, .log, .mer, .field, .fab, .net]) s t ∧ t.dev.nreset = true ∧ t.dev.mode = .boot ∧
        (s.dev.mode ≠ .boot → ∀ b < 24, t.bit (rBank_BK_STAT b) 0 = false)) ∧
    (∀ m, Admitted s m rLcs_LC_CMD (s.mayAdvance m) →
      (∀ fails env, s.advanceOk = false → ∃ t, exec (.lcAdvance m fails env) s = .next t ∧ t.lcs = s.lcs ∧ t.dev = s.dev ∧ t.cfg.clogSeq = s.cfg.clogSeq + 1) ∧
      (s.advanceOk = true →
        (∀ env, ∃ t, exec (.lcAdvance m 0 env) s = .next t ∧ t.pending = s.pending ∧ otpAt t.lcs.otp0 2 = some (codeOfLc (s.lc + 1)) ∧
          otpAt t.lcs.otp1 2 = some (codeOfLc (s.lc + 1)) ∧ (s.dev.nreset = true → t.dev.mode = .boot ∧ t.lcs.lcChange = true) ∧
          (s.dev.nreset = false → (t.rd rLcs_BOOT_CAUSE).toNat = 1 ∧ (env.fails = none → (t.det 44).held = true))) ∧
        ∀ fails env, fails ≠ 0 → ∃ t, exec (.lcAdvance m fails env) s = .next t ∧ t.pending = s.pending ∧ t.dev = s.dev ∧
          t.lcs.est = s.lcs.est ∧ otpAt t.lcs.otp1 2 = otpAt s.lcs.otp1 2 ∧ (t.det 35).held = true)) ∧
    (∀ m env,
      (s.svcOk 1 = true → ∃ t, exec (.serviceReset m env) s = .next t ∧ t.pending = s.pending ∧
        (s.dev.nreset = true → t.dev.mode = .boot) ∧
        (s.dev.nreset = false → (t.rd rLcs_BOOT_CAUSE).toNat = 2 ∧ (t.sess .pcie).role = 0 ∧ (t.sess .spi).role = 0)) ∧
      (s.svcOk 1 = false → s.svcOk 2 = false → ∀ fails c, c = .serviceReset m env ∨ c = .serviceReturn m fails env →
        ∃ t, exec c s = .next t ∧ t.pending = s.pending ∧ t.dev = s.dev ∧ (t.rd rCfg_SVC_STAT).toNat = 3 ∧ (t.det 959).held = true ∧ t.net = s.net) ∧
      (s.svcOk 1 = false → s.svcOk 2 = true → (s.lcWord = some 1 ∨ s.lcWord = some 2) →
        (∃ t, exec (.serviceReturn m 0 env) s = .next t ∧ t.pending = s.pending ∧ otpAt t.lcs.otp0 2 = some (codeOfLc 3) ∧
          otpAt t.lcs.otp1 2 = some (codeOfLc 3) ∧ t.net.keys = [] ∧ t.cfg.trims = [] ∧
          (s.dev.nreset = true → t.dev.mode = .boot ∧ t.lcs.lcChange = true) ∧
          (s.dev.nreset = false → (t.rd rLcs_BOOT_CAUSE).toNat = 2 ∧ (env.fails = none → (t.det 44).held = true))) ∧
        ∀ fails, fails ≠ 0 → ∃ t, exec (.serviceReturn m fails env) s = .next t ∧ t.pending = s.pending ∧ t.dev = s.dev ∧
          (t.rd rCfg_SVC_STAT).toNat = 3 ∧ t.net.keys = [] ∧ (t.det 35).held = true ∧ (t.det 959).held = true))

/-- Vernier: the second, the hour, the day, and negative slack. derived: R471, R495, R496, R497, R498, R499, R500,
R502, spec/17_fault_handling.md, spec/19_vernier_ageing.md. -/
def Obligations.Vernier : Prop :=
  ∀ s : State,
    (s.vernRuns = true →
      (∀ slack shift erase, s.nextMultiple 100000000 < 2 ^ 64 →
        let g := Grade.code s.dev.grade
        let s1 := s.modVern fun v => { v with
          slack := slack.map fun x => 10 * x.toInt - gradeConv g
          shift := shift.map BitVec.toNat
          erase := erase.toNat }
        ∃ t, exec (.vernierSecond slack shift erase) s = .next t ∧ Keeps (only [.dev, .regs, .mem, .host, .eng, .flt, .log, .mer, .fab, .net, .vern]) s t ∧ t.now = s.nextMultiple 100000000 ∧
          t.vern.slack = s1.vern.slack ∧ t.vern.shift = s1.vern.shift ∧ t.vern.erase = s1.vern.erase ∧ t.vern.trend = s.vern.trend ∧
          t.vern.margin = t.vnState ∧
          ((s.vernChooses = false ∨ s1.timeAdm g = true) → t.dev = s.dev) ∧
          (s.vernChooses = true → s1.timeAdm g = false →
            (∀ k, s1.lowerGrade g = some k → t.dev = { s.dev with gradePend := some (gradeOf k) }) ∧
            (s1.lowerGrade g = none → t.vern.exhausted = true ∧ (s.vern.exhausted = false → (t.det 59).held = true) ∧
              (s.modeIs .operate = true → t.dev.mode = .harebell)))) ∧
      (s.hourBoundary < 2 ^ 64 →
        let hUp := 2 * (s.fld rVern_GUARD 8 8 : Int)
        let up := fun g => match Tab.get (fun _ => none) s.vern.hour g with
          | some m => if hUp ≤ m then Tab.get (fun _ => 0) s.vern.up g + 1 else 0
          | none => 0
        ∃ t, exec .vernierHourly s = .next t ∧ Keeps (only [.dev, .mer, .vern]) s t ∧ t.now = max s.now s.hourBoundary ∧ t.vern.hour = [] ∧
          (∀ g < 3, Tab.get (fun _ => 0) t.vern.up g = up g) ∧
          ∀ k, (List.range (Grade.code s.dev.grade)).reverse.find? (fun j => s.cfgAdm j) = some k →
            t.dev = if s.vernChooses = true ∧ 24 ≤ up k ∧ s.dev.gradePend = none then { s.dev with gradePend := some (gradeOf k) } else s.dev) ∧
      (∃ t, exec .vernSlackNeg s = .next t ∧ Keeps (only [.regs, .flt]) s t ∧ (t.det 60).held = true) ∧
      (s.vern.dayAt + 8640000000000 < 2 ^ 64 →
        let now := max s.now (s.vern.dayAt + 8640000000000)
        (∃ t, exec (.vernierDaily true) s = .next t ∧ Keeps (only [.regs, .mem, .host, .flt, .log, .mer, .vern]) s t ∧ t.now = now ∧ t.vern.trend = (s.vern.day :: s.vern.trend).take 9200 ∧
          t.vern.margin = t.vnState ∧
          t.vern.day = [] ∧ t.vern.dayAt = now) ∧
        ∃ t, exec (.vernierDaily false) s = .next t ∧ Keeps (only [.regs, .mem, .host, .flt, .log, .mer, .vern]) s t ∧ t.now = now ∧ t.vern.trend = s.vern.trend ∧ t.vern.day = [] ∧
          t.vern.dayAt = now ∧ (t.det 62).held = true)) ∧
    (s.vernRuns = false → (∀ a b c, exec (.vernierSecond a b c) s = .next s) ∧ exec .vernierHourly s = .next s ∧ exec .vernSlackNeg s = .next s ∧
      ∀ ok, exec (.vernierDaily ok) s = .next s)

/-- XFER queues: tail, set-up, a descriptor's start and end, errors; the PCI Express link. derived: R26, R34, R42,
R45, R46, R48, R49, R50, R51, R53, spec/02_register_model_host.md. -/
def Obligations.Xfer : Prop :=
  ∀ s : State,
    (∀ (speed : Fin 3) (width : Fin 2), ∃ t, exec (.pcieLinkUp speed width) s = .next t ∧ Keeps (only [.regs, .host]) s t ∧
      t.fld rHost_LINK_STAT 0 8 = 1 + 2 * (speed.val + 1) + 16 * (width.val + 1) ∧ t.bit rHost_LINK_STAT 8 = s.bit rHost_LINK_STAT 8) ∧
    (s.bit rHost_LINK_STAT 0 = true → ∃ t, exec .pcieLinkDown s = .next t ∧ Keeps (only [.regs, .flt]) s t ∧ t.fld rHost_LINK_STAT 0 8 = 0 ∧
      t.bit rHost_LINK_STAT 8 = s.bit rHost_LINK_STAT 8 ∧ (t.det 947).held = true) ∧
    (s.bit rHost_LINK_STAT 0 = false → exec .pcieLinkDown s = .next s) ∧
    (∃ t, exec .pcieUncorr s = .next t ∧ Keeps (only [.regs, .flt]) s t ∧ (t.det 948).held = true) ∧
    (∀ n, ∃ t, exec (.xferPcieErr none n) s = .next t ∧ Keeps (only [.regs, .mem, .host, .flt, .log]) s t ∧ (t.det 938).held = true ∧ t.host = s.host) ∧
    (∀ (m : Master) (q : Fin 4),
      (∀ v, Admitted s m (rXfer_XQ_TAIL q.val) (s.privAt m (rXfer_XQ_TAIL q.val)) →
        let n := (natBits v.toNat 0 13 + 8192 - s.fld (rXfer_XQ_HEAD q.val) 0 13) % 8192
        ∃ t, exec (.xqTailWrite m q v) s = .next t ∧ Keeps (only [.regs, .host, .flt, .cfg]) s t ∧
          (n ≤ s.xqRing q.val → t.fld (rXfer_XQ_TAIL q.val) 0 13 = v.toNat % 8192) ∧
          (s.xqRing q.val < n → t.rd (rXfer_XQ_TAIL q.val) = s.rd (rXfer_XQ_TAIL q.val) ∧ (t.det 937).held = true)) ∧
      (∀ (reg : Fin 3) v, Admitted s m (xqReg q.val reg.val) (s.privAt m (xqReg q.val reg.val)) →
        ∃ t, exec (.xqConfigWrite m q reg v) s = .next t ∧ Keeps (only [.regs, .host, .flt, .cfg]) s t ∧
          (s.xqHeld q.val ≠ 0 → (∀ r < 3, t.rd (xqReg q.val r) = s.rd (xqReg q.val r)) ∧ (t.det 937).held = true) ∧
          (s.xqHeld q.val = 0 →
            (reg.val = 0 → (t.rd (rXfer_XQ_SIZE q.val)).toNat = v.toNat % 16) ∧
            (reg.val = 1 → (t.master m).staged = some (rXfer_XQ_BASE_LO q.val, v) ∧ t.rd (rXfer_XQ_BASE_LO q.val) = s.rd (rXfer_XQ_BASE_LO q.val)) ∧
            (reg.val = 2 → t.rd (rXfer_XQ_BASE_HI q.val) = v ∧
              t.rd (rXfer_XQ_BASE_LO q.val) = (s.stagedFor m (rXfer_XQ_BASE_HI q.val)).getD (s.rd (rXfer_XQ_BASE_LO q.val))))) ∧
      (Admitted s m rXfer_XF_CTRL (s.privAt m rXfer_XF_CTRL) →
        ∃ t, exec (.xfQenClear m q) s = .next t ∧ Keeps (only [.regs, .host, .flt, .cfg]) s t ∧ (t.xq q.val).wait = none ∧ (t.xq q.val).busy = (s.xq q.val).busy ∧
          ∀ j < 4, t.bit rXfer_XF_CTRL j = (s.bit rXfer_XF_CTRL j && decide (j ≠ q.val)))) ∧
    (∀ q : Fin 4,
      let h := s.fld (rXfer_XQ_HEAD q.val) 0 13
      let at_ := s.rd64 (rXfer_XQ_BASE_LO q.val) + 32 * (h % s.xqRing q.val)
      let ended := fun (t : State) (code tstamp : Nat) (moved : List Out) =>
        s.host.out ++ moved ++ [.dma (at_ + 24) (natLe 4 (1 + 2 * code) ++ natLe 4 tstamp)] <+: t.host.out ∧ (t.xq q.val).busy = none ∧
          (t.xq q.val).wait = none ∧ t.fld (rXfer_XQ_HEAD q.val) 0 13 = (h + 1) % 8192 ∧
          (t.rd (rXfer_XQ_DONE q.val)).toNat = min ((s.rd (rXfer_XQ_DONE q.val)).toNat + 1) (2 ^ 32 - 1)
      (∀ d, s.bit (rPg_PG_CTRL 0x014) 0 = false ∨ s.bit rXfer_XF_CTRL q.val = false ∨ (s.xq q.val).busy ≠ none ∨ s.xqHeld q.val = 0 ∨ s.xferOn = false →
        exec (.xferDescStart q d) s = .next s) ∧
      (∀ d, s.bit (rPg_PG_CTRL 0x014) 0 = true → s.bit rXfer_XF_CTRL q.val = true → (s.xq q.val).busy = none → s.xqHeld q.val ≠ 0 → s.xferOn = true →
        ((s.xq q.val).wait = none →
          (descFormatOk d = false → ∃ t, exec (.xferDescStart q d) s = .next t ∧ Keeps (only [.regs, .mem, .host, .flt, .log]) s t ∧ ended t 1 s.now [] ∧ (t.det 936).held = true) ∧
          (descFormatOk d = true → descRangeOk d = false →
            ∃ t, exec (.xferDescStart q d) s = .next t ∧ Keeps (only [.regs, .mem, .host, .flt, .log]) s t ∧ ended t 1 s.now [] ∧ (t.det 937).held = true) ∧
          (descFormatOk d = true → descRangeOk d = true → ∃ t, exec (.xferDescStart q d) s = .next t ∧ Keeps (only [.regs, .mem, .host, .flt, .log]) s t ∧
            (descTrig d = true → (t.xq q.val).wait = some (d, s.fired (descTmr d)) ∧ (t.xq q.val).busy = none) ∧
            (descTrig d = false → (t.xq q.val).busy = some (d, s.now, s.fired (descTmr d))))) ∧
        (∀ w seen, (s.xq q.val).wait = some (w, seen) →
          (seen < s.fired (descTmr w) → ∃ t, exec (.xferDescStart q d) s = .next t ∧ Keeps (only [.regs, .mem, .host, .flt, .log]) s t ∧
            (t.xq q.val).busy = some (w, s.now, seen + 1) ∧ (t.xq q.val).wait = none) ∧
          (s.fired (descTmr w) ≤ seen → exec (.xferDescStart q d) s = .next s))) ∧
      (∀ d t0 seen, (s.xq q.val).busy = some (d, t0, seen) →
        (s.xferOn = false → exec (.xferCopyDone q) s = .next s) ∧
        (s.xferOn = true → let above := descTrig d = true ∧ seen < s.fired (descTmr d)
         ∃ t, exec (.xferCopyDone q) s = .next t ∧ Keeps (only [.regs, .mem, .host, .flt, .log]) s t ∧
          (¬ above → ended t 0 t0 [.dma d.dst.toNat (s.xferBytes d)]) ∧
          (above → ended t 3 t0 [.dma d.dst.toNat (s.xferBytes d)] ∧ (t.det 939).held = true)) ∧
        ∀ n : BitVec 16, (s.xferOn = false → exec (.xferPcieErr (some q) n) s = .next s) ∧
         (s.xferOn = true → ∃ t, exec (.xferPcieErr (some q) n) s = .next t ∧ Keeps (only [.regs, .mem, .host, .flt, .log]) s t ∧
          ended t 2 t0 [.dma d.dst.toNat ((s.xferBytes d).take n.toNat)] ∧ (t.det 938).held = true)))

/-- The code check: which words are valid, and the errors it detects. stated: R64. -/
def Obligations.CodeCheck : Prop :=
  ∀ a id : Nat, 32768 < a → a < 65536 → a % 2 = 1 →
    (∀ v age q, v < 65536 → let w := mkCsw a id v age q
      cswValid a w id = true ∧ cswVal a w id = v ∧ cswAge w = age % 65536 ∧ cswQual w = q) ∧
    (∀ w, cswValid a w id = true ↔ cswChk w = (crc12 w id).toNat ∧ ∃ v < 65536, cswVc w = (a * v + sigB id) % 2 ^ 32) ∧
    (∀ v v', v < 65536 → v' < 65536 → (a * v + sigB id) % 2 ^ 32 = (a * v' + sigB id) % 2 ^ 32 → v = v') ∧
    (∀ w w' : Csw, vcOk a w id = true →
      (∀ k < 32, cswVc w' = (cswVc w + 2 ^ k) % 2 ^ 32 ∨ (cswVc w' + 2 ^ k) % 2 ^ 32 = cswVc w → vcOk a w' id = false) ∧
      (∀ e, e % a ≠ 0 → codeDiff w id + e < 2 ^ 32 → cswVc w' = (cswVc w + e) % 2 ^ 32 → vcOk a w' id = false) ∧
      ∀ e, e % a ≠ 0 → e ≤ codeDiff w id → (cswVc w' + e) % 2 ^ 32 = cswVc w → vcOk a w' id = false)

/-- A command of a master without the privilege and ownership of R34 changes nothing but the record of its denial.
derived: R31, R34, R35, R45, spec/02_register_model_host.md. -/
def Obligations.Denied : Prop :=
  ∀ (s : State) (m : Master) (b : Bool) (v : BitVec 32) (w : BitVec 64) (n q : Fin 4) (p : Fin 16) (i : BitVec 10) (u : Fin 32) (k : Fin 192)
    (bank : Fin 24) (r : BitVec 16) (tm : Fin 48) (pt : Fin 8) (c x : Fin 64) (f g : Fin 3) (env : StartEnv) (pg : Fin 448) (y : BitVec 4),
    (pageBlock pg.val).isSome = true → ∀ e : Instr × Nat × Bool,
      e ∈ [(.mapDeWrite m b, rMap_DE_CMD, s.privAt m rMap_DE_CMD),
        (.mapDeRead m, rMap_DE_CMD, s.privAt m rMap_DE_CMD),
        (.mapDeReservedOp m b, rMap_DE_CMD, s.privAt m rMap_DE_CMD),
        (.mapCqQuery m v, rMap_CQ_ID, s.privAt m rMap_CQ_ID),
        (.mapInvAll m, rMap_INV_ALL, s.privAt m rMap_INV_ALL),
        (.pairSplitReq m n, rPair_SPLIT_CTRL n.val, s.holdsAdmin m),
        (.pairRejoinReq m n, rPair_SPLIT_CTRL n.val, s.holdsAdmin m),
        (.dbgEnable m n, rPair_DBG_CTRL n.val, s.holdsAdmin m),
        (.dbgDisable m n, rPair_DBG_CTRL n.val, s.holdsAdmin m),
        (.dbgHalt ⟨m, false, 0⟩ n, rPair_DBG_CTRL n.val, s.holdsAdmin m),
        (.dbgStep ⟨m, false, 0⟩ n, rPair_DBG_CTRL n.val, s.holdsAdmin m),
        (.dbgResume ⟨m, false, 0⟩ n, rPair_DBG_CTRL n.val, s.holdsAdmin m),
        (.dbgRegWrite m n w, rPair_DBG_DATA_HI n.val, s.holdsAdmin m),
        (.fnResetCmd m p i, rCfg_FN_CMD, s.holdsMA m || s.holdsOwner m p.val),
        (.spdClrLatch m u, rSpd_CMD u.val, s.privAt m (rSpd_CMD u.val)),
        (.chClrLatch m k, rCh_CMD k.val, s.privAt m (rCh_CMD k.val)),
        (.bankClrLatch m bank r r r, rBank_CMD bank.val, s.privAt m (rBank_CMD bank.val)),
        (.bankShutTest m bank, rBank_CMD bank.val, s.privAt m (rBank_CMD bank.val)),
        (.trimZero m k r, rCh_TRIM_CMD k.val, s.privAt m (rCh_TRIM_CMD k.val)),
        (.trimSpan m k r, rCh_TRIM_CMD k.val, s.privAt m (rCh_TRIM_CMD k.val)),
        (.trimClear m k, rCh_TRIM_CMD k.val, s.privAt m (rCh_TRIM_CMD k.val)),
        (.timerArm m tm, rTmr_T_CMD tm.val, s.privAt m (rTmr_T_CMD tm.val)),
        (.timerStop m tm, rTmr_T_CMD tm.val, s.privAt m (rTmr_T_CMD tm.val)),
        (.timerPop m tm, rTmr_T_CMD tm.val, s.privAt m (rTmr_T_CMD tm.val)),
        (.timerCapture m tm, rTmr_T_CMD tm.val, s.privAt m (rTmr_T_CMD tm.val)),
        (.timerCntSet m tm v, rTmr_CNT_SET tm.val, s.privAt m (rTmr_CNT_SET tm.val)),
        (.portRetrain m pt, rPort_CMD pt.val, s.privAt m (rPort_CMD pt.val)),
        (.tokenHandback m p, rFab_TOKEN_CMD, s.holdsAdmin m),
        (.connRestart m c, rSafe_CMD, s.privAt m rSafe_CMD),
        (.lcAdvance m f env, rLcs_LC_CMD, s.mayAdvance m),
        (.forceSet m, rCfg_FRC_CMD, s.holdsMA m || s.holdsOwner m (s.fld (bk m rCfg_FRC_SEL) 0 4)),
        (.forceClear m, rCfg_FRC_CMD, s.holdsMA m || s.holdsOwner m (s.fld (bk m rCfg_FRC_SEL) 0 4)),
        (.forceClearAll m, rCfg_FRC_CMD, s.holdsMA m || s.holdsOwner m (s.fld (bk m rCfg_FRC_SEL) 0 4)),
        (.stgBegin m, rCfg_STG_CMD, s.holdsAdmin m),
        (.stgDataWrite m v b, rCfg_STG_DATA_HI, s.holdsAdmin m),
        (.stgCheck m, rCfg_STG_CMD, s.holdsAdmin m),
        (.stgCommit m, rCfg_STG_CMD, s.holdsAdmin m),
        (.stgAbandon m, rCfg_STG_CMD, s.holdsAdmin m),
        (.cntClear m b, rFlt2_CNT_CMD, s.holdsMA m),
        (.cntClearAll m, rFlt2_CNT_CMD, s.holdsMA m),
        (.policyWrite m b v, if b then rFlt3_POL_HI else rFlt3_POL_LO, s.privAt m (if b then rFlt3_POL_HI else rFlt3_POL_LO)),
        (.flushCoal m, rLog_CMD, s.privAt m rLog_CMD),
        (.logHostRpWrite m v, rLog_HOST_RP, s.privAt m rLog_HOST_RP),
        (.logFlRead m v, rLog_FL_SEL, s.privAt m rLog_FL_SEL),
        (.vecAck m x, rEvt_VEC_ACK, s.privAt m rEvt_VEC_ACK),
        (.routingWrite m v, rEvt_RT_DATA, s.privAt m rEvt_RT_DATA),
        (.pgEnWrite m pg b, rPg_PG_CTRL pg.val, s.roleAt m (rPg_PG_CTRL pg.val) 0),
        (.pgExpertWrite m pg b, rPg_PG_CTRL pg.val, s.roleAt m (rPg_PG_CTRL pg.val) 0),
        (.lockReq m pg, rPg_PG_CTRL pg.val, s.roleAt m (rPg_PG_CTRL pg.val) 0),
        (.xqTailWrite m q v, rXfer_XQ_TAIL q.val, s.privAt m (rXfer_XQ_TAIL q.val)),
        (.xqConfigWrite m q g v, xqReg q.val g.val, s.privAt m (xqReg q.val g.val)),
        (.xfQenClear m q, rXfer_XF_CTRL, s.privAt m rXfer_XF_CTRL),
        (.vgAck m y, rNgl_VG_ACK, s.holdsMaint m)] →
      s.asleep e.2.1 = false → s.mayWrite m e.2.1 e.2.2 = false →
      ∃ t, exec e.1 s = .next t ∧ WriteDenied s t m e.2.1 ∧
        ∀ z, z ≠ rHost_DENY_ADDR → z ≠ rHost_DENY_MASTER → z ≠ rFlt0_BUS_SAT → z ≠ rPg_PM_STAT (e.2.1 / 0x1000) → t.rd z = s.rd z
end

