-- ==== Sys2Proof/Laws/State.lean ====
section
/-! SUPPORT. What a change of one group of the state leaves in every group: true by definition, for `simp`. -/

namespace Sys2Proof.Laws

open Sys2Proof.Machine

@[simp] theorem modPending_pending (s : State) (f : List Instr → List Instr) : (s.modPending f).pending = f s.pending := rfl
@[simp] theorem modPending_dev (s : State) (f : List Instr → List Instr) : (s.modPending f).dev = s.dev := rfl
@[simp] theorem modPending_regs (s : State) (f : List Instr → List Instr) : (s.modPending f).regs = s.regs := rfl
@[simp] theorem modPending_mem (s : State) (f : List Instr → List Instr) : (s.modPending f).mem = s.mem := rfl
@[simp] theorem modPending_host (s : State) (f : List Instr → List Instr) : (s.modPending f).host = s.host := rfl
@[simp] theorem modPending_eng (s : State) (f : List Instr → List Instr) : (s.modPending f).eng = s.eng := rfl
@[simp] theorem modPending_flt (s : State) (f : List Instr → List Instr) : (s.modPending f).flt = s.flt := rfl
@[simp] theorem modPending_log (s : State) (f : List Instr → List Instr) : (s.modPending f).log = s.log := rfl
@[simp] theorem modPending_evt (s : State) (f : List Instr → List Instr) : (s.modPending f).evt = s.evt := rfl
@[simp] theorem modPending_cfg (s : State) (f : List Instr → List Instr) : (s.modPending f).cfg = s.cfg := rfl
@[simp] theorem modPending_mer (s : State) (f : List Instr → List Instr) : (s.modPending f).mer = s.mer := rfl
@[simp] theorem modPending_tim (s : State) (f : List Instr → List Instr) : (s.modPending f).tim = s.tim := rfl
@[simp] theorem modPending_lcs (s : State) (f : List Instr → List Instr) : (s.modPending f).lcs = s.lcs := rfl
@[simp] theorem modPending_field (s : State) (f : List Instr → List Instr) : (s.modPending f).field = s.field := rfl
@[simp] theorem modPending_fab (s : State) (f : List Instr → List Instr) : (s.modPending f).fab = s.fab := rfl
@[simp] theorem modPending_net (s : State) (f : List Instr → List Instr) : (s.modPending f).net = s.net := rfl
@[simp] theorem modPending_vern (s : State) (f : List Instr → List Instr) : (s.modPending f).vern = s.vern := rfl
@[simp] theorem modPending_ngl (s : State) (f : List Instr → List Instr) : (s.modPending f).ngl = s.ngl := rfl
@[simp] theorem modPending_free (s : State) (f : List Instr → List Instr) : (s.modPending f).free = s.free := rfl
@[simp] theorem modDev_pending (s : State) (f : Dev → Dev) : (s.modDev f).pending = s.pending := rfl
@[simp] theorem modDev_dev (s : State) (f : Dev → Dev) : (s.modDev f).dev = f s.dev := rfl
@[simp] theorem modDev_regs (s : State) (f : Dev → Dev) : (s.modDev f).regs = s.regs := rfl
@[simp] theorem modDev_mem (s : State) (f : Dev → Dev) : (s.modDev f).mem = s.mem := rfl
@[simp] theorem modDev_host (s : State) (f : Dev → Dev) : (s.modDev f).host = s.host := rfl
@[simp] theorem modDev_eng (s : State) (f : Dev → Dev) : (s.modDev f).eng = s.eng := rfl
@[simp] theorem modDev_flt (s : State) (f : Dev → Dev) : (s.modDev f).flt = s.flt := rfl
@[simp] theorem modDev_log (s : State) (f : Dev → Dev) : (s.modDev f).log = s.log := rfl
@[simp] theorem modDev_evt (s : State) (f : Dev → Dev) : (s.modDev f).evt = s.evt := rfl
@[simp] theorem modDev_cfg (s : State) (f : Dev → Dev) : (s.modDev f).cfg = s.cfg := rfl
@[simp] theorem modDev_mer (s : State) (f : Dev → Dev) : (s.modDev f).mer = s.mer := rfl
@[simp] theorem modDev_tim (s : State) (f : Dev → Dev) : (s.modDev f).tim = s.tim := rfl
@[simp] theorem modDev_lcs (s : State) (f : Dev → Dev) : (s.modDev f).lcs = s.lcs := rfl
@[simp] theorem modDev_field (s : State) (f : Dev → Dev) : (s.modDev f).field = s.field := rfl
@[simp] theorem modDev_fab (s : State) (f : Dev → Dev) : (s.modDev f).fab = s.fab := rfl
@[simp] theorem modDev_net (s : State) (f : Dev → Dev) : (s.modDev f).net = s.net := rfl
@[simp] theorem modDev_vern (s : State) (f : Dev → Dev) : (s.modDev f).vern = s.vern := rfl
@[simp] theorem modDev_ngl (s : State) (f : Dev → Dev) : (s.modDev f).ngl = s.ngl := rfl
@[simp] theorem modDev_free (s : State) (f : Dev → Dev) : (s.modDev f).free = s.free := rfl
@[simp] theorem modRegs_pending (s : State) (f : Tab Word → Tab Word) : (s.modRegs f).pending = s.pending := rfl
@[simp] theorem modRegs_dev (s : State) (f : Tab Word → Tab Word) : (s.modRegs f).dev = s.dev := rfl
@[simp] theorem modRegs_regs (s : State) (f : Tab Word → Tab Word) : (s.modRegs f).regs = f s.regs := rfl
@[simp] theorem modRegs_mem (s : State) (f : Tab Word → Tab Word) : (s.modRegs f).mem = s.mem := rfl
@[simp] theorem modRegs_host (s : State) (f : Tab Word → Tab Word) : (s.modRegs f).host = s.host := rfl
@[simp] theorem modRegs_eng (s : State) (f : Tab Word → Tab Word) : (s.modRegs f).eng = s.eng := rfl
@[simp] theorem modRegs_flt (s : State) (f : Tab Word → Tab Word) : (s.modRegs f).flt = s.flt := rfl
@[simp] theorem modRegs_log (s : State) (f : Tab Word → Tab Word) : (s.modRegs f).log = s.log := rfl
@[simp] theorem modRegs_evt (s : State) (f : Tab Word → Tab Word) : (s.modRegs f).evt = s.evt := rfl
@[simp] theorem modRegs_cfg (s : State) (f : Tab Word → Tab Word) : (s.modRegs f).cfg = s.cfg := rfl
@[simp] theorem modRegs_mer (s : State) (f : Tab Word → Tab Word) : (s.modRegs f).mer = s.mer := rfl
@[simp] theorem modRegs_tim (s : State) (f : Tab Word → Tab Word) : (s.modRegs f).tim = s.tim := rfl
@[simp] theorem modRegs_lcs (s : State) (f : Tab Word → Tab Word) : (s.modRegs f).lcs = s.lcs := rfl
@[simp] theorem modRegs_field (s : State) (f : Tab Word → Tab Word) : (s.modRegs f).field = s.field := rfl
@[simp] theorem modRegs_fab (s : State) (f : Tab Word → Tab Word) : (s.modRegs f).fab = s.fab := rfl
@[simp] theorem modRegs_net (s : State) (f : Tab Word → Tab Word) : (s.modRegs f).net = s.net := rfl
@[simp] theorem modRegs_vern (s : State) (f : Tab Word → Tab Word) : (s.modRegs f).vern = s.vern := rfl
@[simp] theorem modRegs_ngl (s : State) (f : Tab Word → Tab Word) : (s.modRegs f).ngl = s.ngl := rfl
@[simp] theorem modRegs_free (s : State) (f : Tab Word → Tab Word) : (s.modRegs f).free = s.free := rfl
@[simp] theorem modMem_pending (s : State) (f : Mems → Mems) : (s.modMem f).pending = s.pending := rfl
@[simp] theorem modMem_dev (s : State) (f : Mems → Mems) : (s.modMem f).dev = s.dev := rfl
@[simp] theorem modMem_regs (s : State) (f : Mems → Mems) : (s.modMem f).regs = s.regs := rfl
@[simp] theorem modMem_mem (s : State) (f : Mems → Mems) : (s.modMem f).mem = f s.mem := rfl
@[simp] theorem modMem_host (s : State) (f : Mems → Mems) : (s.modMem f).host = s.host := rfl
@[simp] theorem modMem_eng (s : State) (f : Mems → Mems) : (s.modMem f).eng = s.eng := rfl
@[simp] theorem modMem_flt (s : State) (f : Mems → Mems) : (s.modMem f).flt = s.flt := rfl
@[simp] theorem modMem_log (s : State) (f : Mems → Mems) : (s.modMem f).log = s.log := rfl
@[simp] theorem modMem_evt (s : State) (f : Mems → Mems) : (s.modMem f).evt = s.evt := rfl
@[simp] theorem modMem_cfg (s : State) (f : Mems → Mems) : (s.modMem f).cfg = s.cfg := rfl
@[simp] theorem modMem_mer (s : State) (f : Mems → Mems) : (s.modMem f).mer = s.mer := rfl
@[simp] theorem modMem_tim (s : State) (f : Mems → Mems) : (s.modMem f).tim = s.tim := rfl
@[simp] theorem modMem_lcs (s : State) (f : Mems → Mems) : (s.modMem f).lcs = s.lcs := rfl
@[simp] theorem modMem_field (s : State) (f : Mems → Mems) : (s.modMem f).field = s.field := rfl
@[simp] theorem modMem_fab (s : State) (f : Mems → Mems) : (s.modMem f).fab = s.fab := rfl
@[simp] theorem modMem_net (s : State) (f : Mems → Mems) : (s.modMem f).net = s.net := rfl
@[simp] theorem modMem_vern (s : State) (f : Mems → Mems) : (s.modMem f).vern = s.vern := rfl
@[simp] theorem modMem_ngl (s : State) (f : Mems → Mems) : (s.modMem f).ngl = s.ngl := rfl
@[simp] theorem modMem_free (s : State) (f : Mems → Mems) : (s.modMem f).free = s.free := rfl
@[simp] theorem modHost_pending (s : State) (f : HostIf → HostIf) : (s.modHost f).pending = s.pending := rfl
@[simp] theorem modHost_dev (s : State) (f : HostIf → HostIf) : (s.modHost f).dev = s.dev := rfl
@[simp] theorem modHost_regs (s : State) (f : HostIf → HostIf) : (s.modHost f).regs = s.regs := rfl
@[simp] theorem modHost_mem (s : State) (f : HostIf → HostIf) : (s.modHost f).mem = s.mem := rfl
@[simp] theorem modHost_host (s : State) (f : HostIf → HostIf) : (s.modHost f).host = f s.host := rfl
@[simp] theorem modHost_eng (s : State) (f : HostIf → HostIf) : (s.modHost f).eng = s.eng := rfl
@[simp] theorem modHost_flt (s : State) (f : HostIf → HostIf) : (s.modHost f).flt = s.flt := rfl
@[simp] theorem modHost_log (s : State) (f : HostIf → HostIf) : (s.modHost f).log = s.log := rfl
@[simp] theorem modHost_evt (s : State) (f : HostIf → HostIf) : (s.modHost f).evt = s.evt := rfl
@[simp] theorem modHost_cfg (s : State) (f : HostIf → HostIf) : (s.modHost f).cfg = s.cfg := rfl
@[simp] theorem modHost_mer (s : State) (f : HostIf → HostIf) : (s.modHost f).mer = s.mer := rfl
@[simp] theorem modHost_tim (s : State) (f : HostIf → HostIf) : (s.modHost f).tim = s.tim := rfl
@[simp] theorem modHost_lcs (s : State) (f : HostIf → HostIf) : (s.modHost f).lcs = s.lcs := rfl
@[simp] theorem modHost_field (s : State) (f : HostIf → HostIf) : (s.modHost f).field = s.field := rfl
@[simp] theorem modHost_fab (s : State) (f : HostIf → HostIf) : (s.modHost f).fab = s.fab := rfl
@[simp] theorem modHost_net (s : State) (f : HostIf → HostIf) : (s.modHost f).net = s.net := rfl
@[simp] theorem modHost_vern (s : State) (f : HostIf → HostIf) : (s.modHost f).vern = s.vern := rfl
@[simp] theorem modHost_ngl (s : State) (f : HostIf → HostIf) : (s.modHost f).ngl = s.ngl := rfl
@[simp] theorem modHost_free (s : State) (f : HostIf → HostIf) : (s.modHost f).free = s.free := rfl
@[simp] theorem modEng_pending (s : State) (f : Eng → Eng) : (s.modEng f).pending = s.pending := rfl
@[simp] theorem modEng_dev (s : State) (f : Eng → Eng) : (s.modEng f).dev = s.dev := rfl
@[simp] theorem modEng_regs (s : State) (f : Eng → Eng) : (s.modEng f).regs = s.regs := rfl
@[simp] theorem modEng_mem (s : State) (f : Eng → Eng) : (s.modEng f).mem = s.mem := rfl
@[simp] theorem modEng_host (s : State) (f : Eng → Eng) : (s.modEng f).host = s.host := rfl
@[simp] theorem modEng_eng (s : State) (f : Eng → Eng) : (s.modEng f).eng = f s.eng := rfl
@[simp] theorem modEng_flt (s : State) (f : Eng → Eng) : (s.modEng f).flt = s.flt := rfl
@[simp] theorem modEng_log (s : State) (f : Eng → Eng) : (s.modEng f).log = s.log := rfl
@[simp] theorem modEng_evt (s : State) (f : Eng → Eng) : (s.modEng f).evt = s.evt := rfl
@[simp] theorem modEng_cfg (s : State) (f : Eng → Eng) : (s.modEng f).cfg = s.cfg := rfl
@[simp] theorem modEng_mer (s : State) (f : Eng → Eng) : (s.modEng f).mer = s.mer := rfl
@[simp] theorem modEng_tim (s : State) (f : Eng → Eng) : (s.modEng f).tim = s.tim := rfl
@[simp] theorem modEng_lcs (s : State) (f : Eng → Eng) : (s.modEng f).lcs = s.lcs := rfl
@[simp] theorem modEng_field (s : State) (f : Eng → Eng) : (s.modEng f).field = s.field := rfl
@[simp] theorem modEng_fab (s : State) (f : Eng → Eng) : (s.modEng f).fab = s.fab := rfl
@[simp] theorem modEng_net (s : State) (f : Eng → Eng) : (s.modEng f).net = s.net := rfl
@[simp] theorem modEng_vern (s : State) (f : Eng → Eng) : (s.modEng f).vern = s.vern := rfl
@[simp] theorem modEng_ngl (s : State) (f : Eng → Eng) : (s.modEng f).ngl = s.ngl := rfl
@[simp] theorem modEng_free (s : State) (f : Eng → Eng) : (s.modEng f).free = s.free := rfl
@[simp] theorem modFlt_pending (s : State) (f : Flt → Flt) : (s.modFlt f).pending = s.pending := rfl
@[simp] theorem modFlt_dev (s : State) (f : Flt → Flt) : (s.modFlt f).dev = s.dev := rfl
@[simp] theorem modFlt_regs (s : State) (f : Flt → Flt) : (s.modFlt f).regs = s.regs := rfl
@[simp] theorem modFlt_mem (s : State) (f : Flt → Flt) : (s.modFlt f).mem = s.mem := rfl
@[simp] theorem modFlt_host (s : State) (f : Flt → Flt) : (s.modFlt f).host = s.host := rfl
@[simp] theorem modFlt_eng (s : State) (f : Flt → Flt) : (s.modFlt f).eng = s.eng := rfl
@[simp] theorem modFlt_flt (s : State) (f : Flt → Flt) : (s.modFlt f).flt = f s.flt := rfl
@[simp] theorem modFlt_log (s : State) (f : Flt → Flt) : (s.modFlt f).log = s.log := rfl
@[simp] theorem modFlt_evt (s : State) (f : Flt → Flt) : (s.modFlt f).evt = s.evt := rfl
@[simp] theorem modFlt_cfg (s : State) (f : Flt → Flt) : (s.modFlt f).cfg = s.cfg := rfl
@[simp] theorem modFlt_mer (s : State) (f : Flt → Flt) : (s.modFlt f).mer = s.mer := rfl
@[simp] theorem modFlt_tim (s : State) (f : Flt → Flt) : (s.modFlt f).tim = s.tim := rfl
@[simp] theorem modFlt_lcs (s : State) (f : Flt → Flt) : (s.modFlt f).lcs = s.lcs := rfl
@[simp] theorem modFlt_field (s : State) (f : Flt → Flt) : (s.modFlt f).field = s.field := rfl
@[simp] theorem modFlt_fab (s : State) (f : Flt → Flt) : (s.modFlt f).fab = s.fab := rfl
@[simp] theorem modFlt_net (s : State) (f : Flt → Flt) : (s.modFlt f).net = s.net := rfl
@[simp] theorem modFlt_vern (s : State) (f : Flt → Flt) : (s.modFlt f).vern = s.vern := rfl
@[simp] theorem modFlt_ngl (s : State) (f : Flt → Flt) : (s.modFlt f).ngl = s.ngl := rfl
@[simp] theorem modFlt_free (s : State) (f : Flt → Flt) : (s.modFlt f).free = s.free := rfl
@[simp] theorem modLog_pending (s : State) (f : Log → Log) : (s.modLog f).pending = s.pending := rfl
@[simp] theorem modLog_dev (s : State) (f : Log → Log) : (s.modLog f).dev = s.dev := rfl
@[simp] theorem modLog_regs (s : State) (f : Log → Log) : (s.modLog f).regs = s.regs := rfl
@[simp] theorem modLog_mem (s : State) (f : Log → Log) : (s.modLog f).mem = s.mem := rfl
@[simp] theorem modLog_host (s : State) (f : Log → Log) : (s.modLog f).host = s.host := rfl
@[simp] theorem modLog_eng (s : State) (f : Log → Log) : (s.modLog f).eng = s.eng := rfl
@[simp] theorem modLog_flt (s : State) (f : Log → Log) : (s.modLog f).flt = s.flt := rfl
@[simp] theorem modLog_log (s : State) (f : Log → Log) : (s.modLog f).log = f s.log := rfl
@[simp] theorem modLog_evt (s : State) (f : Log → Log) : (s.modLog f).evt = s.evt := rfl
@[simp] theorem modLog_cfg (s : State) (f : Log → Log) : (s.modLog f).cfg = s.cfg := rfl
@[simp] theorem modLog_mer (s : State) (f : Log → Log) : (s.modLog f).mer = s.mer := rfl
@[simp] theorem modLog_tim (s : State) (f : Log → Log) : (s.modLog f).tim = s.tim := rfl
@[simp] theorem modLog_lcs (s : State) (f : Log → Log) : (s.modLog f).lcs = s.lcs := rfl
@[simp] theorem modLog_field (s : State) (f : Log → Log) : (s.modLog f).field = s.field := rfl
@[simp] theorem modLog_fab (s : State) (f : Log → Log) : (s.modLog f).fab = s.fab := rfl
@[simp] theorem modLog_net (s : State) (f : Log → Log) : (s.modLog f).net = s.net := rfl
@[simp] theorem modLog_vern (s : State) (f : Log → Log) : (s.modLog f).vern = s.vern := rfl
@[simp] theorem modLog_ngl (s : State) (f : Log → Log) : (s.modLog f).ngl = s.ngl := rfl
@[simp] theorem modLog_free (s : State) (f : Log → Log) : (s.modLog f).free = s.free := rfl
@[simp] theorem modEvt_pending (s : State) (f : Evt → Evt) : (s.modEvt f).pending = s.pending := rfl
@[simp] theorem modEvt_dev (s : State) (f : Evt → Evt) : (s.modEvt f).dev = s.dev := rfl
@[simp] theorem modEvt_regs (s : State) (f : Evt → Evt) : (s.modEvt f).regs = s.regs := rfl
@[simp] theorem modEvt_mem (s : State) (f : Evt → Evt) : (s.modEvt f).mem = s.mem := rfl
@[simp] theorem modEvt_host (s : State) (f : Evt → Evt) : (s.modEvt f).host = s.host := rfl
@[simp] theorem modEvt_eng (s : State) (f : Evt → Evt) : (s.modEvt f).eng = s.eng := rfl
@[simp] theorem modEvt_flt (s : State) (f : Evt → Evt) : (s.modEvt f).flt = s.flt := rfl
@[simp] theorem modEvt_log (s : State) (f : Evt → Evt) : (s.modEvt f).log = s.log := rfl
@[simp] theorem modEvt_evt (s : State) (f : Evt → Evt) : (s.modEvt f).evt = f s.evt := rfl
@[simp] theorem modEvt_cfg (s : State) (f : Evt → Evt) : (s.modEvt f).cfg = s.cfg := rfl
@[simp] theorem modEvt_mer (s : State) (f : Evt → Evt) : (s.modEvt f).mer = s.mer := rfl
@[simp] theorem modEvt_tim (s : State) (f : Evt → Evt) : (s.modEvt f).tim = s.tim := rfl
@[simp] theorem modEvt_lcs (s : State) (f : Evt → Evt) : (s.modEvt f).lcs = s.lcs := rfl
@[simp] theorem modEvt_field (s : State) (f : Evt → Evt) : (s.modEvt f).field = s.field := rfl
@[simp] theorem modEvt_fab (s : State) (f : Evt → Evt) : (s.modEvt f).fab = s.fab := rfl
@[simp] theorem modEvt_net (s : State) (f : Evt → Evt) : (s.modEvt f).net = s.net := rfl
@[simp] theorem modEvt_vern (s : State) (f : Evt → Evt) : (s.modEvt f).vern = s.vern := rfl
@[simp] theorem modEvt_ngl (s : State) (f : Evt → Evt) : (s.modEvt f).ngl = s.ngl := rfl
@[simp] theorem modEvt_free (s : State) (f : Evt → Evt) : (s.modEvt f).free = s.free := rfl
@[simp] theorem modCfg_pending (s : State) (f : Cfg → Cfg) : (s.modCfg f).pending = s.pending := rfl
@[simp] theorem modCfg_dev (s : State) (f : Cfg → Cfg) : (s.modCfg f).dev = s.dev := rfl
@[simp] theorem modCfg_regs (s : State) (f : Cfg → Cfg) : (s.modCfg f).regs = s.regs := rfl
@[simp] theorem modCfg_mem (s : State) (f : Cfg → Cfg) : (s.modCfg f).mem = s.mem := rfl
@[simp] theorem modCfg_host (s : State) (f : Cfg → Cfg) : (s.modCfg f).host = s.host := rfl
@[simp] theorem modCfg_eng (s : State) (f : Cfg → Cfg) : (s.modCfg f).eng = s.eng := rfl
@[simp] theorem modCfg_flt (s : State) (f : Cfg → Cfg) : (s.modCfg f).flt = s.flt := rfl
@[simp] theorem modCfg_log (s : State) (f : Cfg → Cfg) : (s.modCfg f).log = s.log := rfl
@[simp] theorem modCfg_evt (s : State) (f : Cfg → Cfg) : (s.modCfg f).evt = s.evt := rfl
@[simp] theorem modCfg_cfg (s : State) (f : Cfg → Cfg) : (s.modCfg f).cfg = f s.cfg := rfl
@[simp] theorem modCfg_mer (s : State) (f : Cfg → Cfg) : (s.modCfg f).mer = s.mer := rfl
@[simp] theorem modCfg_tim (s : State) (f : Cfg → Cfg) : (s.modCfg f).tim = s.tim := rfl
@[simp] theorem modCfg_lcs (s : State) (f : Cfg → Cfg) : (s.modCfg f).lcs = s.lcs := rfl
@[simp] theorem modCfg_field (s : State) (f : Cfg → Cfg) : (s.modCfg f).field = s.field := rfl
@[simp] theorem modCfg_fab (s : State) (f : Cfg → Cfg) : (s.modCfg f).fab = s.fab := rfl
@[simp] theorem modCfg_net (s : State) (f : Cfg → Cfg) : (s.modCfg f).net = s.net := rfl
@[simp] theorem modCfg_vern (s : State) (f : Cfg → Cfg) : (s.modCfg f).vern = s.vern := rfl
@[simp] theorem modCfg_ngl (s : State) (f : Cfg → Cfg) : (s.modCfg f).ngl = s.ngl := rfl
@[simp] theorem modCfg_free (s : State) (f : Cfg → Cfg) : (s.modCfg f).free = s.free := rfl
@[simp] theorem modMer_pending (s : State) (f : Mer → Mer) : (s.modMer f).pending = s.pending := rfl
@[simp] theorem modMer_dev (s : State) (f : Mer → Mer) : (s.modMer f).dev = s.dev := rfl
@[simp] theorem modMer_regs (s : State) (f : Mer → Mer) : (s.modMer f).regs = s.regs := rfl
@[simp] theorem modMer_mem (s : State) (f : Mer → Mer) : (s.modMer f).mem = s.mem := rfl
@[simp] theorem modMer_host (s : State) (f : Mer → Mer) : (s.modMer f).host = s.host := rfl
@[simp] theorem modMer_eng (s : State) (f : Mer → Mer) : (s.modMer f).eng = s.eng := rfl
@[simp] theorem modMer_flt (s : State) (f : Mer → Mer) : (s.modMer f).flt = s.flt := rfl
@[simp] theorem modMer_log (s : State) (f : Mer → Mer) : (s.modMer f).log = s.log := rfl
@[simp] theorem modMer_evt (s : State) (f : Mer → Mer) : (s.modMer f).evt = s.evt := rfl
@[simp] theorem modMer_cfg (s : State) (f : Mer → Mer) : (s.modMer f).cfg = s.cfg := rfl
@[simp] theorem modMer_mer (s : State) (f : Mer → Mer) : (s.modMer f).mer = f s.mer := rfl
@[simp] theorem modMer_tim (s : State) (f : Mer → Mer) : (s.modMer f).tim = s.tim := rfl
@[simp] theorem modMer_lcs (s : State) (f : Mer → Mer) : (s.modMer f).lcs = s.lcs := rfl
@[simp] theorem modMer_field (s : State) (f : Mer → Mer) : (s.modMer f).field = s.field := rfl
@[simp] theorem modMer_fab (s : State) (f : Mer → Mer) : (s.modMer f).fab = s.fab := rfl
@[simp] theorem modMer_net (s : State) (f : Mer → Mer) : (s.modMer f).net = s.net := rfl
@[simp] theorem modMer_vern (s : State) (f : Mer → Mer) : (s.modMer f).vern = s.vern := rfl
@[simp] theorem modMer_ngl (s : State) (f : Mer → Mer) : (s.modMer f).ngl = s.ngl := rfl
@[simp] theorem modMer_free (s : State) (f : Mer → Mer) : (s.modMer f).free = s.free := rfl
@[simp] theorem modTim_pending (s : State) (f : Tab TimSt → Tab TimSt) : (s.modTim f).pending = s.pending := rfl
@[simp] theorem modTim_dev (s : State) (f : Tab TimSt → Tab TimSt) : (s.modTim f).dev = s.dev := rfl
@[simp] theorem modTim_regs (s : State) (f : Tab TimSt → Tab TimSt) : (s.modTim f).regs = s.regs := rfl
@[simp] theorem modTim_mem (s : State) (f : Tab TimSt → Tab TimSt) : (s.modTim f).mem = s.mem := rfl
@[simp] theorem modTim_host (s : State) (f : Tab TimSt → Tab TimSt) : (s.modTim f).host = s.host := rfl
@[simp] theorem modTim_eng (s : State) (f : Tab TimSt → Tab TimSt) : (s.modTim f).eng = s.eng := rfl
@[simp] theorem modTim_flt (s : State) (f : Tab TimSt → Tab TimSt) : (s.modTim f).flt = s.flt := rfl
@[simp] theorem modTim_log (s : State) (f : Tab TimSt → Tab TimSt) : (s.modTim f).log = s.log := rfl
@[simp] theorem modTim_evt (s : State) (f : Tab TimSt → Tab TimSt) : (s.modTim f).evt = s.evt := rfl
@[simp] theorem modTim_cfg (s : State) (f : Tab TimSt → Tab TimSt) : (s.modTim f).cfg = s.cfg := rfl
@[simp] theorem modTim_mer (s : State) (f : Tab TimSt → Tab TimSt) : (s.modTim f).mer = s.mer := rfl
@[simp] theorem modTim_tim (s : State) (f : Tab TimSt → Tab TimSt) : (s.modTim f).tim = f s.tim := rfl
@[simp] theorem modTim_lcs (s : State) (f : Tab TimSt → Tab TimSt) : (s.modTim f).lcs = s.lcs := rfl
@[simp] theorem modTim_field (s : State) (f : Tab TimSt → Tab TimSt) : (s.modTim f).field = s.field := rfl
@[simp] theorem modTim_fab (s : State) (f : Tab TimSt → Tab TimSt) : (s.modTim f).fab = s.fab := rfl
@[simp] theorem modTim_net (s : State) (f : Tab TimSt → Tab TimSt) : (s.modTim f).net = s.net := rfl
@[simp] theorem modTim_vern (s : State) (f : Tab TimSt → Tab TimSt) : (s.modTim f).vern = s.vern := rfl
@[simp] theorem modTim_ngl (s : State) (f : Tab TimSt → Tab TimSt) : (s.modTim f).ngl = s.ngl := rfl
@[simp] theorem modTim_free (s : State) (f : Tab TimSt → Tab TimSt) : (s.modTim f).free = s.free := rfl
@[simp] theorem modLcs_pending (s : State) (f : Lcs → Lcs) : (s.modLcs f).pending = s.pending := rfl
@[simp] theorem modLcs_dev (s : State) (f : Lcs → Lcs) : (s.modLcs f).dev = s.dev := rfl
@[simp] theorem modLcs_regs (s : State) (f : Lcs → Lcs) : (s.modLcs f).regs = s.regs := rfl
@[simp] theorem modLcs_mem (s : State) (f : Lcs → Lcs) : (s.modLcs f).mem = s.mem := rfl
@[simp] theorem modLcs_host (s : State) (f : Lcs → Lcs) : (s.modLcs f).host = s.host := rfl
@[simp] theorem modLcs_eng (s : State) (f : Lcs → Lcs) : (s.modLcs f).eng = s.eng := rfl
@[simp] theorem modLcs_flt (s : State) (f : Lcs → Lcs) : (s.modLcs f).flt = s.flt := rfl
@[simp] theorem modLcs_log (s : State) (f : Lcs → Lcs) : (s.modLcs f).log = s.log := rfl
@[simp] theorem modLcs_evt (s : State) (f : Lcs → Lcs) : (s.modLcs f).evt = s.evt := rfl
@[simp] theorem modLcs_cfg (s : State) (f : Lcs → Lcs) : (s.modLcs f).cfg = s.cfg := rfl
@[simp] theorem modLcs_mer (s : State) (f : Lcs → Lcs) : (s.modLcs f).mer = s.mer := rfl
@[simp] theorem modLcs_tim (s : State) (f : Lcs → Lcs) : (s.modLcs f).tim = s.tim := rfl
@[simp] theorem modLcs_lcs (s : State) (f : Lcs → Lcs) : (s.modLcs f).lcs = f s.lcs := rfl
@[simp] theorem modLcs_field (s : State) (f : Lcs → Lcs) : (s.modLcs f).field = s.field := rfl
@[simp] theorem modLcs_fab (s : State) (f : Lcs → Lcs) : (s.modLcs f).fab = s.fab := rfl
@[simp] theorem modLcs_net (s : State) (f : Lcs → Lcs) : (s.modLcs f).net = s.net := rfl
@[simp] theorem modLcs_vern (s : State) (f : Lcs → Lcs) : (s.modLcs f).vern = s.vern := rfl
@[simp] theorem modLcs_ngl (s : State) (f : Lcs → Lcs) : (s.modLcs f).ngl = s.ngl := rfl
@[simp] theorem modLcs_free (s : State) (f : Lcs → Lcs) : (s.modLcs f).free = s.free := rfl
@[simp] theorem modField_pending (s : State) (f : Fld → Fld) : (s.modField f).pending = s.pending := rfl
@[simp] theorem modField_dev (s : State) (f : Fld → Fld) : (s.modField f).dev = s.dev := rfl
@[simp] theorem modField_regs (s : State) (f : Fld → Fld) : (s.modField f).regs = s.regs := rfl
@[simp] theorem modField_mem (s : State) (f : Fld → Fld) : (s.modField f).mem = s.mem := rfl
@[simp] theorem modField_host (s : State) (f : Fld → Fld) : (s.modField f).host = s.host := rfl
@[simp] theorem modField_eng (s : State) (f : Fld → Fld) : (s.modField f).eng = s.eng := rfl
@[simp] theorem modField_flt (s : State) (f : Fld → Fld) : (s.modField f).flt = s.flt := rfl
@[simp] theorem modField_log (s : State) (f : Fld → Fld) : (s.modField f).log = s.log := rfl
@[simp] theorem modField_evt (s : State) (f : Fld → Fld) : (s.modField f).evt = s.evt := rfl
@[simp] theorem modField_cfg (s : State) (f : Fld → Fld) : (s.modField f).cfg = s.cfg := rfl
@[simp] theorem modField_mer (s : State) (f : Fld → Fld) : (s.modField f).mer = s.mer := rfl
@[simp] theorem modField_tim (s : State) (f : Fld → Fld) : (s.modField f).tim = s.tim := rfl
@[simp] theorem modField_lcs (s : State) (f : Fld → Fld) : (s.modField f).lcs = s.lcs := rfl
@[simp] theorem modField_field (s : State) (f : Fld → Fld) : (s.modField f).field = f s.field := rfl
@[simp] theorem modField_fab (s : State) (f : Fld → Fld) : (s.modField f).fab = s.fab := rfl
@[simp] theorem modField_net (s : State) (f : Fld → Fld) : (s.modField f).net = s.net := rfl
@[simp] theorem modField_vern (s : State) (f : Fld → Fld) : (s.modField f).vern = s.vern := rfl
@[simp] theorem modField_ngl (s : State) (f : Fld → Fld) : (s.modField f).ngl = s.ngl := rfl
@[simp] theorem modField_free (s : State) (f : Fld → Fld) : (s.modField f).free = s.free := rfl
@[simp] theorem modFab_pending (s : State) (f : Fab → Fab) : (s.modFab f).pending = s.pending := rfl
@[simp] theorem modFab_dev (s : State) (f : Fab → Fab) : (s.modFab f).dev = s.dev := rfl
@[simp] theorem modFab_regs (s : State) (f : Fab → Fab) : (s.modFab f).regs = s.regs := rfl
@[simp] theorem modFab_mem (s : State) (f : Fab → Fab) : (s.modFab f).mem = s.mem := rfl
@[simp] theorem modFab_host (s : State) (f : Fab → Fab) : (s.modFab f).host = s.host := rfl
@[simp] theorem modFab_eng (s : State) (f : Fab → Fab) : (s.modFab f).eng = s.eng := rfl
@[simp] theorem modFab_flt (s : State) (f : Fab → Fab) : (s.modFab f).flt = s.flt := rfl
@[simp] theorem modFab_log (s : State) (f : Fab → Fab) : (s.modFab f).log = s.log := rfl
@[simp] theorem modFab_evt (s : State) (f : Fab → Fab) : (s.modFab f).evt = s.evt := rfl
@[simp] theorem modFab_cfg (s : State) (f : Fab → Fab) : (s.modFab f).cfg = s.cfg := rfl
@[simp] theorem modFab_mer (s : State) (f : Fab → Fab) : (s.modFab f).mer = s.mer := rfl
@[simp] theorem modFab_tim (s : State) (f : Fab → Fab) : (s.modFab f).tim = s.tim := rfl
@[simp] theorem modFab_lcs (s : State) (f : Fab → Fab) : (s.modFab f).lcs = s.lcs := rfl
@[simp] theorem modFab_field (s : State) (f : Fab → Fab) : (s.modFab f).field = s.field := rfl
@[simp] theorem modFab_fab (s : State) (f : Fab → Fab) : (s.modFab f).fab = f s.fab := rfl
@[simp] theorem modFab_net (s : State) (f : Fab → Fab) : (s.modFab f).net = s.net := rfl
@[simp] theorem modFab_vern (s : State) (f : Fab → Fab) : (s.modFab f).vern = s.vern := rfl
@[simp] theorem modFab_ngl (s : State) (f : Fab → Fab) : (s.modFab f).ngl = s.ngl := rfl
@[simp] theorem modFab_free (s : State) (f : Fab → Fab) : (s.modFab f).free = s.free := rfl
@[simp] theorem modNet_pending (s : State) (f : Net → Net) : (s.modNet f).pending = s.pending := rfl
@[simp] theorem modNet_dev (s : State) (f : Net → Net) : (s.modNet f).dev = s.dev := rfl
@[simp] theorem modNet_regs (s : State) (f : Net → Net) : (s.modNet f).regs = s.regs := rfl
@[simp] theorem modNet_mem (s : State) (f : Net → Net) : (s.modNet f).mem = s.mem := rfl
@[simp] theorem modNet_host (s : State) (f : Net → Net) : (s.modNet f).host = s.host := rfl
@[simp] theorem modNet_eng (s : State) (f : Net → Net) : (s.modNet f).eng = s.eng := rfl
@[simp] theorem modNet_flt (s : State) (f : Net → Net) : (s.modNet f).flt = s.flt := rfl
@[simp] theorem modNet_log (s : State) (f : Net → Net) : (s.modNet f).log = s.log := rfl
@[simp] theorem modNet_evt (s : State) (f : Net → Net) : (s.modNet f).evt = s.evt := rfl
@[simp] theorem modNet_cfg (s : State) (f : Net → Net) : (s.modNet f).cfg = s.cfg := rfl
@[simp] theorem modNet_mer (s : State) (f : Net → Net) : (s.modNet f).mer = s.mer := rfl
@[simp] theorem modNet_tim (s : State) (f : Net → Net) : (s.modNet f).tim = s.tim := rfl
@[simp] theorem modNet_lcs (s : State) (f : Net → Net) : (s.modNet f).lcs = s.lcs := rfl
@[simp] theorem modNet_field (s : State) (f : Net → Net) : (s.modNet f).field = s.field := rfl
@[simp] theorem modNet_fab (s : State) (f : Net → Net) : (s.modNet f).fab = s.fab := rfl
@[simp] theorem modNet_net (s : State) (f : Net → Net) : (s.modNet f).net = f s.net := rfl
@[simp] theorem modNet_vern (s : State) (f : Net → Net) : (s.modNet f).vern = s.vern := rfl
@[simp] theorem modNet_ngl (s : State) (f : Net → Net) : (s.modNet f).ngl = s.ngl := rfl
@[simp] theorem modNet_free (s : State) (f : Net → Net) : (s.modNet f).free = s.free := rfl
@[simp] theorem modVern_pending (s : State) (f : Vern → Vern) : (s.modVern f).pending = s.pending := rfl
@[simp] theorem modVern_dev (s : State) (f : Vern → Vern) : (s.modVern f).dev = s.dev := rfl
@[simp] theorem modVern_regs (s : State) (f : Vern → Vern) : (s.modVern f).regs = s.regs := rfl
@[simp] theorem modVern_mem (s : State) (f : Vern → Vern) : (s.modVern f).mem = s.mem := rfl
@[simp] theorem modVern_host (s : State) (f : Vern → Vern) : (s.modVern f).host = s.host := rfl
@[simp] theorem modVern_eng (s : State) (f : Vern → Vern) : (s.modVern f).eng = s.eng := rfl
@[simp] theorem modVern_flt (s : State) (f : Vern → Vern) : (s.modVern f).flt = s.flt := rfl
@[simp] theorem modVern_log (s : State) (f : Vern → Vern) : (s.modVern f).log = s.log := rfl
@[simp] theorem modVern_evt (s : State) (f : Vern → Vern) : (s.modVern f).evt = s.evt := rfl
@[simp] theorem modVern_cfg (s : State) (f : Vern → Vern) : (s.modVern f).cfg = s.cfg := rfl
@[simp] theorem modVern_mer (s : State) (f : Vern → Vern) : (s.modVern f).mer = s.mer := rfl
@[simp] theorem modVern_tim (s : State) (f : Vern → Vern) : (s.modVern f).tim = s.tim := rfl
@[simp] theorem modVern_lcs (s : State) (f : Vern → Vern) : (s.modVern f).lcs = s.lcs := rfl
@[simp] theorem modVern_field (s : State) (f : Vern → Vern) : (s.modVern f).field = s.field := rfl
@[simp] theorem modVern_fab (s : State) (f : Vern → Vern) : (s.modVern f).fab = s.fab := rfl
@[simp] theorem modVern_net (s : State) (f : Vern → Vern) : (s.modVern f).net = s.net := rfl
@[simp] theorem modVern_vern (s : State) (f : Vern → Vern) : (s.modVern f).vern = f s.vern := rfl
@[simp] theorem modVern_ngl (s : State) (f : Vern → Vern) : (s.modVern f).ngl = s.ngl := rfl
@[simp] theorem modVern_free (s : State) (f : Vern → Vern) : (s.modVern f).free = s.free := rfl
@[simp] theorem modNgl_pending (s : State) (f : Ngl → Ngl) : (s.modNgl f).pending = s.pending := rfl
@[simp] theorem modNgl_dev (s : State) (f : Ngl → Ngl) : (s.modNgl f).dev = s.dev := rfl
@[simp] theorem modNgl_regs (s : State) (f : Ngl → Ngl) : (s.modNgl f).regs = s.regs := rfl
@[simp] theorem modNgl_mem (s : State) (f : Ngl → Ngl) : (s.modNgl f).mem = s.mem := rfl
@[simp] theorem modNgl_host (s : State) (f : Ngl → Ngl) : (s.modNgl f).host = s.host := rfl
@[simp] theorem modNgl_eng (s : State) (f : Ngl → Ngl) : (s.modNgl f).eng = s.eng := rfl
@[simp] theorem modNgl_flt (s : State) (f : Ngl → Ngl) : (s.modNgl f).flt = s.flt := rfl
@[simp] theorem modNgl_log (s : State) (f : Ngl → Ngl) : (s.modNgl f).log = s.log := rfl
@[simp] theorem modNgl_evt (s : State) (f : Ngl → Ngl) : (s.modNgl f).evt = s.evt := rfl
@[simp] theorem modNgl_cfg (s : State) (f : Ngl → Ngl) : (s.modNgl f).cfg = s.cfg := rfl
@[simp] theorem modNgl_mer (s : State) (f : Ngl → Ngl) : (s.modNgl f).mer = s.mer := rfl
@[simp] theorem modNgl_tim (s : State) (f : Ngl → Ngl) : (s.modNgl f).tim = s.tim := rfl
@[simp] theorem modNgl_lcs (s : State) (f : Ngl → Ngl) : (s.modNgl f).lcs = s.lcs := rfl
@[simp] theorem modNgl_field (s : State) (f : Ngl → Ngl) : (s.modNgl f).field = s.field := rfl
@[simp] theorem modNgl_fab (s : State) (f : Ngl → Ngl) : (s.modNgl f).fab = s.fab := rfl
@[simp] theorem modNgl_net (s : State) (f : Ngl → Ngl) : (s.modNgl f).net = s.net := rfl
@[simp] theorem modNgl_vern (s : State) (f : Ngl → Ngl) : (s.modNgl f).vern = s.vern := rfl
@[simp] theorem modNgl_ngl (s : State) (f : Ngl → Ngl) : (s.modNgl f).ngl = f s.ngl := rfl
@[simp] theorem modNgl_free (s : State) (f : Ngl → Ngl) : (s.modNgl f).free = s.free := rfl
@[simp] theorem modFree_pending (s : State) (f : Nat → Nat) : (s.modFree f).pending = s.pending := rfl
@[simp] theorem modFree_dev (s : State) (f : Nat → Nat) : (s.modFree f).dev = s.dev := rfl
@[simp] theorem modFree_regs (s : State) (f : Nat → Nat) : (s.modFree f).regs = s.regs := rfl
@[simp] theorem modFree_mem (s : State) (f : Nat → Nat) : (s.modFree f).mem = s.mem := rfl
@[simp] theorem modFree_host (s : State) (f : Nat → Nat) : (s.modFree f).host = s.host := rfl
@[simp] theorem modFree_eng (s : State) (f : Nat → Nat) : (s.modFree f).eng = s.eng := rfl
@[simp] theorem modFree_flt (s : State) (f : Nat → Nat) : (s.modFree f).flt = s.flt := rfl
@[simp] theorem modFree_log (s : State) (f : Nat → Nat) : (s.modFree f).log = s.log := rfl
@[simp] theorem modFree_evt (s : State) (f : Nat → Nat) : (s.modFree f).evt = s.evt := rfl
@[simp] theorem modFree_cfg (s : State) (f : Nat → Nat) : (s.modFree f).cfg = s.cfg := rfl
@[simp] theorem modFree_mer (s : State) (f : Nat → Nat) : (s.modFree f).mer = s.mer := rfl
@[simp] theorem modFree_tim (s : State) (f : Nat → Nat) : (s.modFree f).tim = s.tim := rfl
@[simp] theorem modFree_lcs (s : State) (f : Nat → Nat) : (s.modFree f).lcs = s.lcs := rfl
@[simp] theorem modFree_field (s : State) (f : Nat → Nat) : (s.modFree f).field = s.field := rfl
@[simp] theorem modFree_fab (s : State) (f : Nat → Nat) : (s.modFree f).fab = s.fab := rfl
@[simp] theorem modFree_net (s : State) (f : Nat → Nat) : (s.modFree f).net = s.net := rfl
@[simp] theorem modFree_vern (s : State) (f : Nat → Nat) : (s.modFree f).vern = s.vern := rfl
@[simp] theorem modFree_ngl (s : State) (f : Nat → Nat) : (s.modFree f).ngl = s.ngl := rfl
@[simp] theorem modFree_free (s : State) (f : Nat → Nat) : (s.modFree f).free = f s.free := rfl

end Sys2Proof.Laws
end

