-- ==== Sys2Proof/Laws/Table.lean ====
section
/-! SUPPORT. Tables and memories: a read after a write, what a write leaves alone, and that every operation keeps the
canonical form. -/

namespace Sys2Proof.Laws

open Sys2Proof Sys2Proof.Machine

variable {α : Type}

/-! Tables -/

theorem tab_get_ins (d : Nat → α) (k : Nat) (v : α) (t : Tab α) (j : Nat) :
    Tab.get d (Tab.ins k v t) j = if j = k then v else Tab.get d t j := by
  induction t with
  | nil => simp only [Tab.ins, Tab.get, eq_comm]
  | cons e t ih =>
    obtain ⟨i, w⟩ := e
    simp only [Tab.ins]
    split
    · simp only [Tab.get, eq_comm]
    · split
      · subst_vars; by_cases h : j = i <;> simp [Tab.get, h, eq_comm]
      · by_cases h : j = i
        · subst h; simp_all [Tab.get, eq_comm]
        · have : ¬ i = j := fun e => h e.symm
          simp [Tab.get, this, ih]

theorem tab_get_del (d : Nat → α) (k : Nat) (t : Tab α) (j : Nat) :
    Tab.get d (Tab.del k t) j = if j = k then d k else Tab.get d t j := by
  induction t with
  | nil => by_cases h : j = k <;> simp [Tab.del, Tab.get, h]
  | cons e t ih =>
    obtain ⟨i, w⟩ := e
    simp only [Tab.del]
    split
    · rw [ih]; by_cases h : j = k
      · simp [h]
      · have : ¬ i = j := by omega
        simp [Tab.get, h, this]
    · by_cases h : i = j
      · have : ¬ j = k := by omega
        simp [Tab.get, h, this]
      · simp [Tab.get, h, ih]

/-- What a table reads after an entry is set. -/
theorem tab_get_set [DecidableEq α] (d : Nat → α) (t : Tab α) (k : Nat) (v : α) (j : Nat) :
    Tab.get d (Tab.set d t k v) j = if j = k then v else Tab.get d t j := by
  unfold Tab.set
  split
  · next h => rw [tab_get_del]; simp [h]
  · rw [tab_get_ins]

@[simp] theorem tab_get_set_same [DecidableEq α] (d : Nat → α) (t : Tab α) (k : Nat) (v : α) :
    Tab.get d (Tab.set d t k v) k = v := by simp [tab_get_set]

theorem tab_get_set_ne [DecidableEq α] (d : Nat → α) (t : Tab α) {k j : Nat} (v : α) (h : j ≠ k) :
    Tab.get d (Tab.set d t k v) j = Tab.get d t j := by simp [tab_get_set, h]

theorem tab_get_modify [DecidableEq α] (d : Nat → α) (t : Tab α) (k : Nat) (f : α → α) (j : Nat) :
    Tab.get d (Tab.modify d t k f) j = if j = k then f (Tab.get d t k) else Tab.get d t j := by
  simp [Tab.modify, tab_get_set]

@[simp] theorem tab_get_nil (d : Nat → α) (k : Nat) : Tab.get d [] k = d k := rfl

/-! The canonical form -/

theorem rising_weaken {t : Tab α} {a b : Nat} (h : a ≤ b) (hr : Tab.rising (some b) t = true) : Tab.rising (some a) t = true := by
  cases t with
  | nil => rfl
  | cons e t =>
    obtain ⟨i, w⟩ := e
    simp [Tab.rising] at hr ⊢
    exact ⟨by omega, hr.2⟩

theorem rising_none {t : Tab α} {b : Nat} (hr : Tab.rising (some b) t = true) : Tab.rising none t = true := by
  cases t with
  | nil => rfl
  | cons e t => obtain ⟨i, w⟩ := e; simp [Tab.rising] at *; exact hr.2

theorem rising_ins_some {t : Tab α} {b k : Nat} {v : α} (hb : b < k) (hr : Tab.rising (some b) t = true) :
    Tab.rising (some b) (Tab.ins k v t) = true := by
  induction t generalizing b with
  | nil => simp [Tab.ins, Tab.rising, hb]
  | cons e t ih =>
    obtain ⟨i, w⟩ := e
    simp [Tab.rising] at hr
    simp only [Tab.ins]
    split
    · simp [Tab.rising, hb, hr.2]; omega
    · split
      · subst_vars; simp [Tab.rising, hb, hr.2]
      · simp [Tab.rising, hr.1]; exact ih (by omega) hr.2

theorem rising_ins {t : Tab α} {k : Nat} {v : α} (hr : Tab.rising none t = true) :
    Tab.rising none (Tab.ins k v t) = true := by
  cases t with
  | nil => rfl
  | cons e t =>
    obtain ⟨i, w⟩ := e
    simp [Tab.rising] at hr
    simp only [Tab.ins]
    split
    · simp [Tab.rising, hr]; omega
    · split
      · subst_vars; simp [Tab.rising, hr]
      · simp [Tab.rising]; exact rising_ins_some (by omega) hr

theorem rising_del_some {t : Tab α} {b k : Nat} (hr : Tab.rising (some b) t = true) :
    Tab.rising (some b) (Tab.del k t) = true := by
  induction t generalizing b with
  | nil => rfl
  | cons e t ih =>
    obtain ⟨i, w⟩ := e
    simp [Tab.rising] at hr
    simp only [Tab.del]
    split
    · exact rising_weaken (Nat.le_of_lt hr.1) (ih hr.2)
    · simp [Tab.rising, hr.1, ih hr.2]

theorem rising_del {t : Tab α} {k : Nat} (hr : Tab.rising none t = true) : Tab.rising none (Tab.del k t) = true := by
  cases t with
  | nil => rfl
  | cons e t =>
    obtain ⟨i, w⟩ := e
    simp [Tab.rising] at hr
    simp only [Tab.del]
    split
    · exact rising_none (rising_del_some hr)
    · simp [Tab.rising, rising_del_some hr]

theorem rising_filter_some {t : Tab α} {b : Nat} {p : Nat × α → Bool} (hr : Tab.rising (some b) t = true) :
    Tab.rising (some b) (t.filter p) = true := by
  induction t generalizing b with
  | nil => rfl
  | cons e t ih =>
    obtain ⟨i, w⟩ := e
    simp [Tab.rising] at hr
    simp only [List.filter]
    split
    · simp [Tab.rising, hr.1, ih hr.2]
    · exact rising_weaken (Nat.le_of_lt hr.1) (ih hr.2)

theorem rising_filter {t : Tab α} {p : Nat × α → Bool} (hr : Tab.rising none t = true) :
    Tab.rising none (t.filter p) = true := by
  cases t with
  | nil => rfl
  | cons e t =>
    obtain ⟨i, w⟩ := e
    simp [Tab.rising] at hr
    simp only [List.filter]
    split
    · simp [Tab.rising, rising_filter_some hr]
    · exact rising_none (rising_filter_some hr)

theorem mem_ins {k : Nat} {v : α} {t : Tab α} {e : Nat × α} (h : e ∈ Tab.ins k v t) : e = (k, v) ∨ e ∈ t := by
  induction t with
  | nil => simp_all [Tab.ins]
  | cons x t ih =>
    obtain ⟨i, w⟩ := x
    simp only [Tab.ins] at h
    split at h
    · simpa using h
    · split at h
      · simp at h; rcases h with h | h <;> simp [h]
      · simp at h; rcases h with h | h
        · simp [h]
        · rcases ih h with h | h <;> simp [h]

theorem mem_del {k : Nat} {t : Tab α} {e : Nat × α} (h : e ∈ Tab.del k t) : e ∈ t := by
  induction t with
  | nil => simp_all [Tab.del]
  | cons x t ih =>
    obtain ⟨i, w⟩ := x
    simp only [Tab.del] at h
    split at h
    · simp [ih h]
    · simp at h; rcases h with h | h
      · simp [h]
      · simp [ih h]

/-- Setting an entry keeps the canonical form. -/
theorem wf_set [DecidableEq α] {d : Nat → α} {t : Tab α} {k : Nat} {v : α} (h : Tab.wf d t = true) :
    Tab.wf d (Tab.set d t k v) = true := by
  simp only [Tab.wf, Bool.and_eq_true, List.all_eq_true] at *
  unfold Tab.set
  split
  · exact ⟨rising_del h.1, fun e he => h.2 e (mem_del he)⟩
  · refine ⟨rising_ins h.1, fun e he => ?_⟩
    rcases mem_ins he with rfl | he
    · simpa using ‹¬ _›
    · exact h.2 e he

theorem wf_modify [DecidableEq α] {d : Nat → α} {t : Tab α} {k : Nat} {f : α → α} (h : Tab.wf d t = true) :
    Tab.wf d (Tab.modify d t k f) = true := wf_set h

theorem wf_filter [DecidableEq α] {d : Nat → α} {t : Tab α} {p : Nat × α → Bool} (h : Tab.wf d t = true) :
    Tab.wf d (t.filter p) = true := by
  simp only [Tab.wf, Bool.and_eq_true, List.all_eq_true] at *
  exact ⟨rising_filter h.1, fun e he => h.2 e (List.mem_filter.mp he).1⟩

@[simp] theorem wf_nil [DecidableEq α] (d : Nat → α) : Tab.wf d [] = true := rfl

/-! Memories -/

theorem mem_wf_write {m : Mem} {a : Nat} {bs : List Byte} (h : Memory.wf m = true) : Memory.wf (Mem.write m a bs) = true := by
  induction bs generalizing m a with
  | nil => exact h
  | cons b bs ih => exact ih (wf_set h)

theorem mem_wf_setW32 {m : Mem} {a : Nat} {v : Word} (h : Memory.wf m = true) : Memory.wf (Mem.setW32 m a v) = true :=
  mem_wf_write h

theorem mem_wf_setW64 {m : Mem} {a : Nat} {v : Csw} (h : Memory.wf m = true) : Memory.wf (Mem.setW64 m a v) = true :=
  mem_wf_write h

theorem rising_ofBytes (bs : List Byte) {a b : Nat} (h : b < a) : Tab.rising (some b) (Mem.ofBytes a bs) = true := by
  induction bs generalizing a b with
  | nil => rfl
  | cons x bs ih =>
    unfold Mem.ofBytes
    split
    · exact ih (by omega)
    · simp [Tab.rising, h, ih (Nat.lt_succ_self a)]

theorem mem_ofBytes {bs : List Byte} {a : Nat} {e : Nat × Byte} (h : e ∈ Mem.ofBytes a bs) : e.2 ≠ 0 := by
  induction bs generalizing a with
  | nil => cases h
  | cons x bs ih =>
    unfold Mem.ofBytes at h
    split at h
    · exact ih h
    · rcases List.mem_cons.mp h with rfl | h
      · assumption
      · exact ih h

/-- The memory of a byte string is in canonical form. -/
theorem mem_wf_ofBytes (a : Nat) (bs : List Byte) : Memory.wf (Mem.ofBytes a bs) = true := by
  simp only [Memory.wf, Tab.wf, Bool.and_eq_true, List.all_eq_true]
  refine ⟨?_, fun e he => ?_⟩
  · cases bs with
    | nil => rfl
    | cons x bs =>
      unfold Mem.ofBytes
      split
      · exact rising_none (rising_ofBytes bs (Nat.lt_succ_self a))
      · simp [Tab.rising, rising_ofBytes bs (Nat.lt_succ_self a)]
  · have : e.2 ≠ memDefault e.1 := mem_ofBytes he
    simp [this]

/-- A write changes the bytes it stores to and no other. -/
theorem mem_byte_write (m : Mem) (a : Nat) (bs : List Byte) (x : Nat) :
    Mem.byte (Mem.write m a bs) x = if h : a ≤ x ∧ x < a + bs.length then bs[x - a]'(by omega) else Mem.byte m x := by
  induction bs generalizing m a with
  | nil =>
    have : ¬ (a ≤ x ∧ x < a + ([] : List Byte).length) := by simp
    simp only [Mem.write, dif_neg this]
  | cons b bs ih =>
    simp only [Mem.write, ih, List.length_cons]
    by_cases h1 : a + 1 ≤ x ∧ x < a + 1 + bs.length
    · have h2 : a ≤ x ∧ x < a + (bs.length + 1) := by omega
      simp only [dif_pos h1, dif_pos h2]
      have : x - a = (x - (a + 1)) + 1 := by omega
      simp [this]
    · simp only [dif_neg h1]
      by_cases hx : x = a
      · subst hx
        have h2 : x ≤ x ∧ x < x + (bs.length + 1) := by omega
        simp [Mem.byte]
      · have h2 : ¬ (a ≤ x ∧ x < a + (bs.length + 1)) := by omega
        simp only [dif_neg h2, Mem.byte]
        exact tab_get_set_ne _ _ _ hx

theorem mem_byte_write_ne {m : Mem} {a : Nat} {bs : List Byte} {x : Nat} (h : x < a ∨ a + bs.length ≤ x) :
    Mem.byte (Mem.write m a bs) x = Mem.byte m x := by
  rw [mem_byte_write, dif_neg (by omega)]

theorem mem_bytes_length (m : Mem) (a n : Nat) : (Mem.bytes m a n).length = n := by
  induction n generalizing a with
  | zero => rfl
  | succ n ih => simp [Mem.bytes, ih]

theorem mem_bytes_congr {m m' : Mem} {a n : Nat} (h : ∀ x, a ≤ x → x < a + n → Mem.byte m x = Mem.byte m' x) :
    Mem.bytes m a n = Mem.bytes m' a n := by
  induction n generalizing a with
  | zero => rfl
  | succ n ih =>
    simp only [Mem.bytes]
    rw [h a (Nat.le_refl a) (by omega), ih fun x h1 h2 => h x (by omega) (by omega)]

/-- The bytes written are the bytes read. -/
theorem mem_bytes_write (m : Mem) (a : Nat) (bs : List Byte) : Mem.bytes (Mem.write m a bs) a bs.length = bs := by
  induction bs generalizing m a with
  | nil => rfl
  | cons b bs ih =>
    simp only [List.length_cons, Mem.bytes]
    have : Mem.byte (Mem.write m a (b :: bs)) a = b := by rw [mem_byte_write]; simp
    rw [this]
    exact congrArg _ (ih _ _)

theorem mem_bytes_write_ne {m : Mem} {a b n : Nat} {bs : List Byte} (h : b + n ≤ a ∨ a + bs.length ≤ b) :
    Mem.bytes (Mem.write m a bs) b n = Mem.bytes m b n :=
  mem_bytes_congr fun x h1 h2 => mem_byte_write_ne (by omega)

theorem natLe_length (n v : Nat) : (natLe n v).length = n := by
  induction n generalizing v with
  | zero => rfl
  | succ n ih => simp [natLe, ih]

theorem leNat_natLe (n v : Nat) : leNat (natLe n v) = v % 256 ^ n := by
  induction n generalizing v with
  | zero => simp [natLe, leNat, Nat.mod_one]
  | succ n ih =>
    have e : 256 ^ (n + 1) = 256 * 256 ^ n := by rw [Nat.pow_succ, Nat.mul_comm]
    have b : (BitVec.ofNat 8 v).toNat = v % 256 := by simp
    rw [natLe, leNat, ih, b, e, Nat.mod_mul]

/-- A 32-bit word written is the word read. -/
@[simp] theorem mem_w32_setW32 (m : Mem) (a : Nat) (v : Word) : Mem.w32 (Mem.setW32 m a v) a = v := by
  have h : Mem.bytes (Mem.write m a (natLe 4 v.toNat)) a 4 = natLe 4 v.toNat := by
    have := mem_bytes_write m a (natLe 4 v.toNat)
    rwa [natLe_length] at this
  simp only [Mem.w32, Mem.setW32, h, leNat_natLe]
  apply BitVec.eq_of_toNat_eq
  simp only [BitVec.toNat_ofNat]
  have := v.isLt
  omega

/-- A 64-bit unit written is the unit read whole (R8). -/
@[simp] theorem mem_w64_setW64 (m : Mem) (a : Nat) (v : Csw) : Mem.w64 (Mem.setW64 m a v) a = v := by
  have h : Mem.bytes (Mem.write m a (natLe 8 v.toNat)) a 8 = natLe 8 v.toNat := by
    have := mem_bytes_write m a (natLe 8 v.toNat)
    rwa [natLe_length] at this
  simp only [Mem.w64, Mem.setW64, h, leNat_natLe]
  apply BitVec.eq_of_toNat_eq
  simp only [BitVec.toNat_ofNat]
  have := v.isLt
  omega

theorem mem_w64_setW64_ne {m : Mem} {a b : Nat} (v : Csw) (h : b + 8 ≤ a ∨ a + 8 ≤ b) :
    Mem.w64 (Mem.setW64 m a v) b = Mem.w64 m b := by
  simp only [Mem.w64, Mem.setW64]
  rw [mem_bytes_write_ne (by rw [natLe_length]; omega)]

theorem mem_w32_setW64_ne {m : Mem} {a b : Nat} (v : Csw) (h : b + 4 ≤ a ∨ a + 8 ≤ b) :
    Mem.w32 (Mem.setW64 m a v) b = Mem.w32 m b := by
  simp only [Mem.w32, Mem.setW64]
  rw [mem_bytes_write_ne (by rw [natLe_length]; omega)]

end Sys2Proof.Laws
end

