-- ==== Sys2Proof/Laws/Keeps.lean ====
section
/-! SUPPORT. Which groups of the state the plain updates change. -/

namespace Sys2Proof.Laws

open Sys2Proof Sys2Proof.Machine

variable {G : Group → Bool} {s t : State}

theorem Keeps.rfl' : Keeps G s s := by constructor <;> intros <;> first | rfl | assumption | exact .inl rfl

theorem Keeps.trans {u : State} (h : Keeps G s t) (k : Keeps G t u) : Keeps G s u := by
  constructor
  · rw [k.pending, h.pending]
  · exact fun w => k.wf (h.wf w)
  · intro c
    rcases k.part c with k | k
    · rw [k]; exact h.part c
    · exact .inr k
  · exact fun w => (k.dev w).trans (h.dev w)
  · exact fun w => (k.regs w).trans (h.regs w)
  · exact fun w => (k.mem w).trans (h.mem w)
  · exact fun w => (k.host w).trans (h.host w)
  · exact fun w => (k.eng w).trans (h.eng w)
  · exact fun w => (k.flt w).trans (h.flt w)
  · exact fun w => (k.log w).trans (h.log w)
  · exact fun w => (k.evt w).trans (h.evt w)
  · exact fun w => (k.cfg w).trans (h.cfg w)
  · exact fun w => (k.mer w).trans (h.mer w)
  · exact fun w => (k.tim w).trans (h.tim w)
  · exact fun w => (k.lcs w).trans (h.lcs w)
  · exact fun w => (k.field w).trans (h.field w)
  · exact fun w => (k.fab w).trans (h.fab w)
  · exact fun w => (k.net w).trans (h.net w)
  · exact fun w => (k.vern w).trans (h.vern w)
  · exact fun w => (k.ngl w).trans (h.ngl w)
  · exact fun w => (k.free w).trans (h.free w)

/-- A pair's first component. -/
theorem Keeps.of_fst {β : Type} {p : State × β} {a : State} {b : β} (e : p = (a, b)) (h : Keeps G s p.1) : Keeps G s a := by
  subst e; exact h

theorem Keeps.ite {c : Prop} [Decidable c] {a b : State} (ha : Keeps G s a) (hb : Keeps G s b) :
    Keeps G s (if c then a else b) := by split <;> assumption

theorem Keeps.foldl {α : Type} {f : State → α → State} (h : Keeps G s t) (hf : ∀ x a, Keeps G s x → Keeps G s (f x a)) (xs : List α) :
    Keeps G s (xs.foldl f t) := by
  induction xs generalizing t with
  | nil => exact h
  | cons a xs ih => exact ih (hf t a h)

theorem Keeps.foldlFst {α β : Type} {f : State × β → α → State × β} {p : State × β} (h : Keeps G s p.1)
    (hf : ∀ q a, Keeps G s q.1 → Keeps G s (f q a).1) (xs : List α) : Keeps G s (xs.foldl f p).1 := by
  induction xs generalizing p with
  | nil => exact h
  | cons a xs ih => exact ih (hf p a h)

theorem Keeps.some' {a u : State} (h : Keeps G s a) : some a = some u → Keeps G s u := by rintro ⟨⟩; exact h

theorem Keeps.none' {u : State} : none = some u → Keeps G s u := by rintro ⟨⟩

theorem Keeps.id' (h : Keeps G s t) : Keeps G s (id t) := h

theorem Keeps.each {α : Type} {f : State → α → State} (h : Keeps G s t) {xs : List α}
    (hf : ∀ x a, Keeps G s x → Keeps G s (f x a)) : Keeps G s (t.each xs f) := Keeps.foldl h hf xs

theorem Keeps.when {f : State → State} {b : Bool} (h : Keeps G s t) (hf : ∀ x, Keeps G s x → Keeps G s (f x)) :
    Keeps G s (t.when b f) := by
  unfold State.when; split
  · exact hf t h
  · exact h

theorem Keeps.modDev {f : Dev → Dev} (h : Keeps G s t) (w : G .dev = true) : Keeps G s (t.modDev f) := by
  constructor
  case dev => exact fun k => absurd k (by simp [w])
  case pending => exact h.pending
  case wf => exact h.wf
  case part => exact h.part
  case regs => exact h.regs
  case mem => exact h.mem
  case host => exact h.host
  case eng => exact h.eng
  case flt => exact h.flt
  case log => exact h.log
  case evt => exact h.evt
  case cfg => exact h.cfg
  case mer => exact h.mer
  case tim => exact h.tim
  case lcs => exact h.lcs
  case field => exact h.field
  case fab => exact h.fab
  case net => exact h.net
  case vern => exact h.vern
  case ngl => exact h.ngl
  case free => exact h.free

theorem Keeps.modRegs {f : Tab Word → Tab Word} (h : Keeps G s t) (w : G .regs = true) : Keeps G s (t.modRegs f) := by
  constructor
  case regs => exact fun k => absurd k (by simp [w])
  case pending => exact h.pending
  case wf => exact h.wf
  case part => exact h.part
  case dev => exact h.dev
  case mem => exact h.mem
  case host => exact h.host
  case eng => exact h.eng
  case flt => exact h.flt
  case log => exact h.log
  case evt => exact h.evt
  case cfg => exact h.cfg
  case mer => exact h.mer
  case tim => exact h.tim
  case lcs => exact h.lcs
  case field => exact h.field
  case fab => exact h.fab
  case net => exact h.net
  case vern => exact h.vern
  case ngl => exact h.ngl
  case free => exact h.free

theorem Keeps.modMem {f : Mems → Mems} (h : Keeps G s t) (hf : t.mem.wf = true → (f t.mem).wf = true) (w : G .mem = true) :
    Keeps G s (t.modMem f) := by
  constructor
  case pending => exact h.pending
  case wf => exact fun k => hf (h.wf k)
  case part => exact h.part
  case mem => exact fun k => absurd k (by simp [w])
  case dev => exact h.dev
  case regs => exact h.regs
  case host => exact h.host
  case eng => exact h.eng
  case flt => exact h.flt
  case log => exact h.log
  case evt => exact h.evt
  case cfg => exact h.cfg
  case mer => exact h.mer
  case tim => exact h.tim
  case lcs => exact h.lcs
  case field => exact h.field
  case fab => exact h.fab
  case net => exact h.net
  case vern => exact h.vern
  case ngl => exact h.ngl
  case free => exact h.free

theorem Keeps.modHost {f : HostIf → HostIf} (h : Keeps G s t) (w : G .host = true) : Keeps G s (t.modHost f) := by
  constructor
  case host => exact fun k => absurd k (by simp [w])
  case pending => exact h.pending
  case wf => exact h.wf
  case part => exact h.part
  case dev => exact h.dev
  case regs => exact h.regs
  case mem => exact h.mem
  case eng => exact h.eng
  case flt => exact h.flt
  case log => exact h.log
  case evt => exact h.evt
  case cfg => exact h.cfg
  case mer => exact h.mer
  case tim => exact h.tim
  case lcs => exact h.lcs
  case field => exact h.field
  case fab => exact h.fab
  case net => exact h.net
  case vern => exact h.vern
  case ngl => exact h.ngl
  case free => exact h.free

theorem Keeps.modEng {f : Eng → Eng} (h : Keeps G s t) (hf : ∀ e, (f e).cores = e.cores) (w : G .eng = true) :
    Keeps G s (t.modEng f) := by
  constructor
  case eng => exact fun k => absurd k (by simp [w])
  case pending => exact h.pending
  case wf => exact h.wf
  case part =>
    intro c
    have e : (t.modEng f).core c = t.core c := by simp only [State.core]; exact congrArg (fun x => Tab.get _ x c) (hf t.eng)
    rw [e]; exact h.part c
  case dev => exact h.dev
  case regs => exact h.regs
  case mem => exact h.mem
  case host => exact h.host
  case flt => exact h.flt
  case log => exact h.log
  case evt => exact h.evt
  case cfg => exact h.cfg
  case mer => exact h.mer
  case tim => exact h.tim
  case lcs => exact h.lcs
  case field => exact h.field
  case fab => exact h.fab
  case net => exact h.net
  case vern => exact h.vern
  case ngl => exact h.ngl
  case free => exact h.free

theorem Keeps.modCore {f : CoreSt → CoreSt} {u : Nat} (h : Keeps G s t) (hf : ∀ c, (f c).part = c.part ∨ (f c).part < 16)
    (w : G .eng = true) : Keeps G s (t.modCore u f) := by
  constructor
  case eng => exact fun k => absurd k (by simp [w])
  case pending => exact h.pending
  case wf => exact h.wf
  case part =>
    intro c
    have e : (t.modCore u f).core c = if c = u then f (t.core u) else t.core c := by
      simp only [State.core, State.modCore]; exact tab_get_modify ..
    rw [e]
    split
    · rename_i e; subst e
      rcases hf (t.core c) with k | k
      · rw [k]; exact h.part c
      · exact .inr k
    · exact h.part c
  case dev => exact h.dev
  case regs => exact h.regs
  case mem => exact h.mem
  case host => exact h.host
  case flt => exact h.flt
  case log => exact h.log
  case evt => exact h.evt
  case cfg => exact h.cfg
  case mer => exact h.mer
  case tim => exact h.tim
  case lcs => exact h.lcs
  case field => exact h.field
  case fab => exact h.fab
  case net => exact h.net
  case vern => exact h.vern
  case ngl => exact h.ngl
  case free => exact h.free

theorem Keeps.modFlt {f : Flt → Flt} (h : Keeps G s t) (w : G .flt = true) : Keeps G s (t.modFlt f) := by
  constructor
  case flt => exact fun k => absurd k (by simp [w])
  case pending => exact h.pending
  case wf => exact h.wf
  case part => exact h.part
  case dev => exact h.dev
  case regs => exact h.regs
  case mem => exact h.mem
  case host => exact h.host
  case eng => exact h.eng
  case log => exact h.log
  case evt => exact h.evt
  case cfg => exact h.cfg
  case mer => exact h.mer
  case tim => exact h.tim
  case lcs => exact h.lcs
  case field => exact h.field
  case fab => exact h.fab
  case net => exact h.net
  case vern => exact h.vern
  case ngl => exact h.ngl
  case free => exact h.free

theorem Keeps.modLog {f : Log → Log} (h : Keeps G s t) (w : G .log = true) : Keeps G s (t.modLog f) := by
  constructor
  case log => exact fun k => absurd k (by simp [w])
  case pending => exact h.pending
  case wf => exact h.wf
  case part => exact h.part
  case dev => exact h.dev
  case regs => exact h.regs
  case mem => exact h.mem
  case host => exact h.host
  case eng => exact h.eng
  case flt => exact h.flt
  case evt => exact h.evt
  case cfg => exact h.cfg
  case mer => exact h.mer
  case tim => exact h.tim
  case lcs => exact h.lcs
  case field => exact h.field
  case fab => exact h.fab
  case net => exact h.net
  case vern => exact h.vern
  case ngl => exact h.ngl
  case free => exact h.free

theorem Keeps.modEvt {f : Evt → Evt} (h : Keeps G s t) (w : G .evt = true) : Keeps G s (t.modEvt f) := by
  constructor
  case evt => exact fun k => absurd k (by simp [w])
  case pending => exact h.pending
  case wf => exact h.wf
  case part => exact h.part
  case dev => exact h.dev
  case regs => exact h.regs
  case mem => exact h.mem
  case host => exact h.host
  case eng => exact h.eng
  case flt => exact h.flt
  case log => exact h.log
  case cfg => exact h.cfg
  case mer => exact h.mer
  case tim => exact h.tim
  case lcs => exact h.lcs
  case field => exact h.field
  case fab => exact h.fab
  case net => exact h.net
  case vern => exact h.vern
  case ngl => exact h.ngl
  case free => exact h.free

theorem Keeps.modCfg {f : Cfg → Cfg} (h : Keeps G s t) (w : G .cfg = true) : Keeps G s (t.modCfg f) := by
  constructor
  case cfg => exact fun k => absurd k (by simp [w])
  case pending => exact h.pending
  case wf => exact h.wf
  case part => exact h.part
  case dev => exact h.dev
  case regs => exact h.regs
  case mem => exact h.mem
  case host => exact h.host
  case eng => exact h.eng
  case flt => exact h.flt
  case log => exact h.log
  case evt => exact h.evt
  case mer => exact h.mer
  case tim => exact h.tim
  case lcs => exact h.lcs
  case field => exact h.field
  case fab => exact h.fab
  case net => exact h.net
  case vern => exact h.vern
  case ngl => exact h.ngl
  case free => exact h.free

theorem Keeps.modMer {f : Mer → Mer} (h : Keeps G s t) (w : G .mer = true) : Keeps G s (t.modMer f) := by
  constructor
  case mer => exact fun k => absurd k (by simp [w])
  case pending => exact h.pending
  case wf => exact h.wf
  case part => exact h.part
  case dev => exact h.dev
  case regs => exact h.regs
  case mem => exact h.mem
  case host => exact h.host
  case eng => exact h.eng
  case flt => exact h.flt
  case log => exact h.log
  case evt => exact h.evt
  case cfg => exact h.cfg
  case tim => exact h.tim
  case lcs => exact h.lcs
  case field => exact h.field
  case fab => exact h.fab
  case net => exact h.net
  case vern => exact h.vern
  case ngl => exact h.ngl
  case free => exact h.free

theorem Keeps.modTim {f : Tab TimSt → Tab TimSt} (h : Keeps G s t) (w : G .tim = true) : Keeps G s (t.modTim f) := by
  constructor
  case tim => exact fun k => absurd k (by simp [w])
  case pending => exact h.pending
  case wf => exact h.wf
  case part => exact h.part
  case dev => exact h.dev
  case regs => exact h.regs
  case mem => exact h.mem
  case host => exact h.host
  case eng => exact h.eng
  case flt => exact h.flt
  case log => exact h.log
  case evt => exact h.evt
  case cfg => exact h.cfg
  case mer => exact h.mer
  case lcs => exact h.lcs
  case field => exact h.field
  case fab => exact h.fab
  case net => exact h.net
  case vern => exact h.vern
  case ngl => exact h.ngl
  case free => exact h.free

theorem Keeps.modLcs {f : Lcs → Lcs} (h : Keeps G s t) (w : G .lcs = true) : Keeps G s (t.modLcs f) := by
  constructor
  case lcs => exact fun k => absurd k (by simp [w])
  case pending => exact h.pending
  case wf => exact h.wf
  case part => exact h.part
  case dev => exact h.dev
  case regs => exact h.regs
  case mem => exact h.mem
  case host => exact h.host
  case eng => exact h.eng
  case flt => exact h.flt
  case log => exact h.log
  case evt => exact h.evt
  case cfg => exact h.cfg
  case mer => exact h.mer
  case tim => exact h.tim
  case field => exact h.field
  case fab => exact h.fab
  case net => exact h.net
  case vern => exact h.vern
  case ngl => exact h.ngl
  case free => exact h.free

theorem Keeps.modField {f : Fld → Fld} (h : Keeps G s t) (w : G .field = true) : Keeps G s (t.modField f) := by
  constructor
  case field => exact fun k => absurd k (by simp [w])
  case pending => exact h.pending
  case wf => exact h.wf
  case part => exact h.part
  case dev => exact h.dev
  case regs => exact h.regs
  case mem => exact h.mem
  case host => exact h.host
  case eng => exact h.eng
  case flt => exact h.flt
  case log => exact h.log
  case evt => exact h.evt
  case cfg => exact h.cfg
  case mer => exact h.mer
  case tim => exact h.tim
  case lcs => exact h.lcs
  case fab => exact h.fab
  case net => exact h.net
  case vern => exact h.vern
  case ngl => exact h.ngl
  case free => exact h.free

theorem Keeps.modFab {f : Fab → Fab} (h : Keeps G s t) (w : G .fab = true) : Keeps G s (t.modFab f) := by
  constructor
  case fab => exact fun k => absurd k (by simp [w])
  case pending => exact h.pending
  case wf => exact h.wf
  case part => exact h.part
  case dev => exact h.dev
  case regs => exact h.regs
  case mem => exact h.mem
  case host => exact h.host
  case eng => exact h.eng
  case flt => exact h.flt
  case log => exact h.log
  case evt => exact h.evt
  case cfg => exact h.cfg
  case mer => exact h.mer
  case tim => exact h.tim
  case lcs => exact h.lcs
  case field => exact h.field
  case net => exact h.net
  case vern => exact h.vern
  case ngl => exact h.ngl
  case free => exact h.free

theorem Keeps.modNet {f : Net → Net} (h : Keeps G s t) (w : G .net = true) : Keeps G s (t.modNet f) := by
  constructor
  case net => exact fun k => absurd k (by simp [w])
  case pending => exact h.pending
  case wf => exact h.wf
  case part => exact h.part
  case dev => exact h.dev
  case regs => exact h.regs
  case mem => exact h.mem
  case host => exact h.host
  case eng => exact h.eng
  case flt => exact h.flt
  case log => exact h.log
  case evt => exact h.evt
  case cfg => exact h.cfg
  case mer => exact h.mer
  case tim => exact h.tim
  case lcs => exact h.lcs
  case field => exact h.field
  case fab => exact h.fab
  case vern => exact h.vern
  case ngl => exact h.ngl
  case free => exact h.free

theorem Keeps.modVern {f : Vern → Vern} (h : Keeps G s t) (w : G .vern = true) : Keeps G s (t.modVern f) := by
  constructor
  case vern => exact fun k => absurd k (by simp [w])
  case pending => exact h.pending
  case wf => exact h.wf
  case part => exact h.part
  case dev => exact h.dev
  case regs => exact h.regs
  case mem => exact h.mem
  case host => exact h.host
  case eng => exact h.eng
  case flt => exact h.flt
  case log => exact h.log
  case evt => exact h.evt
  case cfg => exact h.cfg
  case mer => exact h.mer
  case tim => exact h.tim
  case lcs => exact h.lcs
  case field => exact h.field
  case fab => exact h.fab
  case net => exact h.net
  case ngl => exact h.ngl
  case free => exact h.free

theorem Keeps.modNgl {f : Ngl → Ngl} (h : Keeps G s t) (w : G .ngl = true) : Keeps G s (t.modNgl f) := by
  constructor
  case ngl => exact fun k => absurd k (by simp [w])
  case pending => exact h.pending
  case wf => exact h.wf
  case part => exact h.part
  case dev => exact h.dev
  case regs => exact h.regs
  case mem => exact h.mem
  case host => exact h.host
  case eng => exact h.eng
  case flt => exact h.flt
  case log => exact h.log
  case evt => exact h.evt
  case cfg => exact h.cfg
  case mer => exact h.mer
  case tim => exact h.tim
  case lcs => exact h.lcs
  case field => exact h.field
  case fab => exact h.fab
  case net => exact h.net
  case vern => exact h.vern
  case free => exact h.free

theorem Keeps.modFree {f : Nat → Nat} (h : Keeps G s t) (w : G .free = true) : Keeps G s (t.modFree f) := by
  constructor
  case free => exact fun k => absurd k (by simp [w])
  case pending => exact h.pending
  case wf => exact h.wf
  case part => exact h.part
  case dev => exact h.dev
  case regs => exact h.regs
  case mem => exact h.mem
  case host => exact h.host
  case eng => exact h.eng
  case flt => exact h.flt
  case log => exact h.log
  case evt => exact h.evt
  case cfg => exact h.cfg
  case mer => exact h.mer
  case tim => exact h.tim
  case lcs => exact h.lcs
  case field => exact h.field
  case fab => exact h.fab
  case net => exact h.net
  case vern => exact h.vern
  case ngl => exact h.ngl

/-! Canonical memories -/

theorem mems_wf_iff (m : Mems) : m.wf = true ↔
    Memory.wf m.img = true ∧ Memory.wf m.logm = true ∧ Memory.wf m.eph = true ∧ Memory.wf m.pgm = true ∧ Memory.wf m.flash = true
      ∧ Memory.wf m.spill = true ∧ Memory.wf m.clog = true ∧ Memory.wf m.win = true := by
  simp [Mems.wf, Bool.and_eq_true, and_assoc]

theorem mem_wf_filter {m : Mem} {p : Nat × Byte → Bool} (h : Memory.wf m = true) : Memory.wf (m.filter p) = true := wf_filter h

theorem mem_wf_clear {m : Mem} {a b : Nat} (h : Memory.wf m = true) : Memory.wf (Mem.clear m a b) = true := wf_filter h

theorem seqPc_part (c : CoreSt) : (seqPc c).part = c.part ∨ (seqPc c).part < 16 := by
  unfold seqPc; repeat' first | exact .inl rfl | split

theorem branchPc_part (n : Nat) (c : CoreSt) : (branchPc n c).part = c.part ∨ (branchPc n c).part < 16 := by
  unfold branchPc; repeat' first | exact .inl rfl | split

theorem natBits_lt (v lo n : Nat) : natBits v lo n < 2 ^ n := Nat.mod_lt _ (Nat.two_pow_pos n)

end Sys2Proof.Laws
end

