-- ==== Sys2Proof/Laws/KeepsOps.lean ====
section
/-! SUPPORT. Which groups of the state the operations of Ops change. -/

namespace Sys2Proof.Laws

open Sys2Proof Sys2Proof.Machine

variable {G : Group → Bool} {s t : State}

theorem Keeps.wr {a : Nat} {v : Word} (h : Keeps G s t)  (w_regs : G .regs = true) :
    Keeps G s (State.wr t a v) := by
  unfold State.wr
  repeat' first | (with_reducible assumption) | intro _ | with_reducible first | apply Keeps.modRegs | (with_reducible apply Keeps.ite) | split

theorem Keeps.setFld {a : Nat} {lo : Nat} {n : Nat} {v : Nat} (h : Keeps G s t)  (w_regs : G .regs = true) :
    Keeps G s (State.setFld t a lo n v) := by
  unfold State.setFld
  repeat' first | (with_reducible assumption) | intro _ | with_reducible first | apply Keeps.wr | (with_reducible apply Keeps.ite) | split

theorem Keeps.setBit {a : Nat} {i : Nat} {b : Bool} (h : Keeps G s t)  (w_regs : G .regs = true) :
    Keeps G s (State.setBit t a i b) := by
  unfold State.setBit
  repeat' first | (with_reducible assumption) | intro _ | with_reducible first | apply Keeps.setFld | (with_reducible apply Keeps.ite) | split

theorem Keeps.wrN {a : Nat} {v : Nat} (h : Keeps G s t)  (w_regs : G .regs = true) :
    Keeps G s (State.wrN t a v) := by
  unfold State.wrN
  repeat' first | (with_reducible assumption) | intro _ | with_reducible first | apply Keeps.wr | (with_reducible apply Keeps.ite) | split

theorem Keeps.bumpBy {a : Nat} {n : Nat} (h : Keeps G s t)  (w_regs : G .regs = true) :
    Keeps G s (State.bumpBy t a n) := by
  unfold State.bumpBy
  repeat' first | (with_reducible assumption) | intro _ | with_reducible first | apply Keeps.wrN | (with_reducible apply Keeps.ite) | split

theorem Keeps.bump {a : Nat} (h : Keeps G s t)  (w_regs : G .regs = true) :
    Keeps G s (State.bump t a) := by
  unfold State.bump
  repeat' first | (with_reducible assumption) | intro _ | with_reducible first | apply Keeps.bumpBy | (with_reducible apply Keeps.ite) | split

theorem Keeps.bumpFld {a : Nat} {lo : Nat} {n : Nat} (h : Keeps G s t)  (w_regs : G .regs = true) :
    Keeps G s (State.bumpFld t a lo n) := by
  unfold State.bumpFld
  repeat' first | (with_reducible assumption) | intro _ | with_reducible first | apply Keeps.setFld | (with_reducible apply Keeps.ite) | split

theorem Keeps.wr64 {a : Nat} {v : Nat} (h : Keeps G s t)  (w_regs : G .regs = true) :
    Keeps G s (State.wr64 t a v) := by
  unfold State.wr64
  repeat' first | (with_reducible assumption) | intro _ | with_reducible first | apply Keeps.wrN | (with_reducible apply Keeps.ite) | split

theorem Keeps.bump64 {a : Nat} (h : Keeps G s t)  (w_regs : G .regs = true) :
    Keeps G s (State.bump64 t a) := by
  unfold State.bump64
  repeat' first | (with_reducible assumption) | intro _ | with_reducible first | apply Keeps.wr64 | (with_reducible apply Keeps.ite) | split

theorem Keeps.modPair {n : Nat} {f : PairSt → PairSt} (h : Keeps G s t)  (w_eng : G .eng = true) :
    Keeps G s (State.modPair t n f) := by
  unfold State.modPair
  repeat' first | (with_reducible assumption) | intro _ | with_reducible first | refine Keeps.modEng ?_ (fun _ => rfl) ?_ | (with_reducible apply Keeps.ite) | split

theorem Keeps.modPart {p : Nat} {f : PartSt → PartSt} (h : Keeps G s t)  (w_eng : G .eng = true) :
    Keeps G s (State.modPart t p f) := by
  unfold State.modPart
  repeat' first | (with_reducible assumption) | intro _ | with_reducible first | refine Keeps.modEng ?_ (fun _ => rfl) ?_ | (with_reducible apply Keeps.ite) | split

theorem Keeps.modTimer {t0 : Nat} {f : TimSt → TimSt} (h : Keeps G s t)  (w_tim : G .tim = true) :
    Keeps G s (State.modTimer t t0 f) := by
  unfold State.modTimer
  repeat' first | (with_reducible assumption) | intro _ | with_reducible first | apply Keeps.modTim | (with_reducible apply Keeps.ite) | split

theorem Keeps.setNow {t0 : Nat} (h : Keeps G s t)  (w_mer : G .mer = true) :
    Keeps G s (State.setNow t t0) := by
  unfold State.setNow
  repeat' first | (with_reducible assumption) | intro _ | with_reducible first | apply Keeps.modMer | (with_reducible apply Keeps.ite) | split

theorem Keeps.advanceTo {t0 : Nat} (h : Keeps G s t)  (w_mer : G .mer = true) :
    Keeps G s (State.advanceTo t t0) := by
  unfold State.advanceTo
  repeat' first | (with_reducible assumption) | intro _ | with_reducible first | apply Keeps.setNow | (with_reducible apply Keeps.ite) | split

theorem Keeps.tick  (h : Keeps G s t)  (w_mer : G .mer = true) :
    Keeps G s (State.tick t) := by
  unfold State.tick
  repeat' first | (with_reducible assumption) | intro _ | with_reducible first | apply Keeps.modMer | (with_reducible apply Keeps.ite) | split

theorem Keeps.useFree  (h : Keeps G s t)  (w_free : G .free = true) :
    Keeps G s (State.useFree t) := by
  unfold State.useFree
  repeat' first | (with_reducible assumption) | intro _ | with_reducible first | apply Keeps.modFree | (with_reducible apply Keeps.ite) | split

theorem Keeps.imgWr {off : Nat} {w : Csw} (h : Keeps G s t)  (w_mem : G .mem = true) (w_eng : G .eng = true) :
    Keeps G s (State.imgWr t off w) := by
  unfold State.imgWr
  try lift_lets
  repeat' first | (with_reducible assumption) | (intro hw; simp only [mems_wf_iff] at hw; obtain ⟨w1, w2, w3, w4, w5, w6, w7, w8⟩ := hw; simp [mems_wf_iff, mem_wf_setW64, *]; done) | intro _ | with_reducible first | apply Keeps.modMem | refine Keeps.modEng ?_ (fun _ => rfl) ?_ | (with_reducible apply Keeps.ite) | split | (dsimp +zetaDelta only)

theorem Keeps.devWrite {idx : Nat} {v : Nat} {q : Qual} (h : Keeps G s t)  (w_mem : G .mem = true) (w_eng : G .eng = true) :
    Keeps G s (State.devWrite t idx v q) := by
  unfold State.devWrite
  repeat' first | (with_reducible assumption) | intro _ | with_reducible first | apply Keeps.imgWr | (with_reducible apply Keeps.ite) | split

theorem Keeps.produce {idx : Nat} {v : Nat} {q : Qual} (h : Keeps G s t)  (w_mem : G .mem = true) (w_eng : G .eng = true) :
    Keeps G s (State.produce t idx v q) := by
  unfold State.produce
  repeat' first | (with_reducible assumption) | intro _ | with_reducible first | apply Keeps.devWrite | (with_reducible apply Keeps.ite) | split

theorem Keeps.evSet {pg : Nat} {mask : Nat} (h : Keeps G s t)  (w_regs : G .regs = true) :
    Keeps G s (State.evSet t pg mask) := by
  unfold State.evSet
  repeat' first | (with_reducible assumption) | intro _ | with_reducible first | apply Keeps.wr | (with_reducible apply Keeps.ite) | split

theorem Keeps.evMark {n : Nat} (h : Keeps G s t)  (w_regs : G .regs = true) :
    Keeps G s (State.evMark t n) := by
  unfold State.evMark
  repeat' first | (with_reducible assumption) | intro _ | with_reducible first | apply Keeps.evSet | (with_reducible apply Keeps.ite) | refine Keeps.of_fst (by with_reducible assumption) ?_ | split

theorem Keeps.raiseInj {src : Nat} {kind : Nat} {addr : Nat} {inj : Bool} (h : Keeps G s t)  (w_regs : G .regs = true) (w_flt : G .flt = true) :
    Keeps G s (State.raiseInj t src kind addr inj) := by
  unfold State.raiseInj
  try lift_lets
  repeat' first | (with_reducible assumption) | intro _ | with_reducible first | apply Keeps.evMark | apply Keeps.bump | apply Keeps.modFlt | (with_reducible apply Keeps.ite) | split | (dsimp +zetaDelta only)

theorem Keeps.raise {src : Nat} {kind : Nat} {addr : Nat} (h : Keeps G s t)  (w_regs : G .regs = true) (w_flt : G .flt = true) :
    Keeps G s (State.raise t src kind addr) := by
  unfold State.raise
  repeat' first | (with_reducible assumption) | intro _ | with_reducible first | apply Keeps.raiseInj | (with_reducible apply Keeps.ite) | split

theorem Keeps.raise0 {src : Nat} (h : Keeps G s t)  (w_regs : G .regs = true) (w_flt : G .flt = true) :
    Keeps G s (State.raise0 t src) := by
  unfold State.raise0
  repeat' first | (with_reducible assumption) | intro _ | with_reducible first | apply Keeps.raise | (with_reducible apply Keeps.ite) | split

theorem Keeps.evRaw {pg : Nat} {mask : Nat} {b : Bool} (h : Keeps G s t)  (w_regs : G .regs = true) :
    Keeps G s (State.evRaw t pg mask b) := by
  unfold State.evRaw
  try lift_lets
  repeat' first | (with_reducible assumption) | intro _ | with_reducible first | apply Keeps.evSet | apply Keeps.wr | (with_reducible apply Keeps.ite) | split | (dsimp +zetaDelta only)

theorem Keeps.setInService {v : Nat} {b : Bool} (h : Keeps G s t)  (w_regs : G .regs = true) :
    Keeps G s (State.setInService t v b) := by
  unfold State.setInService
  repeat' first | (with_reducible assumption) | intro _ | with_reducible first | apply Keeps.setBit | (with_reducible apply Keeps.ite) | split

theorem Keeps.emit {o : Out} (h : Keeps G s t)  (w_host : G .host = true) :
    Keeps G s (State.emit t o) := by
  unfold State.emit
  repeat' first | (with_reducible assumption) | intro _ | with_reducible first | apply Keeps.modHost | (with_reducible apply Keeps.ite) | split

theorem Keeps.sendVec {v : Nat} (h : Keeps G s t)  (w_regs : G .regs = true) (w_host : G .host = true) :
    Keeps G s (State.sendVec t v) := by
  unfold State.sendVec
  repeat' first | (with_reducible assumption) | intro _ | with_reducible first | apply Keeps.setInService | apply Keeps.emit | apply Keeps.modHost | (with_reducible apply Keeps.ite) | split

theorem Keeps.pendSet {n : Nat} (h : Keeps G s t)  (w_regs : G .regs = true) (w_host : G .host = true) :
    Keeps G s (State.pendSet t n) := by
  unfold State.pendSet
  try lift_lets
  repeat' first | (with_reducible assumption) | intro _ | with_reducible first | apply Keeps.sendVec | apply Keeps.setBit | (with_reducible apply Keeps.ite) | split | (dsimp +zetaDelta only)

theorem Keeps.event {n : Nat} (h : Keeps G s t)  (w_regs : G .regs = true) (w_host : G .host = true) :
    Keeps G s (State.event t n) := by
  unfold State.event
  repeat' first | (with_reducible assumption) | intro _ | with_reducible first | apply Keeps.pendSet | apply Keeps.evMark | (with_reducible apply Keeps.ite) | split

theorem Keeps.logPut {r : LogRec} (h : Keeps G s t)  (w_regs : G .regs = true) (w_mem : G .mem = true) (w_flt : G .flt = true) (w_log : G .log = true) :
    Keeps G s (State.logPut t r) := by
  unfold State.logPut
  try lift_lets
  repeat' first | (with_reducible assumption) | (intro hw; simp only [mems_wf_iff] at hw; obtain ⟨w1, w2, w3, w4, w5, w6, w7, w8⟩ := hw; simp [mems_wf_iff, mem_wf_write, *]; done) | intro _ | with_reducible first | apply Keeps.raise0 | apply Keeps.setFld | apply Keeps.bump | apply Keeps.wrN | apply Keeps.modMem | apply Keeps.modLog | (with_reducible apply Keeps.ite) | split | (dsimp +zetaDelta only)

theorem Keeps.logOpen {put : State → LogRec → State} {r : LogRec} (h : Keeps G s t) (hf_put : ∀ x a, Keeps G s x → Keeps G s (put x a))
    (w_regs : G .regs = true) (w_log : G .log = true) : Keeps G s (t.logOpen put r) := by
  unfold State.logOpen
  repeat' first | (with_reducible assumption) | (with_reducible apply hf_put) | with_reducible first | apply Keeps.bumpBy | apply Keeps.modLog | split

theorem Keeps.logEvent {n : Nat} {data : Nat} (h : Keeps G s t)  (w_regs : G .regs = true) (w_mem : G .mem = true) (w_host : G .host = true) (w_flt : G .flt = true) (w_log : G .log = true) :
    Keeps G s (State.logEvent t n data) := by
  unfold State.logEvent
  repeat' first | (with_reducible assumption) | intro _ | with_reducible first | apply Keeps.logOpen | apply Keeps.logPut | apply Keeps.event | apply Keeps.when | (with_reducible apply Keeps.ite) | split

theorem Keeps.logRelease (h : Keeps G s t) (k : Nat) (w_regs : G .regs = true) (w_mem : G .mem = true) (w_host : G .host = true)
    (w_flt : G .flt = true) (w_log : G .log = true) : Keeps G s (t.logRelease k) := by
  induction k generalizing t with
  | zero => exact h
  | succ k ih =>
    unfold State.logRelease
    lift_lets
    repeat' first | (with_reducible assumption) | with_reducible first | apply ih | apply Keeps.logEvent | apply Keeps.raise0 | apply Keeps.modLog | apply Keeps.setFld | intro _ | split

theorem Keeps.logTidy  (h : Keeps G s t)  (w_regs : G .regs = true) (w_mem : G .mem = true) (w_host : G .host = true) (w_flt : G .flt = true) (w_log : G .log = true) :
    Keeps G s (State.logTidy t) := by
  unfold State.logTidy
  try lift_lets
  repeat' first | (with_reducible assumption) | intro _ | with_reducible first | apply Keeps.logRelease | apply Keeps.setFld | apply Keeps.when | (with_reducible apply Keeps.ite) | split | (dsimp +zetaDelta only)

theorem Keeps.logCommit {r : LogRec} (h : Keeps G s t)  (w_regs : G .regs = true) (w_mem : G .mem = true) (w_host : G .host = true) (w_flt : G .flt = true) (w_log : G .log = true) :
    Keeps G s (State.logCommit t r) := by
  unfold State.logCommit
  try lift_lets
  repeat' first | (with_reducible assumption) | intro _ | with_reducible first | apply Keeps.logEvent | apply Keeps.logTidy | apply Keeps.logPut | apply Keeps.when | (with_reducible apply Keeps.ite) | split | (dsimp +zetaDelta only)

theorem Keeps.logAdd {r : LogRec} (h : Keeps G s t)  (w_regs : G .regs = true) (w_mem : G .mem = true) (w_host : G .host = true) (w_flt : G .flt = true) (w_log : G .log = true) :
    Keeps G s (State.logAdd t r) := by
  unfold State.logAdd
  repeat' first | (with_reducible assumption) | intro _ | with_reducible first | apply Keeps.logCommit | apply Keeps.logOpen | (with_reducible apply Keeps.ite) | split

theorem Keeps.logFlush  (h : Keeps G s t)  (w_regs : G .regs = true) (w_mem : G .mem = true) (w_host : G .host = true) (w_flt : G .flt = true) (w_log : G .log = true) :
    Keeps G s (State.logFlush t) := by
  unfold State.logFlush
  repeat' first | (with_reducible assumption) | intro _ | with_reducible first | apply Keeps.logCommit | apply Keeps.modLog | apply Keeps.foldl | apply Keeps.foldlFst | (with_reducible apply Keeps.ite) | split

theorem Keeps.opEvent {n : Nat} {part : Option Nat} {data : Nat} (h : Keeps G s t)  (w_regs : G .regs = true) (w_mem : G .mem = true) (w_host : G .host = true) (w_flt : G .flt = true) (w_log : G .log = true) :
    Keeps G s (State.opEvent t n part data) := by
  unfold State.opEvent
  try lift_lets
  repeat' first | (with_reducible assumption) | intro _ | with_reducible first | apply Keeps.logAdd | apply Keeps.event | (with_reducible apply Keeps.ite) | refine Keeps.of_fst (by with_reducible assumption) ?_ | split | (dsimp +zetaDelta only)

theorem Keeps.clogWrite {body : List Byte} (h : Keeps G s t)  (w_regs : G .regs = true) (w_mem : G .mem = true) (w_cfg : G .cfg = true) :
    Keeps G s (State.clogWrite t body) := by
  unfold State.clogWrite
  try lift_lets
  repeat' first | (with_reducible assumption) | (intro hw; simp only [mems_wf_iff] at hw; obtain ⟨w1, w2, w3, w4, w5, w6, w7, w8⟩ := hw; simp [mems_wf_iff, mem_wf_write, *]; done) | intro _ | with_reducible first | apply Keeps.wrN | apply Keeps.modMem | apply Keeps.modCfg | (with_reducible apply Keeps.ite) | split | (dsimp +zetaDelta only)

theorem Keeps.modSess {m : Master} {f : Session → Session} (h : Keeps G s t)  (w_cfg : G .cfg = true) :
    Keeps G s (State.modSess t m f) := by
  unfold State.modSess
  repeat' first | (with_reducible assumption) | intro _ | with_reducible first | apply Keeps.modCfg | (with_reducible apply Keeps.ite) | split

theorem Keeps.clogNote {role : Nat} {part : Nat} {master : Nat} {result : Nat} {action : Nat} {target : Nat} {detail : List Byte} (h : Keeps G s t)  (w_regs : G .regs = true) (w_mem : G .mem = true) (w_cfg : G .cfg = true) :
    Keeps G s (State.clogNote t role part master result action target detail) := by
  unfold State.clogNote
  repeat' first | (with_reducible assumption) | intro _ | with_reducible first | apply Keeps.clogWrite | (with_reducible apply Keeps.ite) | split

theorem Keeps.clogGuard {role : Nat} {part : Nat} {master : Nat} {action : Nat} {target : Nat} {detail : List Byte} {a : PendAct} (h : Keeps G s t)  (w_cfg : G .cfg = true) :
    Keeps G s (State.clogGuard t role part master action target detail a) := by
  unfold State.clogGuard
  repeat' first | (with_reducible assumption) | intro _ | with_reducible first | apply Keeps.modCfg | (with_reducible apply Keeps.ite) | split

theorem Keeps.wakePage {pg : Nat} (h : Keeps G s t)  (w_regs : G .regs = true) :
    Keeps G s (State.wakePage t pg) := by
  unfold State.wakePage
  repeat' first | (with_reducible assumption) | intro _ | with_reducible first | apply Keeps.setFld | (with_reducible apply Keeps.ite) | split

theorem Keeps.rtcSet {c : Nat} (h : Keeps G s t)  (w_ngl : G .ngl = true) :
    Keeps G s (State.rtcSet t c) := by
  unfold State.rtcSet
  repeat' first | (with_reducible assumption) | intro _ | with_reducible first | apply Keeps.modNgl | (with_reducible apply Keeps.ite) | split

end Sys2Proof.Laws
end

