-- ==== Sys2Proof/Laws/KeepsEngine.lean ====
section
/-! SUPPORT. Which groups of the state the operations of Modes, Slot, MapOps, Coded, Plain, Coelostat, FbOps, FbContact, FbOther change. -/

namespace Sys2Proof.Laws

open Sys2Proof Sys2Proof.Machine

variable {G : Group → Bool} {s t : State}

theorem Keeps.imgBytes {off : Nat} {bs : List Byte} (h : Keeps G s t)  (w_mem : G .mem = true) (w_eng : G .eng = true) :
    Keeps G s (State.imgBytes t off bs) := by
  unfold State.imgBytes
  repeat' first | (with_reducible assumption) | (intro hw; simp only [mems_wf_iff] at hw; obtain ⟨w1, w2, w3, w4, w5, w6, w7, w8⟩ := hw; simp [mems_wf_iff, mem_wf_write, *]; done) | intro _ | with_reducible first | apply Keeps.modMem | refine Keeps.modEng ?_ (fun _ => rfl) ?_ | (with_reducible apply Keeps.ite) | split

theorem Keeps.ephWrite {off : Nat} {bs : List Byte} (h : Keeps G s t)  (w_mem : G .mem = true) (w_eng : G .eng = true) :
    Keeps G s (State.ephWrite t off bs) := by
  unfold State.ephWrite
  try lift_lets
  repeat' first | (with_reducible assumption) | (intro hw; simp only [mems_wf_iff] at hw; obtain ⟨w1, w2, w3, w4, w5, w6, w7, w8⟩ := hw; simp [mems_wf_iff, mem_wf_write, *]; done) | intro _ | with_reducible first | apply Keeps.modMem | refine Keeps.modEng ?_ (fun _ => rfl) ?_ | (with_reducible apply Keeps.ite) | split | (dsimp +zetaDelta only)

theorem Keeps.ckptWrite {p : Nat} {gen : Nat} {stime : Nat} {sfc : Nat} {c : Ctx} {idle : Bool} {swap : Bool} (h : Keeps G s t)  (w_regs : G .regs = true) (w_mem : G .mem = true) (w_host : G .host = true) (w_eng : G .eng = true) (w_flt : G .flt = true) (w_mer : G .mer = true) (w_fab : G .fab = true) (w_net : G .net = true) :
    Keeps G s (State.ckptWrite t p gen stime sfc c idle swap) := by
  unfold State.ckptWrite
  try lift_lets
  repeat' first | (with_reducible assumption) | intro _ | with_reducible first | apply Keeps.ephWrite | apply Keeps.modPart | apply Keeps.bump64 | (with_reducible apply Keeps.ite) | split | (dsimp +zetaDelta only)

theorem Keeps.startPart {p : Nat} (h : Keeps G s t)  (w_regs : G .regs = true) (w_mem : G .mem = true) (w_host : G .host = true) (w_eng : G .eng = true) (w_flt : G .flt = true) (w_mer : G .mer = true) (w_fab : G .fab = true) (w_net : G .net = true) :
    Keeps G s (State.startPart t p) := by
  unfold State.startPart
  try lift_lets
  repeat' first | (with_reducible assumption) | intro _ | with_reducible first | apply Keeps.ckptWrite | apply Keeps.imgBytes | apply Keeps.ephWrite | apply Keeps.modPart | apply Keeps.each | (with_reducible apply Keeps.ite) | split | (dsimp +zetaDelta only)

theorem Keeps.devShow {p : Nat} {idx : Nat} {v : Nat} {q : Qual} (h : Keeps G s t)  (w_mem : G .mem = true) (w_eng : G .eng = true) :
    Keeps G s (State.devShow t p idx v q) := by
  unfold State.devShow
  repeat' first | (with_reducible assumption) | intro _ | with_reducible first | apply Keeps.devWrite | (with_reducible apply Keeps.ite) | split

theorem Keeps.writeProduced {p : Nat} {q0 : Qual} (h : Keeps G s t)  (w_mem : G .mem = true) (w_eng : G .eng = true) :
    Keeps G s (State.writeProduced t p q0) := by
  unfold State.writeProduced
  try lift_lets
  repeat' first | (with_reducible assumption) | intro _ | with_reducible first | apply Keeps.devWrite | apply Keeps.each | (with_reducible apply Keeps.ite) | split | (dsimp +zetaDelta only)

theorem Keeps.endForces {p : Nat} (h : Keeps G s t)  (w_regs : G .regs = true) (w_mem : G .mem = true) (w_host : G .host = true) (w_eng : G .eng = true) (w_flt : G .flt = true) (w_log : G .log = true) :
    Keeps G s (State.endForces t p) := by
  unfold State.endForces
  try lift_lets
  repeat' first | (with_reducible assumption) | intro _ | with_reducible first | apply Keeps.modPart | apply Keeps.devShow | apply Keeps.opEvent | apply Keeps.each | (with_reducible apply Keeps.ite) | split | (dsimp +zetaDelta only)

theorem Keeps.rePair {n : Nat} (h : Keeps G s t)  (w_regs : G .regs = true) :
    Keeps G s (State.rePair t n) := by
  unfold State.rePair
  repeat' first | (with_reducible assumption) | intro _ | with_reducible first | apply Keeps.setFld | (with_reducible apply Keeps.ite) | split

theorem Keeps.unpair {n : Nat} (h : Keeps G s t)  (w_regs : G .regs = true) (w_mem : G .mem = true) (w_eng : G .eng = true) (w_flt : G .flt = true) :
    Keeps G s (State.unpair t n) := by
  unfold State.unpair
  try lift_lets
  repeat' first | (with_reducible assumption) | intro _ | with_reducible first | apply Keeps.writeProduced | apply Keeps.modPair | apply Keeps.setBit | apply Keeps.setFld | apply Keeps.raise | apply Keeps.each | (with_reducible apply Keeps.ite) | split | (dsimp +zetaDelta only)

theorem Keeps.slotOver {u0 : Nat} (h : Keeps G s t)  (w_regs : G .regs = true) (w_mem : G .mem = true) (w_eng : G .eng = true) (w_flt : G .flt = true) :
    Keeps G s (State.slotOver t u0) := by
  unfold State.slotOver
  try lift_lets
  repeat' first | (with_reducible assumption) | intro _ | with_reducible first | refine Keeps.modCore ?_ (fun _ => .inl rfl) ?_ | apply Keeps.modPair | apply Keeps.setBit | apply Keeps.unpair | apply Keeps.setFld | (with_reducible apply Keeps.ite) | split | (dsimp +zetaDelta only)

theorem Keeps.cutSlot {p : Nat} (h : Keeps G s t)  (w_regs : G .regs = true) (w_mem : G .mem = true) (w_eng : G .eng = true) (w_flt : G .flt = true) :
    Keeps G s (State.cutSlot t p) := by
  unfold State.cutSlot
  try lift_lets
  repeat' first | (with_reducible assumption) | intro _ | with_reducible first | apply Keeps.slotOver | apply Keeps.rePair | apply Keeps.each | (with_reducible apply Keeps.ite) | split | (dsimp +zetaDelta only)

theorem Keeps.setPartMode {p : Nat} {m : Nat} (h : Keeps G s t)  (w_regs : G .regs = true) (w_mem : G .mem = true) (w_host : G .host = true) (w_eng : G .eng = true) (w_flt : G .flt = true) (w_log : G .log = true) (w_mer : G .mer = true) (w_fab : G .fab = true) (w_net : G .net = true) :
    Keeps G s (State.setPartMode t p m) := by
  unfold State.setPartMode
  try lift_lets
  repeat' first | (with_reducible assumption) | intro _ | with_reducible first | apply Keeps.writeProduced | apply Keeps.endForces | apply Keeps.startPart | apply Keeps.modPart | apply Keeps.opEvent | apply Keeps.cutSlot | apply Keeps.raise0 | apply Keeps.setFld | (with_reducible apply Keeps.ite) | split | (dsimp +zetaDelta only)

theorem Keeps.trapReaction {p : Nat} (h : Keeps G s t)  (w_regs : G .regs = true) (w_mem : G .mem = true) (w_host : G .host = true) (w_eng : G .eng = true) (w_flt : G .flt = true) (w_log : G .log = true) (w_mer : G .mer = true) (w_fab : G .fab = true) (w_net : G .net = true) :
    Keeps G s (State.trapReaction t p) := by
  unfold State.trapReaction
  repeat' first | (with_reducible assumption) | intro _ | with_reducible first | apply Keeps.setPartMode | apply Keeps.cutSlot | (with_reducible apply Keeps.ite) | refine Keeps.of_fst (by with_reducible assumption) ?_ | split

theorem Keeps.stopAll  (h : Keeps G s t)  (w_regs : G .regs = true) (w_mem : G .mem = true) (w_host : G .host = true) (w_eng : G .eng = true) (w_flt : G .flt = true) (w_log : G .log = true) (w_mer : G .mer = true) (w_fab : G .fab = true) (w_net : G .net = true) :
    Keeps G s (State.stopAll t) := by
  unfold State.stopAll
  repeat' first | (with_reducible assumption) | intro _ | with_reducible first | apply Keeps.setPartMode | apply Keeps.each | (with_reducible apply Keeps.ite) | split

theorem Keeps.setHold {n : Nat} {b : Bool} (h : Keeps G s t)  (w_regs : G .regs = true) :
    Keeps G s (State.setHold t n b) := by
  unfold State.setHold
  repeat' first | (with_reducible assumption) | intro _ | with_reducible first | apply Keeps.setBit | apply Keeps.evRaw | (with_reducible apply Keeps.ite) | split

theorem Keeps.holdBank {b : Nat} (h : Keeps G s t)  (w_regs : G .regs = true) :
    Keeps G s (State.holdBank t b) := by
  unfold State.holdBank
  repeat' first | (with_reducible assumption) | intro _ | with_reducible first | apply Keeps.setHold | apply Keeps.each | (with_reducible apply Keeps.ite) | split

theorem Keeps.setDac {n : Nat} {v : Nat} {subst : Bool} {fail : Bool} (h : Keeps G s t)  (w_regs : G .regs = true) :
    Keeps G s (State.setDac t n v subst fail) := by
  unfold State.setDac
  repeat' first | (with_reducible assumption) | intro _ | with_reducible first | apply Keeps.setBit | apply Keeps.setFld | (with_reducible apply Keeps.ite) | split

theorem Keeps.aoPreset  (h : Keeps G s t)  (w_regs : G .regs = true) :
    Keeps G s (State.aoPreset t) := by
  unfold State.aoPreset
  repeat' first | (with_reducible assumption) | intro _ | with_reducible first | apply Keeps.setDac | apply Keeps.each | (with_reducible apply Keeps.ite) | split

theorem Keeps.shutDrop {b : Nat} (h : Keeps G s t)  (w_regs : G .regs = true) (w_mem : G .mem = true) (w_host : G .host = true) (w_flt : G .flt = true) (w_log : G .log = true) :
    Keeps G s (State.shutDrop t b) := by
  unfold State.shutDrop
  try lift_lets
  repeat' first | (with_reducible assumption) | intro _ | with_reducible first | apply Keeps.holdBank | apply Keeps.opEvent | apply Keeps.setBit | apply Keeps.evRaw | apply Keeps.bump | (with_reducible apply Keeps.ite) | split | (dsimp +zetaDelta only)

theorem Keeps.shutRequest {b : Nat} {bit : Nat} (h : Keeps G s t)  (w_regs : G .regs = true) (w_mem : G .mem = true) (w_host : G .host = true) (w_flt : G .flt = true) (w_log : G .log = true) :
    Keeps G s (State.shutRequest t b bit) := by
  unfold State.shutRequest
  try lift_lets
  repeat' first | (with_reducible assumption) | intro _ | with_reducible first | apply Keeps.shutDrop | apply Keeps.setBit | (with_reducible apply Keeps.ite) | split | (dsimp +zetaDelta only)

theorem Keeps.shutRelease {b : Nat} {bit : Nat} (h : Keeps G s t)  (w_regs : G .regs = true) :
    Keeps G s (State.shutRelease t b bit) := by
  unfold State.shutRelease
  repeat' first | (with_reducible assumption) | intro _ | with_reducible first | apply Keeps.setBit | (with_reducible apply Keeps.ite) | split

theorem Keeps.shutAll {bit : Nat} (h : Keeps G s t)  (w_regs : G .regs = true) (w_mem : G .mem = true) (w_host : G .host = true) (w_flt : G .flt = true) (w_log : G .log = true) :
    Keeps G s (State.shutAll t bit) := by
  unfold State.shutAll
  repeat' first | (with_reducible assumption) | intro _ | with_reducible first | apply Keeps.shutRequest | apply Keeps.each | (with_reducible apply Keeps.ite) | split

theorem Keeps.modConn {c : Nat} {f : Conn → Conn} (h : Keeps G s t)  (w_net : G .net = true) :
    Keeps G s (State.modConn t c f) := by
  unfold State.modConn
  repeat' first | (with_reducible assumption) | intro _ | with_reducible first | apply Keeps.modNet | (with_reducible apply Keeps.ite) | split

theorem Keeps.connFill {c : Nat} {q : Qual} (h : Keeps G s t)  (w_mem : G .mem = true) (w_eng : G .eng = true) :
    Keeps G s (State.connFill t c q) := by
  unfold State.connFill
  repeat' first | (with_reducible assumption) | intro _ | with_reducible first | apply Keeps.imgWr | apply Keeps.each | (with_reducible apply Keeps.ite) | split

theorem Keeps.connWait {c : Nat} (h : Keeps G s t)  (w_net : G .net = true) :
    Keeps G s (State.connWait t c) := by
  unfold State.connWait
  repeat' first | (with_reducible assumption) | intro _ | with_reducible first | apply Keeps.modConn | (with_reducible apply Keeps.ite) | split

theorem Keeps.connsMode {on : Bool} (h : Keeps G s t)  (w_mem : G .mem = true) (w_eng : G .eng = true) (w_net : G .net = true) :
    Keeps G s (State.connsMode t on) := by
  unfold State.connsMode
  repeat' first | (with_reducible assumption) | intro _ | with_reducible first | apply Keeps.connFill | apply Keeps.connWait | apply Keeps.modConn | apply Keeps.each | (with_reducible apply Keeps.ite) | split

theorem Keeps.portOff {p : Nat} (h : Keeps G s t)  (w_regs : G .regs = true) (w_flt : G .flt = true) :
    Keeps G s (State.portOff t p) := by
  unfold State.portOff
  try lift_lets
  repeat' first | (with_reducible assumption) | intro _ | with_reducible first | apply Keeps.setFld | apply Keeps.raise | apply Keeps.wr64 | apply Keeps.each | apply Keeps.bump | (with_reducible apply Keeps.ite) | split | (dsimp +zetaDelta only)

theorem Keeps.portsMode {on : Bool} (h : Keeps G s t)  (w_regs : G .regs = true) (w_flt : G .flt = true) (w_fab : G .fab = true) :
    Keeps G s (State.portsMode t on) := by
  unfold State.portsMode
  repeat' first | (with_reducible assumption) | intro _ | with_reducible first | apply Keeps.portOff | apply Keeps.setFld | apply Keeps.each | apply Keeps.modFab | (with_reducible apply Keeps.ite) | split

theorem Keeps.setMode {m : DevMode} (h : Keeps G s t)  (w_dev : G .dev = true) (w_regs : G .regs = true) (w_mem : G .mem = true) (w_host : G .host = true) (w_eng : G .eng = true) (w_flt : G .flt = true) (w_log : G .log = true) (w_mer : G .mer = true) (w_fab : G .fab = true) (w_net : G .net = true) :
    Keeps G s (State.setMode t m) := by
  unfold State.setMode
  try lift_lets
  repeat' first | (with_reducible assumption) | intro _ | with_reducible first | apply Keeps.shutRelease | apply Keeps.connsMode | apply Keeps.portsMode | apply Keeps.aoPreset | apply Keeps.shutAll | apply Keeps.stopAll | apply Keeps.opEvent | apply Keeps.evRaw | apply Keeps.when | apply Keeps.each | apply Keeps.modDev | apply Keeps.modFab | (with_reducible apply Keeps.ite) | refine Keeps.of_fst (by with_reducible assumption) ?_ | split | (dsimp +zetaDelta only)

theorem Keeps.modeCause {src : Nat} {cause : Nat} {halted : Bool} (h : Keeps G s t)  (w_regs : G .regs = true) :
    Keeps G s (State.modeCause t src cause halted) := by
  unfold State.modeCause
  repeat' first | (with_reducible assumption) | intro _ | with_reducible first | apply Keeps.wr64 | apply Keeps.wrN | (with_reducible apply Keeps.ite) | split

theorem Keeps.safeState {src : Nat} {cause : Nat} (h : Keeps G s t)  (w_dev : G .dev = true) (w_regs : G .regs = true) (w_mem : G .mem = true) (w_host : G .host = true) (w_eng : G .eng = true) (w_flt : G .flt = true) (w_log : G .log = true) (w_mer : G .mer = true) (w_fab : G .fab = true) (w_net : G .net = true) :
    Keeps G s (State.safeState t src cause) := by
  unfold State.safeState
  try lift_lets
  repeat' first | (with_reducible assumption) | intro _ | with_reducible first | apply Keeps.modeCause | apply Keeps.aoPreset | apply Keeps.logFlush | apply Keeps.shutAll | apply Keeps.setMode | apply Keeps.evRaw | apply Keeps.modFlt | (with_reducible apply Keeps.ite) | refine Keeps.of_fst (by with_reducible assumption) ?_ | split | (dsimp +zetaDelta only)

theorem Keeps.enterHarebell {src : Nat} {cause : Nat} (h : Keeps G s t)  (w_dev : G .dev = true) (w_regs : G .regs = true) (w_mem : G .mem = true) (w_host : G .host = true) (w_eng : G .eng = true) (w_flt : G .flt = true) (w_log : G .log = true) (w_mer : G .mer = true) (w_fab : G .fab = true) (w_net : G .net = true) :
    Keeps G s (State.enterHarebell t src cause) := by
  unfold State.enterHarebell
  try lift_lets
  repeat' first | (with_reducible assumption) | intro _ | with_reducible first | apply Keeps.setPartMode | apply Keeps.modeCause | apply Keeps.setMode | apply Keeps.evRaw | apply Keeps.each | apply Keeps.modDev | apply Keeps.modFlt | (with_reducible apply Keeps.ite) | split | (dsimp +zetaDelta only)

theorem Keeps.andThen {r : Res} {f : State → Res} (h : Keeps G s r.1) (hf : ∀ x, Keeps G s x → Keeps G s (f x).1) :
    Keeps G s (r.andThen f).1 := by
  unfold Res.andThen
  repeat' first | (with_reducible assumption) | (with_reducible apply hf) | intro _ | split

theorem Keeps.raiseExc {u0 : Nat} {e0 : Exc} (h : Keeps G s t)  (w_regs : G .regs = true) (w_flt : G .flt = true) (w_mer : G .mer = true) (w_fab : G .fab = true) (w_net : G .net = true) :
    Keeps G s (State.raiseExc t u0 e0) := by
  unfold State.raiseExc
  try lift_lets
  repeat' first | (with_reducible assumption) | intro _ | with_reducible first | apply Keeps.pgmWrite | apply Keeps.raise0 | apply Keeps.raise | apply Keeps.bump | apply Keeps.fb | (with_reducible apply Keeps.ite) | refine Keeps.of_fst (by with_reducible assumption) ?_ | split | (dsimp +zetaDelta only)

theorem Keeps.trapLast {p : Nat} {kind : Nat} {seq : Nat} {pc : Nat} (h : Keeps G s t)  (w_regs : G .regs = true) :
    Keeps G s (State.trapLast t p kind seq pc) := by
  unfold State.trapLast
  repeat' first | (with_reducible assumption) | intro _ | with_reducible first | apply Keeps.wrN | (with_reducible apply Keeps.ite) | split

theorem Keeps.trapSlot {u0 : Nat} {e0 : Exc} (h : Keeps G s t)  (w_regs : G .regs = true) (w_mem : G .mem = true) (w_host : G .host = true) (w_eng : G .eng = true) (w_flt : G .flt = true) (w_log : G .log = true) (w_mer : G .mer = true) (w_fab : G .fab = true) (w_net : G .net = true) :
    Keeps G s (State.trapSlot t u0 e0) := by
  unfold State.trapSlot
  try lift_lets
  repeat' first | (with_reducible assumption) | intro _ | with_reducible first | apply Keeps.trapReaction | apply Keeps.raiseExc | apply Keeps.slotOver | apply Keeps.trapLast | apply Keeps.modPart | apply Keeps.rePair | apply Keeps.raise | apply Keeps.bump | (with_reducible apply Keeps.ite) | split | (dsimp +zetaDelta only)

theorem Keeps.putC {u0 : Nat} {n : Nat} {w : Csw} (h : Keeps G s t)  (w_eng : G .eng = true) :
    Keeps G s (State.putC t u0 n w) := by
  unfold State.putC
  repeat' first | (with_reducible assumption) | intro _ | with_reducible first | refine Keeps.modCore ?_ (fun _ => .inl rfl) ?_ | (with_reducible apply Keeps.ite) | split

theorem Keeps.writeC {u0 : Nat} {n : Nat} {v : Nat} {q : Qual} (h : Keeps G s t) (w_eng : G .eng = true) :
    Keeps G s (State.writeC t u0 n v q).1 := by
  have key (w : Csw) (b : Bool) : Keeps G s (if b = true then (t.putC u0 n w, none) else (t, some Exc.codeCheck) : Res).1 := by
    cases b
    · exact h
    · exact Keeps.putC h w_eng
  exact key (t.wordC u0 n v q) (cswValid (t.aP (t.core u0).part) (t.wordC u0 n v q) (tagReg n))

theorem Keeps.writeP {u0 : Nat} {n : Nat} {v : Word} (h : Keeps G s t)  (w_eng : G .eng = true) :
    Keeps G s (State.writeP t u0 n v) := by
  unfold State.writeP
  repeat' first | (with_reducible assumption) | intro _ | with_reducible first | refine Keeps.modCore ?_ (fun _ => .inl rfl) ?_ | (with_reducible apply Keeps.ite) | split

theorem Keeps.stage {u0 : Nat} {x : Staged} (h : Keeps G s t)  (w_eng : G .eng = true) :
    Keeps G s (State.stage t u0 x) := by
  unfold State.stage
  repeat' first | (with_reducible assumption) | intro _ | with_reducible first | refine Keeps.modCore ?_ (fun _ => .inl rfl) ?_ | (with_reducible apply Keeps.ite) | split

theorem Keeps.spend {u0 : Nat} {n : Nat} (h : Keeps G s t)  (w_eng : G .eng = true) :
    Keeps G s (State.spend t u0 n) := by
  unfold State.spend
  repeat' first | (with_reducible assumption) | intro _ | with_reducible first | refine Keeps.modCore ?_ (fun _ => .inl rfl) ?_ | apply Keeps.modPair | (with_reducible apply Keeps.ite) | split

theorem Keeps.feed {u0 : Nat} {a : CoreSt} (h : Keeps G s t)  (w_eng : G .eng = true) :
    Keeps G s (State.feed t u0 a) := by
  unfold State.feed
  repeat' first | (with_reducible assumption) | intro _ | with_reducible first | refine Keeps.modCore ?_ (fun _ => .inl rfl) ?_ | (with_reducible apply Keeps.ite) | split

theorem Keeps.instr {u0 : Nat} {legal : Bool} {c : Nat} {sc : Nat} {body : State → Res} (h : Keeps G s t) (hf_body : ∀ x0, Keeps G s x0 → Keeps G s (body x0).1) (w_regs : G .regs = true) (w_mem : G .mem = true) (w_host : G .host = true) (w_eng : G .eng = true) (w_flt : G .flt = true) (w_log : G .log = true) (w_mer : G .mer = true) (w_fab : G .fab = true) (w_net : G .net = true) :
    Keeps G s (State.instr t u0 legal c sc body) := by
  unfold State.instr
  try lift_lets
  repeat' first | (with_reducible assumption) | intro _ | (with_reducible apply hf_body) | with_reducible first | apply Keeps.trapSlot | apply Keeps.raiseExc | refine Keeps.modCore ?_ (fun _ => .inl rfl) ?_ | refine Keeps.modCore ?_ seqPc_part ?_ | apply Keeps.spend | apply Keeps.feed | (with_reducible apply Keeps.ite) | refine Keeps.of_fst (by with_reducible assumption) ?_ | split | (dsimp +zetaDelta only)

theorem Keeps.mapFault {u0 : Nat} {id : Nat} {kind : Nat} (h : Keeps G s t)  (w_regs : G .regs = true) (w_flt : G .flt = true) :
    Keeps G s (State.mapFault t u0 id kind).1 := by
  unfold State.mapFault
  try lift_lets
  repeat' first | (with_reducible assumption) | intro _ | with_reducible first | apply Keeps.raise | apply Keeps.wrN | apply Keeps.id' | (with_reducible apply Keeps.ite) | split | (dsimp +zetaDelta only)

theorem Keeps.imgCorrected  (h : Keeps G s t)  (w_regs : G .regs = true) (w_flt : G .flt = true) :
    Keeps G s (State.imgCorrected t) := by
  unfold State.imgCorrected
  repeat' first | (with_reducible assumption) | intro _ | with_reducible first | apply Keeps.raise0 | apply Keeps.bump | (with_reducible apply Keeps.ite) | split

theorem Keeps.imgMeets {off : Nat} {ecc : EccFind} (h : Keeps G s t)  (w_regs : G .regs = true) (w_eng : G .eng = true) (w_flt : G .flt = true) :
    Keeps G s (State.imgMeets t off ecc) := by
  unfold State.imgMeets
  repeat' first | (with_reducible assumption) | intro _ | with_reducible first | apply Keeps.imgCorrected | refine Keeps.modEng ?_ (fun _ => rfl) ?_ | (with_reducible apply Keeps.ite) | refine Keeps.of_fst (by with_reducible assumption) ?_ | split

theorem Keeps.walk {u0 : Nat} {id : Nat} {env : LoadEnv} (h : Keeps G s t)  (w_regs : G .regs = true) (w_eng : G .eng = true) (w_flt : G .flt = true) :
    Keeps G s (State.walk t u0 id env).1 := by
  unfold State.walk
  try lift_lets
  repeat' first | (with_reducible assumption) | intro _ | with_reducible first | apply Keeps.imgMeets | apply Keeps.modPair | apply Keeps.bump | refine Keeps.modEng ?_ (fun _ => rfl) ?_ | apply Keeps.id' | (with_reducible apply Keeps.ite) | refine Keeps.of_fst (by with_reducible assumption) ?_ | split | (dsimp +zetaDelta only)

theorem Keeps.translate {u0 : Nat} {id : Nat} {env : LoadEnv} (h : Keeps G s t)  (w_regs : G .regs = true) (w_eng : G .eng = true) (w_flt : G .flt = true) :
    Keeps G s (State.translate t u0 id env).1 := by
  unfold State.translate
  try lift_lets
  repeat' first | (with_reducible assumption) | intro _ | with_reducible first | apply Keeps.modPair | apply Keeps.raise0 | apply Keeps.walk | apply Keeps.id' | (with_reducible apply Keeps.ite) | refine Keeps.of_fst (by with_reducible assumption) ?_ | split | (dsimp +zetaDelta only)

theorem Keeps.markFresh {p : Nat} (h : Keeps G s t)  (w_eng : G .eng = true) :
    Keeps G s (State.markFresh t p) := by
  unfold State.markFresh
  repeat' first | (with_reducible assumption) | intro _ | with_reducible first | apply Keeps.modPart | (with_reducible apply Keeps.ite) | split

theorem Keeps.collimate {n : Nat} {coll : Fin 4} (h : Keeps G s t)  (w_regs : G .regs = true) (w_flt : G .flt = true) :
    Keeps G s (State.collimate t n coll) := by
  unfold State.collimate
  try lift_lets
  repeat' first | (with_reducible assumption) | intro _ | with_reducible first | apply Keeps.bumpFld | apply Keeps.raise0 | apply Keeps.each | (with_reducible apply Keeps.ite) | split | (dsimp +zetaDelta only)

theorem Keeps.loadEntry {u0 : Nat} {d : Nat} {e0 : Nat} {env : LoadEnv} (h : Keeps G s t)  (w_regs : G .regs = true) (w_eng : G .eng = true) (w_flt : G .flt = true) :
    Keeps G s (State.loadEntry t u0 d e0 env).1 := by
  unfold State.loadEntry
  try lift_lets
  repeat' first | (with_reducible assumption) | intro _ | with_reducible first | apply Keeps.translate | apply Keeps.collimate | apply Keeps.mapFault | apply Keeps.imgMeets | apply Keeps.writeC | apply Keeps.id' | (with_reducible apply Keeps.ite) | refine Keeps.of_fst (by with_reducible assumption) ?_ | split | (dsimp +zetaDelta only)

theorem Keeps.plain2 {u0 : Nat} {d : Nat} {a : Nat} {b : Nat} {c : Nat} {f : Word → Word → Word} (h : Keeps G s t)  (w_regs : G .regs = true) (w_mem : G .mem = true) (w_host : G .host = true) (w_eng : G .eng = true) (w_flt : G .flt = true) (w_log : G .log = true) (w_mer : G .mer = true) (w_fab : G .fab = true) (w_net : G .net = true) :
    Keeps G s (State.plain2 t u0 d a b c f) := by
  unfold State.plain2
  repeat' first | (with_reducible assumption) | intro _ | with_reducible first | apply Keeps.writeP | apply Keeps.instr | (with_reducible apply Keeps.ite) | split

theorem Keeps.plain1 {u0 : Nat} {d : Nat} {a : Nat} {f : Word → Word} (h : Keeps G s t)  (w_regs : G .regs = true) (w_mem : G .mem = true) (w_host : G .host = true) (w_eng : G .eng = true) (w_flt : G .flt = true) (w_log : G .log = true) (w_mer : G .mer = true) (w_fab : G .fab = true) (w_net : G .net = true) :
    Keeps G s (State.plain1 t u0 d a f) := by
  unfold State.plain1
  repeat' first | (with_reducible assumption) | intro _ | with_reducible first | apply Keeps.writeP | apply Keeps.instr | (with_reducible apply Keeps.ite) | split

theorem Keeps.takeBranch {u0 : Nat} {o : Nat} (h : Keeps G s t)  (w_eng : G .eng = true) :
    Keeps G s (State.takeBranch t u0 o) := by
  unfold State.takeBranch
  try lift_lets
  repeat' first | (with_reducible assumption) | intro _ | with_reducible first | refine Keeps.modCore ?_ (fun _ => .inl rfl) ?_ | refine Keeps.modCore ?_ (fun _ => branchPc_part ..) ?_ | (with_reducible apply Keeps.ite) | split | (dsimp +zetaDelta only)

theorem Keeps.pgmWr {u0 : Nat} {bank : Nat} {i : Nat} {w : Word} (h : Keeps G s t)  (w_mem : G .mem = true) :
    Keeps G s (State.pgmWr t u0 bank i w) := by
  unfold State.pgmWr
  repeat' first | (with_reducible assumption) | (intro hw; simp only [mems_wf_iff] at hw; obtain ⟨w1, w2, w3, w4, w5, w6, w7, w8⟩ := hw; simp [mems_wf_iff, mem_wf_setW32, *]; done) | intro _ | with_reducible first | apply Keeps.modMem | (with_reducible apply Keeps.ite) | split

theorem Keeps.pgmWrite {u0 : Nat} {bank : Nat} {i : Nat} {w : Word} (h : Keeps G s t)  (w_mem : G .mem = true) :
    Keeps G s (State.pgmWrite t u0 bank i w) := by
  unfold State.pgmWrite
  repeat' first | (with_reducible assumption) | intro _ | with_reducible first | apply Keeps.pgmWr | (with_reducible apply Keeps.ite) | split

theorem Keeps.modTok {p : Nat} {f : Tok → Tok} (h : Keeps G s t)  (w_fab : G .fab = true) :
    Keeps G s (State.modTok t p f) := by
  unfold State.modTok
  repeat' first | (with_reducible assumption) | intro _ | with_reducible first | apply Keeps.modFab | (with_reducible apply Keeps.ite) | split

theorem Keeps.seTake {n : Nat} {e0 : Nat} (h : Keeps G s t)  (w_eng : G .eng = true) :
    Keeps G s (State.seTake t n e0) := by
  unfold State.seTake
  repeat' first | (with_reducible assumption) | intro _ | with_reducible first | apply Keeps.modPair | (with_reducible apply Keeps.ite) | split

theorem Keeps.skipSlot {n : Nat} {p : Nat} {seq : Nat} {pc : Nat} (h : Keeps G s t)  (w_regs : G .regs = true) (w_mem : G .mem = true) (w_host : G .host = true) (w_eng : G .eng = true) (w_flt : G .flt = true) (w_log : G .log = true) (w_mer : G .mer = true) (w_fab : G .fab = true) (w_net : G .net = true) :
    Keeps G s (State.skipSlot t n p seq pc) := by
  unfold State.skipSlot
  try lift_lets
  repeat' first | (with_reducible assumption) | intro _ | with_reducible first | apply Keeps.trapReaction | apply Keeps.trapLast | apply Keeps.raise | apply Keeps.bump | (with_reducible apply Keeps.ite) | split | (dsimp +zetaDelta only)

theorem Keeps.abandon {u0 : Nat} (h : Keeps G s t)  (w_regs : G .regs = true) (w_mem : G .mem = true) (w_host : G .host = true) (w_eng : G .eng = true) (w_flt : G .flt = true) (w_log : G .log = true) (w_mer : G .mer = true) (w_fab : G .fab = true) (w_net : G .net = true) :
    Keeps G s (State.abandon t u0) := by
  unfold State.abandon
  try lift_lets
  repeat' first | (with_reducible assumption) | intro _ | with_reducible first | apply Keeps.skipSlot | apply Keeps.slotOver | apply Keeps.modPart | apply Keeps.rePair | apply Keeps.raise | apply Keeps.bump | (with_reducible apply Keeps.ite) | split | (dsimp +zetaDelta only)

theorem Keeps.clearCore {u0 : Nat} (h : Keeps G s t)  (w_regs : G .regs = true) (w_mem : G .mem = true) (w_host : G .host = true) (w_eng : G .eng = true) (w_flt : G .flt = true) (w_log : G .log = true) (w_mer : G .mer = true) (w_fab : G .fab = true) (w_net : G .net = true) :
    Keeps G s (State.clearCore t u0) := by
  unfold State.clearCore
  try lift_lets
  repeat' first | (with_reducible assumption) | intro _ | with_reducible first | apply Keeps.trapSlot | apply Keeps.abandon | (with_reducible apply Keeps.ite) | split | (dsimp +zetaDelta only)

theorem Keeps.beginSlot {n : Nat} {e0 : Nat} (h : Keeps G s t)  (w_regs : G .regs = true) (w_mem : G .mem = true) (w_host : G .host = true) (w_eng : G .eng = true) (w_flt : G .flt = true) (w_log : G .log = true) (w_mer : G .mer = true) (w_fab : G .fab = true) (w_net : G .net = true) :
    Keeps G s (State.beginSlot t n e0) := by
  unfold State.beginSlot
  try lift_lets
  repeat' first | (with_reducible assumption) | intro _ | with_reducible first | apply Keeps.trapSlot | apply Keeps.takeover | refine Keeps.modCore ?_ (fun _ => .inl rfl) ?_ | refine Keeps.modCore ?_ (fun _ => .inr (natBits_lt ..)) ?_ | apply Keeps.setFld | (with_reducible apply Keeps.ite) | refine Keeps.of_fst (by with_reducible assumption) ?_ | split | (dsimp +zetaDelta only)

theorem Keeps.slotStart {n : Nat} {e0 : Nat} {ecc : EccFind} (h : Keeps G s t)  (w_regs : G .regs = true) (w_mem : G .mem = true) (w_host : G .host = true) (w_eng : G .eng = true) (w_flt : G .flt = true) (w_log : G .log = true) (w_mer : G .mer = true) (w_fab : G .fab = true) (w_net : G .net = true) :
    Keeps G s (State.slotStart t n e0 ecc) := by
  unfold State.slotStart
  try lift_lets
  repeat' first | (with_reducible assumption) | intro _ | with_reducible first | apply Keeps.beginSlot | apply Keeps.clearCore | apply Keeps.advanceTo | apply Keeps.wakePage | apply Keeps.skipSlot | apply Keeps.modPair | apply Keeps.seTake | apply Keeps.raise | (with_reducible apply Keeps.ite) | split | (dsimp +zetaDelta only)

theorem Keeps.publish {p : Nat} {a0 : Staged} (h : Keeps G s t)  (w_regs : G .regs = true) (w_mem : G .mem = true) (w_host : G .host = true) (w_eng : G .eng = true) (w_flt : G .flt = true) (w_log : G .log = true) (w_fab : G .fab = true) (w_net : G .net = true) :
    Keeps G s (State.publish p t a0) := by
  unfold State.publish
  repeat' first | (with_reducible assumption) | intro _ | with_reducible first | apply Keeps.imgBytes | apply Keeps.devWrite | apply Keeps.modPart | apply Keeps.opEvent | apply Keeps.imgWr | apply Keeps.raise | apply Keeps.store | apply Keeps.wr64 | apply Keeps.fb | refine Keeps.modEng ?_ (fun _ => rfl) ?_ | (with_reducible apply Keeps.ite) | split

theorem Keeps.mirrorWrite {p : Nat} {gen : Nat} {bs : List Byte} (h : Keeps G s t)  (w_regs : G .regs = true) (w_mem : G .mem = true) (w_eng : G .eng = true) :
    Keeps G s (State.mirrorWrite t p gen bs) := by
  unfold State.mirrorWrite
  try lift_lets
  repeat' first | (with_reducible assumption) | intro _ | with_reducible first | apply Keeps.ephWrite | apply Keeps.setFld | refine Keeps.modEng ?_ (fun _ => rfl) ?_ | (with_reducible apply Keeps.ite) | split | (dsimp +zetaDelta only)

theorem Keeps.endSlotGood {u0 : Nat} {f : Bool} (h : Keeps G s t)  (w_regs : G .regs = true) (w_mem : G .mem = true) (w_host : G .host = true) (w_eng : G .eng = true) (w_flt : G .flt = true) (w_log : G .log = true) (w_mer : G .mer = true) (w_fab : G .fab = true) (w_net : G .net = true) :
    Keeps G s (State.endSlotGood t u0 f) := by
  unfold State.endSlotGood
  try lift_lets
  repeat' first | (with_reducible assumption) | intro _ | with_reducible first | apply Keeps.mirrorWrite | apply Keeps.ckptWrite | apply Keeps.takeover | apply Keeps.slotOver | apply Keeps.modPart | apply Keeps.publish | apply Keeps.setBit | apply Keeps.rePair | apply Keeps.setFld | apply Keeps.bump | apply Keeps.wrN | apply Keeps.foldl | apply Keeps.foldlFst | (with_reducible apply Keeps.ite) | refine Keeps.of_fst (by with_reducible assumption) ?_ | split | (dsimp +zetaDelta only)

theorem Keeps.endSlot {u0 : Nat} {f : Bool} {lastMain : BitVec 64} {lastChk : BitVec 64} (h : Keeps G s t)  (w_regs : G .regs = true) (w_mem : G .mem = true) (w_host : G .host = true) (w_eng : G .eng = true) (w_flt : G .flt = true) (w_log : G .log = true) (w_mer : G .mer = true) (w_fab : G .fab = true) (w_net : G .net = true) :
    Keeps G s (State.endSlot t u0 f lastMain lastChk) := by
  unfold State.endSlot
  try lift_lets
  repeat' first | (with_reducible assumption) | intro _ | with_reducible first | apply Keeps.endSlotGood | apply Keeps.trapSlot | apply Keeps.raiseExc | apply Keeps.slotOver | apply Keeps.modPair | apply Keeps.spend | apply Keeps.wr64 | apply Keeps.bump | (with_reducible apply Keeps.ite) | split | (dsimp +zetaDelta only)

theorem Keeps.swapDrop {p : Nat} (h : Keeps G s t)  (w_regs : G .regs = true) (w_eng : G .eng = true) :
    Keeps G s (State.swapDrop t p) := by
  unfold State.swapDrop
  repeat' first | (with_reducible assumption) | intro _ | with_reducible first | apply Keeps.modPart | apply Keeps.setBit | (with_reducible apply Keeps.ite) | split

theorem Keeps.swapRefuse {p : Nat} (h : Keeps G s t)  (w_regs : G .regs = true) (w_eng : G .eng = true) (w_flt : G .flt = true) :
    Keeps G s (State.swapRefuse t p) := by
  unfold State.swapRefuse
  repeat' first | (with_reducible assumption) | intro _ | with_reducible first | apply Keeps.swapDrop | apply Keeps.setBit | apply Keeps.raise | (with_reducible apply Keeps.ite) | split

theorem Keeps.ephRead {off : Nat} {ecc : EccFind} (h : Keeps G s t)  (w_regs : G .regs = true) (w_eng : G .eng = true) (w_flt : G .flt = true) :
    Keeps G s (State.ephRead t off ecc) := by
  unfold State.ephRead
  repeat' first | (with_reducible assumption) | intro _ | with_reducible first | apply Keeps.raise0 | apply Keeps.bump | refine Keeps.modEng ?_ (fun _ => rfl) ?_ | (with_reducible apply Keeps.ite) | refine Keeps.of_fst (by with_reducible assumption) ?_ | split

theorem Keeps.ephMeets {off : Nat} {n : Nat} (h : Keeps G s t)  (w_regs : G .regs = true) (w_flt : G .flt = true) :
    Keeps G s (State.ephMeets t off n) := by
  unfold State.ephMeets
  repeat' first | (with_reducible assumption) | intro _ | with_reducible first | apply Keeps.raise0 | (with_reducible apply Keeps.ite) | split

theorem Keeps.noteMismatch {n : Nat} {site : Nat} (h : Keeps G s t)  (w_regs : G .regs = true) :
    Keeps G s (State.noteMismatch t n site) := by
  unfold State.noteMismatch
  try lift_lets
  repeat' first | (with_reducible assumption) | intro _ | with_reducible first | apply Keeps.wr64 | apply Keeps.bump | apply Keeps.wrN | (with_reducible apply Keeps.ite) | split | (dsimp +zetaDelta only)

theorem Keeps.recoverSlot {n : Nat} {ecc : EccFind} (h : Keeps G s t)  (w_regs : G .regs = true) (w_mem : G .mem = true) (w_host : G .host = true) (w_eng : G .eng = true) (w_flt : G .flt = true) (w_log : G .log = true) (w_mer : G .mer = true) (w_fab : G .fab = true) (w_net : G .net = true) :
    Keeps G s (State.recoverSlot t n ecc) := by
  unfold State.recoverSlot
  try lift_lets
  repeat' first | (with_reducible assumption) | intro _ | with_reducible first | apply Keeps.ephMeets | apply Keeps.trapSlot | apply Keeps.takeover | apply Keeps.ephRead | refine Keeps.modCore ?_ (fun _ => .inl rfl) ?_ | apply Keeps.modPair | apply Keeps.setFld | apply Keeps.raise | (with_reducible apply Keeps.ite) | refine Keeps.of_fst (by with_reducible assumption) ?_ | split | (dsimp +zetaDelta only)

theorem Keeps.mismatch {n : Nat} {site : Nat} {ecc : EccFind} (h : Keeps G s t)  (w_regs : G .regs = true) (w_mem : G .mem = true) (w_host : G .host = true) (w_eng : G .eng = true) (w_flt : G .flt = true) (w_log : G .log = true) (w_mer : G .mer = true) (w_fab : G .fab = true) (w_net : G .net = true) :
    Keeps G s (State.mismatch t n site ecc) := by
  unfold State.mismatch
  try lift_lets
  repeat' first | (with_reducible assumption) | intro _ | with_reducible first | apply Keeps.noteMismatch | apply Keeps.recoverSlot | apply Keeps.modPair | apply Keeps.raise | (with_reducible apply Keeps.ite) | refine Keeps.of_fst (by with_reducible assumption) ?_ | split | (dsimp +zetaDelta only)

theorem Keeps.pgmScrub {n : Nat} {bank : Nat} {i : Nat} {main : EccFind} {chk : EccFind} (h : Keeps G s t)  (w_regs : G .regs = true) (w_mem : G .mem = true) (w_host : G .host = true) (w_eng : G .eng = true) (w_flt : G .flt = true) (w_log : G .log = true) (w_mer : G .mer = true) (w_fab : G .fab = true) (w_net : G .net = true) :
    Keeps G s (State.pgmScrub t n bank i main chk) := by
  unfold State.pgmScrub
  try lift_lets
  repeat' first | (with_reducible assumption) | intro _ | with_reducible first | apply Keeps.trapReaction | apply Keeps.modPart | apply Keeps.raise | apply Keeps.pgmWr | apply Keeps.each | (with_reducible apply Keeps.ite) | refine Keeps.of_fst (by with_reducible assumption) ?_ | split | (dsimp +zetaDelta only)

theorem Keeps.fbOutputs {u0 : Nat} {d : Nat} {outs : List (Nat × Qual)} (h : Keeps G s t)  (w_eng : G .eng = true) :
    Keeps G s (State.fbOutputs t u0 d outs).1 := by
  unfold State.fbOutputs
  repeat' first | (with_reducible assumption) | intro _ | with_reducible first | apply Keeps.writeC | apply Keeps.andThen | apply Keeps.foldl | apply Keeps.foldlFst | (with_reducible apply Keeps.ite) | refine Keeps.of_fst (by with_reducible assumption) ?_ | split

theorem Keeps.fb {u0 : Nat} {d : Nat} {a : Nat} {i : Nat} {code : Nat} {nIn : Nat} {nOut : Nat} {bad : Bool} {used : FbRec → Nat → Bool} {eval : State → FbRec → FbEnv → FbOut} (h : Keeps G s t)  (w_regs : G .regs = true) (w_mem : G .mem = true) (w_host : G .host = true) (w_eng : G .eng = true) (w_flt : G .flt = true) (w_log : G .log = true) (w_mer : G .mer = true) (w_fab : G .fab = true) (w_net : G .net = true) :
    Keeps G s (State.fb t u0 d a i code nIn nOut bad used eval) := by
  unfold State.fb
  try lift_lets
  repeat' first | (with_reducible assumption) | intro _ | with_reducible first | apply Keeps.fbOutputs | apply Keeps.stage | apply Keeps.instr | apply Keeps.andThen | (with_reducible apply Keeps.ite) | refine Keeps.of_fst (by with_reducible assumption) ?_ | split | (dsimp +zetaDelta only)

theorem Keeps.storeEntry {u0 : Nat} {a : Nat} {x : Nat} (h : Keeps G s t)  (w_eng : G .eng = true) (w_fab : G .fab = true) (w_net : G .net = true) :
    Keeps G s (State.storeEntry t u0 a x).1 := by
  unfold State.storeEntry
  try lift_lets
  repeat' first | (with_reducible assumption) | intro _ | with_reducible first | apply Keeps.stage | apply Keeps.store | (with_reducible apply Keeps.ite) | refine Keeps.of_fst (by with_reducible assumption) ?_ | split | (dsimp +zetaDelta only)

theorem Keeps.coded1 {u0 : Nat} {d : Nat} {a : Nat} {f : Nat → Nat} (h : Keeps G s t)  (w_eng : G .eng = true) :
    Keeps G s (State.coded1 t u0 d a f).1 := by
  unfold State.coded1
  repeat' first | (with_reducible assumption) | intro _ | with_reducible first | apply Keeps.writeC | (with_reducible apply Keeps.ite) | refine Keeps.of_fst (by with_reducible assumption) ?_ | split

theorem Keeps.coded2 {u0 : Nat} {d : Nat} {a : Nat} {b : Nat} {f : Nat → Nat → Nat} (h : Keeps G s t)  (w_eng : G .eng = true) :
    Keeps G s (State.coded2 t u0 d a b f).1 := by
  unfold State.coded2
  repeat' first | (with_reducible assumption) | intro _ | with_reducible first | apply Keeps.writeC | (with_reducible apply Keeps.ite) | refine Keeps.of_fst (by with_reducible assumption) ?_ | split

theorem Keeps.codedTimer {u0 : Nat} {d : Nat} {a : Nat} {t0 : Nat} {typ : Nat} (h : Keeps G s t)  (w_eng : G .eng = true) :
    Keeps G s (State.codedTimer t u0 d a t0 typ).1 := by
  unfold State.codedTimer
  try lift_lets
  repeat' first | (with_reducible assumption) | intro _ | with_reducible first | apply Keeps.writeC | apply Keeps.stage | apply Keeps.andThen | (with_reducible apply Keeps.ite) | refine Keeps.of_fst (by with_reducible assumption) ?_ | split | (dsimp +zetaDelta only)

end Sys2Proof.Laws
end

