-- ==== Sys2Proof/Laws/Ops.lean ====
section
/-! SUPPORT. What reading gives after the plain operations: registers, fields, cores, pairs and partitions. -/

namespace Sys2Proof.Laws

open Sys2Proof Sys2Proof.Machine

variable {s : State}

theorem rd_wr (a b : Nat) (v : Word) : (s.wr a v).rd b = if b = a then v else s.rd b := by
  simp [State.rd, State.wr, tab_get_set]

@[simp] theorem rd_wr_same (a : Nat) (v : Word) : (s.wr a v).rd a = v := by simp [rd_wr]

theorem rd_wr_ne {a b : Nat} (v : Word) (h : b ≠ a) : (s.wr a v).rd b = s.rd b := by simp [rd_wr, h]

theorem rd_setFld_ne {a b lo n v : Nat} (h : b ≠ a) : (s.setFld a lo n v).rd b = s.rd b := rd_wr_ne _ h

theorem rd_setBit_ne {a b i : Nat} {x : Bool} (h : b ≠ a) : (s.setBit a i x).rd b = s.rd b := rd_wr_ne _ h

theorem rd_wrN (a b v : Nat) : (s.wrN a v).rd b = if b = a then BitVec.ofNat 32 v else s.rd b := rd_wr ..

theorem rd_bump (a b : Nat) : (s.bump a).rd b = if b = a then BitVec.ofNat 32 (satAdd 32 (s.rd a).toNat 1) else s.rd b := rd_wr ..

/-! Bits of a word -/

theorem natBits_testBit (v lo n i : Nat) : (natBits v lo n).testBit i = (decide (i < n) && v.testBit (lo + i)) := by
  simp [natBits, Nat.testBit_mod_two_pow, Nat.testBit_div_two_pow, Nat.add_comm]

theorem natBit_eq (v i : Nat) : natBit v i = v.testBit i := by simp [natBit, Nat.testBit_eq_decide_div_mod_eq]

theorem setBits_testBit {w : Nat} (x : BitVec w) (lo n v i : Nat) : (setBits x lo n v).toNat.testBit i =
    (decide (i < w) && if lo ≤ i ∧ i < lo + n then v.testBit (i - lo) else x.toNat.testBit i) := by
  rw [BitVec.testBit_toNat, setBits, BitVec.getLsbD_or, BitVec.getLsbD_and, BitVec.getLsbD_not, BitVec.getLsbD_ofNat, BitVec.getLsbD_ofNat,
    Nat.testBit_mul_two_pow, Nat.testBit_mul_two_pow, Nat.testBit_two_pow_sub_one, Nat.testBit_mod_two_pow, ← BitVec.testBit_toNat]
  by_cases hw : i < w
  · by_cases hl : lo ≤ i
    · by_cases hh : i - lo < n
      · have : i < lo + n := by omega
        simp [hw, hl, hh, this]
      · have : ¬ i < lo + n := by omega
        simp [hw, hl, hh, this]
    · simp [hw, hl]
  · have : x.toNat.testBit i = false := by
      rw [BitVec.testBit_toNat]; exact BitVec.getLsbD_of_ge x i (by omega)
    simp [hw, this]

/-- The field set reads as the value modulo its width. -/
theorem natBits_setBits_same {w : Nat} (x : BitVec w) {lo n : Nat} (v : Nat) (h : lo + n ≤ w) :
    natBits (setBits x lo n v).toNat lo n = v % 2 ^ n := by
  apply Nat.eq_of_testBit_eq
  intro i
  rw [natBits_testBit, setBits_testBit, Nat.testBit_mod_two_pow]
  by_cases hi : i < n
  · have h1 : lo + i < w := by omega
    have h2 : lo + i < lo + n := by omega
    simp [hi, h1]
  · simp [hi]

/-- Another field reads as before. -/
theorem natBits_setBits_ne {w : Nat} (x : BitVec w) {lo n lo' n' : Nat} (v : Nat) (h : lo' + n' ≤ lo ∨ lo + n ≤ lo') :
    natBits (setBits x lo n v).toNat lo' n' = natBits x.toNat lo' n' := by
  apply Nat.eq_of_testBit_eq
  intro i
  rw [natBits_testBit, natBits_testBit, setBits_testBit]
  by_cases hi : i < n'
  · have h2 : ¬ (lo ≤ lo' + i ∧ lo' + i < lo + n) := by omega
    rw [if_neg h2]
    by_cases hw : lo' + i < w
    · simp [hw]
    · have : x.toNat.testBit (lo' + i) = false := by
        rw [BitVec.testBit_toNat]; exact BitVec.getLsbD_of_ge x _ (by omega)
      simp [hw, this]
  · simp [hi]

theorem natBit_setBits_ne {w : Nat} (x : BitVec w) {lo n i : Nat} (v : Nat) (h : i < lo ∨ lo + n ≤ i) :
    natBit (setBits x lo n v).toNat i = natBit x.toNat i := by
  rw [natBit_eq, natBit_eq, setBits_testBit]
  have h2 : ¬ (lo ≤ i ∧ i < lo + n) := by omega
  rw [if_neg h2]
  by_cases hw : i < w
  · simp [hw]
  · have : x.toNat.testBit i = false := by
      rw [BitVec.testBit_toNat]; exact BitVec.getLsbD_of_ge x _ (by omega)
    simp [hw, this]

theorem natBit_setBits_same {w : Nat} (x : BitVec w) {i : Nat} (b : Bool) (h : i < w) : natBit (setBits x i 1 (b2n b)).toNat i = b := by
  rw [natBit_eq, setBits_testBit]
  cases b <;> simp [h, b2n]

theorem fld_setFld_same {a lo n v : Nat} (h : lo + n ≤ 32) : (s.setFld a lo n v).fld a lo n = v % 2 ^ n := by
  simp [State.fld, State.setFld, natBits_setBits_same _ _ h]

theorem fld_setFld_ne {a b lo n v lo' n' : Nat} (h : b ≠ a ∨ lo' + n' ≤ lo ∨ lo + n ≤ lo') :
    (s.setFld a lo n v).fld b lo' n' = s.fld b lo' n' := by
  simp only [State.fld, State.setFld, rd_wr]
  split
  · rename_i e; subst e
    exact natBits_setBits_ne _ _ (by omega)
  · rfl

theorem bit_setBit_same {a i : Nat} {b : Bool} (h : i < 32) : (s.setBit a i b).bit a i = b := by
  simp [State.bit, State.setBit, State.setFld, natBit_setBits_same _ _ h]

theorem bit_setFld_ne {a b lo n v i : Nat} (h : b ≠ a ∨ i < lo ∨ lo + n ≤ i) : (s.setFld a lo n v).bit b i = s.bit b i := by
  simp only [State.bit, State.setFld, rd_wr]
  split
  · rename_i e; subst e
    exact natBit_setBits_ne _ _ (by omega)
  · rfl

/-! Cores, pairs, partitions -/

theorem core_modCore (u v : Nat) (f : CoreSt → CoreSt) : (s.modCore u f).core v = if v = u then f (s.core u) else s.core v := by
  simp only [State.core, State.modCore]; exact tab_get_modify ..

@[simp] theorem core_modCore_same (u : Nat) (f : CoreSt → CoreSt) : (s.modCore u f).core u = f (s.core u) := by simp [core_modCore]

@[simp] theorem pair_modCore (u n : Nat) (f : CoreSt → CoreSt) : (s.modCore u f).pair n = s.pair n := rfl
@[simp] theorem part_modCore (u p : Nat) (f : CoreSt → CoreSt) : (s.modCore u f).part p = s.part p := rfl
@[simp] theorem rd_modCore (u a : Nat) (f : CoreSt → CoreSt) : (s.modCore u f).rd a = s.rd a := rfl

theorem pair_modPair (n m : Nat) (f : PairSt → PairSt) : (s.modPair n f).pair m = if m = n then f (s.pair n) else s.pair m := by
  simp only [State.pair, State.modPair]; exact tab_get_modify ..

@[simp] theorem core_modPair (n u : Nat) (f : PairSt → PairSt) : (s.modPair n f).core u = s.core u := rfl
@[simp] theorem part_modPair (n p : Nat) (f : PairSt → PairSt) : (s.modPair n f).part p = s.part p := rfl
@[simp] theorem rd_modPair (n a : Nat) (f : PairSt → PairSt) : (s.modPair n f).rd a = s.rd a := rfl

theorem part_modPart (p q : Nat) (f : PartSt → PartSt) : (s.modPart p f).part q = if q = p then f (s.part p) else s.part q := by
  simp only [State.part, State.modPart]; exact tab_get_modify ..

theorem timer_modTimer (t r : Nat) (f : TimSt → TimSt) : (s.modTimer t f).timer r = if r = t then f (s.timer t) else s.timer r := by
  simp only [State.timer, State.modTimer]; exact tab_get_modify ..

@[simp] theorem core_wr (a u : Nat) (v : Word) : (s.wr a v).core u = s.core u := rfl
@[simp] theorem pair_wr (a n : Nat) (v : Word) : (s.wr a v).pair n = s.pair n := rfl
@[simp] theorem part_wr (a p : Nat) (v : Word) : (s.wr a v).part p = s.part p := rfl
@[simp] theorem det_wr (a d : Nat) (v : Word) : (s.wr a v).det d = s.det d := rfl

end Sys2Proof.Laws
end

