-- ==== Sys2Proof/Laws/Instr.lean ====
section
/-! SUPPORT. An instruction that the core can take and that meets no exception: the state after it. -/

namespace Sys2Proof.Laws

open Sys2Proof Sys2Proof.Machine

variable {s t : State}

/-- An instruction that is legal, ends before cycle BUDGET and meets no exception gives its body's state, one step on. -/
theorem instr_ready {u c k : Nat} {body : State → Res} {x : State} (h : Ready s u c k)
    (hb : body (s.spend u (cycles s.dev.grade c k)) = (x, none)) : s.instr u true c k body = (x.modCore u seqPc).feed u (s.core u) := by
  obtain ⟨h1, h2, h3⟩ := h
  have h4 : ¬ (s.core u).budget < (s.core u).cyc + cycles s.dev.grade c k := by omega
  have h5 : ¬ (s.core u).cyc + cycles s.dev.grade c k = (s.core u).budget := by omega
  have h6 : min (cycles s.dev.grade c k) ((s.core u).budget - (s.core u).cyc) = cycles s.dev.grade c k := by omega
  simp only [State.instr, h1, h2, Bool.true_and, if_true, Bool.not_true, if_false, h4, h5, h6, hb]
  rfl

/-- An illegal form is the illegal opcode. -/
theorem instr_illegal {u c k c' k' : Nat} {body body' : State → Res} {legal : Bool} (h : legal = false) :
    s.instr u legal c k body = s.instr u false c' k' body' := by subst h; rfl

@[simp] theorem readP_spend (u v n r : Nat) : (s.spend u n).readP v r = s.readP v r := by
  unfold State.readP State.spend
  rw [core_modPair, core_modCore]
  split
  · rfl
  · split
    · rename_i e; subst e; rfl
    · rfl

@[simp] theorem creg_spend (u v n r : Nat) : (s.spend u n).creg v r = s.creg v r := by
  unfold State.creg State.spend
  rw [core_modPair, core_modCore]
  split
  · rename_i e; subst e; rfl
  · rfl

/-- A core whose cycles are counted (R92). -/
def spent (s : State) (u n : Nat) : CoreSt := { s.core u with cyc := (s.core u).cyc + n }

@[simp] theorem core_spend (u v n : Nat) : (s.spend u n).core v = if v = u then spent s u n else s.core v := by
  unfold State.spend; simp only [core_modPair, core_modCore]; rfl

/-- A core whose compared outputs since `a` are folded into the signatures, in loose mode (R164). -/
def fed (s : State) (u : Nat) (a c : CoreSt) : CoreSt :=
  { c with
    misr := if s.cmode (pairOf u) = 1 then misrStep c.misr (Config.compared (comparedOuts a c)) else c.misr
    misrChk := if s.cmode (pairOf u) = 1 then misrStep c.misrChk (Config.compared (comparedOuts a c)) else c.misrChk }

@[simp] theorem core_feed (u v : Nat) (a : CoreSt) : (s.feed u a).core v = if v = u then fed s u a (s.core u) else s.core v := by
  unfold State.feed fed
  split
  · simp only [core_modCore]
  · split
    · rename_i e; subst e; rfl
    · rfl

@[simp] theorem pair_feed (u n : Nat) (a : CoreSt) : (s.feed u a).pair n = s.pair n := by
  unfold State.feed; split <;> rfl

theorem feed_eng (u : Nat) (a : CoreSt) : { (s.feed u a).eng with cores := s.eng.cores } = s.eng := by
  unfold State.feed; split <;> rfl

theorem seqPc_slot (c : CoreSt) : seqPc c = { c with pc := (seqPc c).pc, ctx := { c.ctx with flags := (seqPc c).ctx.flags } } := by
  unfold seqPc; repeat' first | rfl | split

theorem seqPc_fixed (c : CoreSt) : (seqPc c).fixed = c.fixed := by unfold seqPc; repeat' first | rfl | split

theorem seqPc_cyc (c : CoreSt) : (seqPc c).cyc = c.cyc := by unfold seqPc; repeat' first | rfl | split

theorem seqPc_misr (c : CoreSt) : (seqPc c).misr = c.misr ∧ (seqPc c).misrChk = c.misrChk := by
  unfold seqPc; repeat' first | exact ⟨rfl, rfl⟩ | split

theorem comparedOuts_fed (u : Nat) (a b c : CoreSt) : comparedOuts a (fed s u b c) = comparedOuts a c := rfl

/-- A change of core `u` alone after the cycles are spent, one step on: what `Went` asks. -/
theorem went_of {u c k : Nat} {f : CoreSt → CoreSt} (hf : ∀ a, (f a).fixed = a.fixed)
    (hc : ∀ a, (f a).cyc = a.cyc ∧ (f a).misr = a.misr ∧ (f a).misrChk = a.misrChk) :
    Went s ((((s.spend u (cycles s.dev.grade c k)).modCore u f).modCore u seqPc).feed u (s.core u)) u c k := by
  have hp (a : CoreSt) : (f a).part = a.part := by have e := congrArg CoreSt.part (hf a); exact e
  have hm (a : CoreSt) : (seqPc (f a)).misr = a.misr ∧ (seqPc (f a)).misrChk = a.misrChk :=
    ⟨(seqPc_misr _).1.trans (hc a).2.1, (seqPc_misr _).2.trans (hc a).2.2⟩
  refine ⟨?_, ?_, ?_, ?_, ?_, ?_, ?_⟩
  · refine Keeps.feed (Keeps.modCore (Keeps.modCore ?_ (fun a => .inl (hp a)) rfl) seqPc_part rfl) rfl
    exact Keeps.spend Keeps.rfl' rfl
  · intro v hv; simp [core_modCore, hv]
  · intro n
    simp only [pair_feed, pair_modCore, State.spend, pair_modPair, id_eq]
    split
    · rename_i e; subst e; rfl
    · rfl
  · unfold State.feed; split <;> rfl
  · rw [core_feed, if_pos rfl, core_modCore_same, core_modCore_same, core_spend, if_pos rfl]
    exact (seqPc_fixed _).trans (hf _)
  · rw [core_feed, if_pos rfl, core_modCore_same, core_modCore_same, core_spend, if_pos rfl]
    exact (seqPc_cyc _).trans (hc _).1
  · rw [core_feed, if_pos rfl, core_modCore_same, core_modCore_same, core_spend, if_pos rfl, comparedOuts_fed]
    have h := hm (spent s u (cycles s.dev.grade c k))
    constructor
    · show (if s.cmode (pairOf u) = 1 then misrStep (seqPc (f _)).misr _ else (seqPc (f _)).misr) = _
      rw [h.1]; rfl
    · show (if s.cmode (pairOf u) = 1 then misrStep (seqPc (f _)).misrChk _ else (seqPc (f _)).misrChk) = _
      rw [h.2]; rfl

/-- The same change of core `u`, where it leaves program counter, FLAGS and loop alone: what `GoesOn` asks. -/
theorem goesOn_of {u n : Nat} {f : CoreSt → CoreSt}
    (hf : ∀ a, (f a).pc = a.pc ∧ (f a).ctx.flags = a.ctx.flags ∧ (f a).loopLo = a.loopLo ∧ (f a).loopHi = a.loopHi) :
    GoesOn s ((((s.spend u n).modCore u f).modCore u seqPc).feed u (s.core u)) u := by
  have h := hf (spent s u n)
  obtain ⟨h1, h2, h3, h4⟩ := h
  unfold GoesOn
  simp only [core_feed, fed, core_modCore_same, core_spend, if_true]
  generalize hz : f (spent s u n) = z at *
  simp only [spent] at h1 h2 h3 h4
  unfold seqPc
  rw [h1, h2, h4]
  by_cases hc : flagInLoop (s.core u).ctx.flags = true ∧ (s.core u).pc = (s.core u).loopHi
  · have : (flagInLoop (s.core u).ctx.flags && decide ((s.core u).pc = (s.core u).loopHi)) = true := by simp [hc]
    rw [if_pos this]
    by_cases h5 : 1 < flagIter (s.core u).ctx.flags
    · simp [h5, h3, hc]
    · simp [h5, h3, hc]
  · have : ¬ (flagInLoop (s.core u).ctx.flags && decide ((s.core u).pc = (s.core u).loopHi)) = true := by simpa using hc
    rw [if_neg this, if_neg hc]
    simp [h2, h3]

end Sys2Proof.Laws
end

