-- ==== Sys2Proof/Laws/KeepsAccess.lean ====
section
/-! SUPPORT. Which groups of the state the operations of Access, Faults, Events, Timers, Debug, SelfTest, Session change. -/

namespace Sys2Proof.Laws

open Sys2Proof Sys2Proof.Machine

variable {G : Group → Bool} {s t : State}

theorem Keeps.denyNote {m : Master} {a : Nat} (h : Keeps G s t)  (w_regs : G .regs = true) :
    Keeps G s (State.denyNote t m a) := by
  unfold State.denyNote
  repeat' first | (with_reducible assumption) | intro _ | with_reducible first | apply Keeps.wrN | (with_reducible apply Keeps.ite) | split

theorem Keeps.denied {m : Master} {a : Nat} (h : Keeps G s t)  (w_regs : G .regs = true) (w_flt : G .flt = true) :
    Keeps G s (State.denied t m a) := by
  unfold State.denied
  repeat' first | (with_reducible assumption) | intro _ | with_reducible first | apply Keeps.denyNote | apply Keeps.raise0 | (with_reducible apply Keeps.ite) | split

theorem Keeps.expertDenied {m : Master} {a : Nat} (h : Keeps G s t)  (w_regs : G .regs = true) (w_flt : G .flt = true) :
    Keeps G s (State.expertDenied t m a) := by
  unfold State.expertDenied
  repeat' first | (with_reducible assumption) | intro _ | with_reducible first | apply Keeps.denyNote | apply Keeps.raise0 | (with_reducible apply Keeps.ite) | split

theorem Keeps.modMaster {m : Master} {f : MasterSt → MasterSt} (h : Keeps G s t)  (w_host : G .host = true) :
    Keeps G s (State.modMaster t m f) := by
  unfold State.modMaster
  repeat' first | (with_reducible assumption) | intro _ | with_reducible first | apply Keeps.modHost | (with_reducible apply Keeps.ite) | split

theorem Keeps.noteWrite {m : Master} {a : Nat} (h : Keeps G s t)  (w_regs : G .regs = true) (w_host : G .host = true) (w_cfg : G .cfg = true) :
    Keeps G s (State.noteWrite t m a) := by
  unfold State.noteWrite
  try lift_lets
  repeat' first | (with_reducible assumption) | intro _ | with_reducible first | apply Keeps.modMaster | apply Keeps.wakePage | apply Keeps.modSess | (with_reducible apply Keeps.ite) | split | (dsimp +zetaDelta only)

theorem Keeps.cmdWrite {m : Master} {a : Nat} {role : State → Bool} {f : State → State} (h : Keeps G s t) (hf_f : ∀ x0, Keeps G s x0 → Keeps G s (f x0)) (w_regs : G .regs = true) (w_host : G .host = true) (w_flt : G .flt = true) (w_cfg : G .cfg = true) :
    Keeps G s (State.cmdWrite t m a role f) := by
  unfold State.cmdWrite
  try lift_lets
  repeat' first | (with_reducible assumption) | intro _ | (with_reducible apply hf_f) | with_reducible first | apply Keeps.noteWrite | apply Keeps.denied | (with_reducible apply Keeps.ite) | split | (dsimp +zetaDelta only)

theorem Keeps.regCmd {m : Master} {a : Nat} {f : State → State} (h : Keeps G s t) (hf_f : ∀ x0, Keeps G s x0 → Keeps G s (f x0)) (w_regs : G .regs = true) (w_host : G .host = true) (w_flt : G .flt = true) (w_cfg : G .cfg = true) :
    Keeps G s (State.regCmd t m a f) := by
  unfold State.regCmd
  repeat' first | (with_reducible assumption) | intro _ | (with_reducible apply hf_f) | with_reducible first | apply Keeps.cmdWrite | (with_reducible apply Keeps.ite) | split

theorem Keeps.expertCmd {m : Master} {a : Nat} {role : State → Bool} {f : State → State} (h : Keeps G s t) (hf_f : ∀ x0, Keeps G s x0 → Keeps G s (f x0)) (w_regs : G .regs = true) (w_host : G .host = true) (w_flt : G .flt = true) (w_cfg : G .cfg = true) :
    Keeps G s (State.expertCmd t m a role f) := by
  unfold State.expertCmd
  try lift_lets
  repeat' first | (with_reducible assumption) | intro _ | (with_reducible apply hf_f) | with_reducible first | apply Keeps.expertDenied | apply Keeps.noteWrite | apply Keeps.denied | (with_reducible apply Keeps.ite) | split | (dsimp +zetaDelta only)

theorem Keeps.freeWrite {m : Master} {a : Nat} {f : State → State} (h : Keeps G s t) (hf_f : ∀ x0, Keeps G s x0 → Keeps G s (f x0)) (w_regs : G .regs = true) (w_host : G .host = true) (w_cfg : G .cfg = true) :
    Keeps G s (State.freeWrite t m a f) := by
  unfold State.freeWrite
  repeat' first | (with_reducible assumption) | intro _ | (with_reducible apply hf_f) | with_reducible first | apply Keeps.noteWrite | (with_reducible apply Keeps.ite) | split

theorem Keeps.showPriv {m : Master} (h : Keeps G s t)  (w_regs : G .regs = true) :
    Keeps G s (State.showPriv t m) := by
  unfold State.showPriv
  try lift_lets
  repeat' first | (with_reducible assumption) | intro _ | with_reducible first | apply Keeps.wrN | (with_reducible apply Keeps.ite) | refine Keeps.of_fst (by with_reducible assumption) ?_ | split | (dsimp +zetaDelta only)

theorem Keeps.endSession {m : Master} (h : Keeps G s t)  (w_regs : G .regs = true) (w_cfg : G .cfg = true) :
    Keeps G s (State.endSession t m) := by
  unfold State.endSession
  try lift_lets
  repeat' first | (with_reducible assumption) | intro _ | with_reducible first | apply Keeps.showPriv | apply Keeps.modSess | apply Keeps.setBit | apply Keeps.each | (with_reducible apply Keeps.ite) | split | (dsimp +zetaDelta only)

theorem Keeps.endSessions  (h : Keeps G s t)  (w_regs : G .regs = true) (w_cfg : G .cfg = true) :
    Keeps G s (State.endSessions t) := by
  unfold State.endSessions
  repeat' first | (with_reducible assumption) | intro _ | with_reducible first | apply Keeps.endSession | (with_reducible apply Keeps.ite) | split

theorem Keeps.setAlm {k : Nat} {a : AlarmPair} (h : Keeps G s t)  (w_regs : G .regs = true) (w_flt : G .flt = true) :
    Keeps G s (State.setAlm t k a) := by
  unfold State.setAlm
  try lift_lets
  repeat' first | (with_reducible assumption) | intro _ | with_reducible first | apply Keeps.setBit | apply Keeps.evRaw | apply Keeps.modFlt | (with_reducible apply Keeps.ite) | split | (dsimp +zetaDelta only)

theorem Keeps.alarmPair {k : Nat} (h : Keeps G s t)  (w_dev : G .dev = true) (w_regs : G .regs = true) (w_mem : G .mem = true) (w_host : G .host = true) (w_eng : G .eng = true) (w_flt : G .flt = true) (w_log : G .log = true) (w_mer : G .mer = true) (w_fab : G .fab = true) (w_net : G .net = true) :
    Keeps G s (State.alarmPair t k) := by
  unfold State.alarmPair
  repeat' first | (with_reducible assumption) | intro _ | with_reducible first | apply Keeps.safeState | apply Keeps.setAlm | (with_reducible apply Keeps.ite) | split

theorem Keeps.almBegins {k : Nat} {addr : Nat} (h : Keeps G s t)  (w_regs : G .regs = true) (w_flt : G .flt = true) :
    Keeps G s (State.almBegins t k addr) := by
  unfold State.almBegins
  repeat' first | (with_reducible assumption) | intro _ | with_reducible first | apply Keeps.raise | apply Keeps.when | (with_reducible apply Keeps.ite) | split

theorem Keeps.critical {k : Nat} {addr : Nat} (h : Keeps G s t)  (w_dev : G .dev = true) (w_regs : G .regs = true) (w_mem : G .mem = true) (w_host : G .host = true) (w_eng : G .eng = true) (w_flt : G .flt = true) (w_log : G .log = true) (w_mer : G .mer = true) (w_fab : G .fab = true) (w_net : G .net = true) :
    Keeps G s (State.critical t k addr) := by
  unfold State.critical
  repeat' first | (with_reducible assumption) | intro _ | with_reducible first | apply Keeps.alarmPair | apply Keeps.almBegins | apply Keeps.when | (with_reducible apply Keeps.ite) | split

theorem Keeps.degrade {n : Nat} (h : Keeps G s t)  (w_dev : G .dev = true) (w_regs : G .regs = true) (w_mem : G .mem = true) (w_host : G .host = true) (w_eng : G .eng = true) (w_flt : G .flt = true) (w_log : G .log = true) (w_mer : G .mer = true) (w_fab : G .fab = true) (w_net : G .net = true) :
    Keeps G s (State.degrade t n) := by
  unfold State.degrade
  try lift_lets
  repeat' first | (with_reducible assumption) | intro _ | with_reducible first | apply Keeps.enterHarebell | apply Keeps.modPair | apply Keeps.modFlt | (with_reducible apply Keeps.ite) | refine Keeps.of_fst (by with_reducible assumption) ?_ | split | (dsimp +zetaDelta only)

theorem Keeps.tripAct {n : Nat} {addr : Nat} {v : BitVec 64} (h : Keeps G s t)  (w_regs : G .regs = true) (w_mem : G .mem = true) (w_host : G .host = true) (w_eng : G .eng = true) (w_flt : G .flt = true) (w_log : G .log = true) (w_mer : G .mer = true) (w_fab : G .fab = true) (w_net : G .net = true) :
    Keeps G s (State.tripAct t n addr v) := by
  unfold State.tripAct
  try lift_lets
  repeat' first | (with_reducible assumption) | intro _ | with_reducible first | apply Keeps.trapReaction | apply Keeps.each | apply Keeps.wrN | (with_reducible apply Keeps.ite) | split | (dsimp +zetaDelta only)

theorem Keeps.classAct {n : Nat} {addr : Nat} {v : BitVec 64} {c : Nat} (h : Keeps G s t)  (w_dev : G .dev = true) (w_regs : G .regs = true) (w_mem : G .mem = true) (w_host : G .host = true) (w_eng : G .eng = true) (w_flt : G .flt = true) (w_log : G .log = true) (w_mer : G .mer = true) (w_fab : G .fab = true) (w_net : G .net = true) :
    Keeps G s (State.classAct t n addr v c) := by
  unfold State.classAct
  try lift_lets
  repeat' first | (with_reducible assumption) | intro _ | with_reducible first | apply Keeps.safeState | apply Keeps.tripAct | apply Keeps.degrade | apply Keeps.bump | (with_reducible apply Keeps.ite) | refine Keeps.of_fst (by with_reducible assumption) ?_ | split | (dsimp +zetaDelta only)

theorem Keeps.fltEvent {n : Nat} {addr : Nat} {t0 : Nat} (h : Keeps G s t)  (w_dev : G .dev = true) (w_regs : G .regs = true) (w_mem : G .mem = true) (w_host : G .host = true) (w_eng : G .eng = true) (w_flt : G .flt = true) (w_log : G .log = true) (w_mer : G .mer = true) (w_fab : G .fab = true) (w_net : G .net = true) :
    Keeps G s (State.fltEvent t n addr t0) := by
  unfold State.fltEvent
  try lift_lets
  repeat' first | (with_reducible assumption) | intro _ | with_reducible first | apply Keeps.classAct | apply Keeps.modFlt | (with_reducible apply Keeps.ite) | split | (dsimp +zetaDelta only)

theorem Keeps.fltAccept {n : Nat} {lat : Nat} (h : Keeps G s t)  (w_dev : G .dev = true) (w_regs : G .regs = true) (w_mem : G .mem = true) (w_host : G .host = true) (w_eng : G .eng = true) (w_flt : G .flt = true) (w_log : G .log = true) (w_mer : G .mer = true) (w_fab : G .fab = true) (w_net : G .net = true) :
    Keeps G s (State.fltAccept t n lat) := by
  unfold State.fltAccept
  try lift_lets
  repeat' first | (with_reducible assumption) | intro _ | with_reducible first | apply Keeps.fltEvent | apply Keeps.logFlush | apply Keeps.pendSet | apply Keeps.setBit | apply Keeps.logAdd | apply Keeps.setFld | apply Keeps.bump64 | apply Keeps.each | apply Keeps.modFlt | (with_reducible apply Keeps.ite) | split | (dsimp +zetaDelta only)

theorem Keeps.cntClear {n : Nat} (h : Keeps G s t)  (w_flt : G .flt = true) :
    Keeps G s (State.cntClear t n) := by
  unfold State.cntClear
  repeat' first | (with_reducible assumption) | intro _ | with_reducible first | apply Keeps.modFlt | (with_reducible apply Keeps.ite) | split

theorem Keeps.cntNote {n : Nat} (h : Keeps G s t)  (w_regs : G .regs = true) (w_mem : G .mem = true) (w_host : G .host = true) (w_flt : G .flt = true) (w_log : G .log = true) :
    Keeps G s (State.cntNote t n) := by
  unfold State.cntNote
  repeat' first | (with_reducible assumption) | intro _ | with_reducible first | apply Keeps.logAdd | (with_reducible apply Keeps.ite) | split

theorem Keeps.cntCmd {v : Word} (h : Keeps G s t)  (w_regs : G .regs = true) (w_mem : G .mem = true) (w_host : G .host = true) (w_flt : G .flt = true) (w_log : G .log = true) :
    Keeps G s (State.cntCmd t v) := by
  unfold State.cntCmd
  try lift_lets
  repeat' first | (with_reducible assumption) | intro _ | with_reducible first | apply Keeps.cntClear | apply Keeps.cntNote | apply Keeps.each | (with_reducible apply Keeps.ite) | split | (dsimp +zetaDelta only)

theorem Keeps.setPol {n : Nat} {v : BitVec 64} (h : Keeps G s t)  (w_flt : G .flt = true) :
    Keeps G s (State.setPol t n v) := by
  unfold State.setPol
  repeat' first | (with_reducible assumption) | intro _ | with_reducible first | apply Keeps.modFlt | (with_reducible apply Keeps.ite) | split

theorem Keeps.polWrite {m : Master} {hi : Bool} {v : Word} (h : Keeps G s t)  (w_regs : G .regs = true) (w_flt : G .flt = true) :
    Keeps G s (State.polWrite t m hi v) := by
  unfold State.polWrite
  try lift_lets
  repeat' first | (with_reducible assumption) | intro _ | with_reducible first | apply Keeps.denied | apply Keeps.setPol | apply Keeps.wr | (with_reducible apply Keeps.ite) | split | (dsimp +zetaDelta only)

theorem Keeps.modInj {pg : Nat} {f : Inj → Inj} (h : Keeps G s t)  (w_flt : G .flt = true) :
    Keeps G s (State.modInj t pg f) := by
  unfold State.modInj
  repeat' first | (with_reducible assumption) | intro _ | with_reducible first | apply Keeps.modFlt | (with_reducible apply Keeps.ite) | split

theorem Keeps.injKey {m : Master} {pg : Nat} {v : Word} (h : Keeps G s t)  (w_flt : G .flt = true) :
    Keeps G s (State.injKey t m pg v) := by
  unfold State.injKey
  repeat' first | (with_reducible assumption) | intro _ | with_reducible first | apply Keeps.modInj | (with_reducible apply Keeps.ite) | split

theorem Keeps.hostRp {v : Word} (h : Keeps G s t)  (w_regs : G .regs = true) (w_mem : G .mem = true) (w_host : G .host = true) (w_flt : G .flt = true) (w_log : G .log = true) :
    Keeps G s (State.hostRp t v) := by
  unfold State.hostRp
  repeat' first | (with_reducible assumption) | intro _ | with_reducible first | apply Keeps.logTidy | apply Keeps.setFld | apply Keeps.wr | (with_reducible apply Keeps.ite) | split

theorem Keeps.spillOne {slot : Nat} {out : List Byte → List Byte} (h : Keeps G s t)  (w_regs : G .regs = true) (w_mem : G .mem = true) (w_host : G .host = true) (w_flt : G .flt = true) (w_log : G .log = true) :
    Keeps G s (State.spillOne t slot out) := by
  unfold State.spillOne
  try lift_lets
  repeat' first | (with_reducible assumption) | (intro hw; simp only [mems_wf_iff] at hw; obtain ⟨w1, w2, w3, w4, w5, w6, w7, w8⟩ := hw; simp [mems_wf_iff, mem_wf_write, *]; done) | intro _ | with_reducible first | apply Keeps.logEvent | apply Keeps.flRead | apply Keeps.bump64 | apply Keeps.when | apply Keeps.wrN | apply Keeps.modMem | (with_reducible apply Keeps.ite) | split | (dsimp +zetaDelta only)

theorem Keeps.flRead {v : Word} (h : Keeps G s t)  (w_regs : G .regs = true) (w_log : G .log = true) :
    Keeps G s (State.flRead t v) := by
  unfold State.flRead
  try lift_lets
  repeat' first | (with_reducible assumption) | intro _ | with_reducible first | apply Keeps.each | apply Keeps.wrN | apply Keeps.wr | apply Keeps.modLog | (with_reducible apply Keeps.ite) | split | (dsimp +zetaDelta only)

theorem Keeps.vecServe {v : Nat} (h : Keeps G s t)  (w_regs : G .regs = true) (w_host : G .host = true) :
    Keeps G s (State.vecServe t v) := by
  unfold State.vecServe
  repeat' first | (with_reducible assumption) | intro _ | with_reducible first | apply Keeps.sendVec | (with_reducible apply Keeps.ite) | split

theorem Keeps.vecAck {v : Nat} (h : Keeps G s t)  (w_regs : G .regs = true) (w_host : G .host = true) :
    Keeps G s (State.vecAck t v) := by
  unfold State.vecAck
  repeat' first | (with_reducible assumption) | intro _ | with_reducible first | apply Keeps.setInService | apply Keeps.vecServe | (with_reducible apply Keeps.ite) | split

theorem Keeps.routeWrite {v : Word} (h : Keeps G s t)  (w_regs : G .regs = true) (w_host : G .host = true) (w_evt : G .evt = true) :
    Keeps G s (State.routeWrite t v) := by
  unfold State.routeWrite
  try lift_lets
  repeat' first | (with_reducible assumption) | intro _ | with_reducible first | apply Keeps.vecServe | apply Keeps.when | apply Keeps.wr | apply Keeps.modEvt | (with_reducible apply Keeps.ite) | split | (dsimp +zetaDelta only)

theorem Keeps.vecFlush {v : Nat} (h : Keeps G s t)  (w_regs : G .regs = true) (w_host : G .host = true) :
    Keeps G s (State.vecFlush t v) := by
  unfold State.vecFlush
  repeat' first | (with_reducible assumption) | intro _ | with_reducible first | apply Keeps.sendVec | apply Keeps.modHost | (with_reducible apply Keeps.ite) | split

theorem Keeps.vecMask {v : Nat} {b : Bool} (h : Keeps G s t)  (w_regs : G .regs = true) (w_host : G .host = true) :
    Keeps G s (State.vecMask t v b) := by
  unfold State.vecMask
  repeat' first | (with_reducible assumption) | intro _ | with_reducible first | apply Keeps.vecFlush | apply Keeps.modHost | (with_reducible apply Keeps.ite) | split

theorem Keeps.bar4Write {off : Nat} {x : Word} (h : Keeps G s t)  (w_regs : G .regs = true) (w_host : G .host = true) :
    Keeps G s (State.bar4Write t off x) := by
  unfold State.bar4Write
  try lift_lets
  repeat' first | (with_reducible assumption) | intro _ | with_reducible first | apply Keeps.vecMask | apply Keeps.modHost | (with_reducible apply Keeps.ite) | refine Keeps.of_fst (by with_reducible assumption) ?_ | split | (dsimp +zetaDelta only)

theorem Keeps.w1c {a : Nat} {v : Word} {hw : Word} (h : Keeps G s t)  (w_regs : G .regs = true) :
    Keeps G s (State.w1c t a v hw) := by
  unfold State.w1c
  try lift_lets
  repeat' first | (with_reducible assumption) | intro _ | with_reducible first | apply Keeps.wr | (with_reducible apply Keeps.ite) | refine Keeps.of_fst (by with_reducible assumption) ?_ | split | (dsimp +zetaDelta only)

theorem Keeps.pendClear {k : Nat} {v : Word} {hw : Word} (h : Keeps G s t)  (w_regs : G .regs = true) (w_host : G .host = true) :
    Keeps G s (State.pendClear t k v hw) := by
  unfold State.pendClear
  try lift_lets
  repeat' first | (with_reducible assumption) | intro _ | with_reducible first | apply Keeps.sendVec | apply Keeps.each | apply Keeps.w1c | (with_reducible apply Keeps.ite) | split | (dsimp +zetaDelta only)

theorem Keeps.tHold {t0 : Nat} {r : TimRun} (h : Keeps G s t)  (w_tim : G .tim = true) :
    Keeps G s (State.tHold t t0 r) := by
  unfold State.tHold
  try lift_lets
  repeat' first | (with_reducible assumption) | intro _ | with_reducible first | apply Keeps.modTimer | (with_reducible apply Keeps.ite) | split | (dsimp +zetaDelta only)

theorem Keeps.tArmAt {t0 : Nat} {at_ : Nat} (h : Keeps G s t)  (w_regs : G .regs = true) (w_tim : G .tim = true) :
    Keeps G s (State.tArmAt t t0 at_) := by
  unfold State.tArmAt
  try lift_lets
  repeat' first | (with_reducible assumption) | intro _ | with_reducible first | apply Keeps.modTimer | apply Keeps.setBit | (with_reducible apply Keeps.ite) | split | (dsimp +zetaDelta only)

theorem Keeps.tArm {t0 : Nat} (h : Keeps G s t)  (w_regs : G .regs = true) (w_tim : G .tim = true) :
    Keeps G s (State.tArm t t0) := by
  unfold State.tArm
  repeat' first | (with_reducible assumption) | intro _ | with_reducible first | apply Keeps.tArmAt | (with_reducible apply Keeps.ite) | split

theorem Keeps.tAutostart  (h : Keeps G s t)  (w_regs : G .regs = true) (w_tim : G .tim = true) :
    Keeps G s (State.tAutostart t) := by
  unfold State.tAutostart
  repeat' first | (with_reducible assumption) | intro _ | with_reducible first | apply Keeps.each | apply Keeps.tArm | (with_reducible apply Keeps.ite) | split

theorem Keeps.tCapture {t0 : Nat} (h : Keeps G s t)  (w_regs : G .regs = true) (w_flt : G .flt = true) (w_tim : G .tim = true) :
    Keeps G s (State.tCapture t t0) := by
  unfold State.tCapture
  try lift_lets
  repeat' first | (with_reducible assumption) | intro _ | with_reducible first | apply Keeps.modTimer | apply Keeps.setBit | apply Keeps.raise | (with_reducible apply Keeps.ite) | split | (dsimp +zetaDelta only)

theorem Keeps.tCaptures {src : Nat} {sel : Option Nat} (h : Keeps G s t)  (w_regs : G .regs = true) (w_flt : G .flt = true) (w_tim : G .tim = true) :
    Keeps G s (State.tCaptures t src sel) := by
  unfold State.tCaptures
  repeat' first | (with_reducible assumption) | intro _ | with_reducible first | apply Keeps.tCapture | apply Keeps.each | (with_reducible apply Keeps.ite) | refine Keeps.of_fst (by with_reducible assumption) ?_ | split

theorem Keeps.tEdge {ch : Nat} {rising : Bool} (h : Keeps G s t)  (w_regs : G .regs = true) (w_flt : G .flt = true) (w_tim : G .tim = true) :
    Keeps G s (State.tEdge t ch rising) := by
  unfold State.tEdge
  repeat' first | (with_reducible assumption) | intro _ | with_reducible first | apply Keeps.tCaptures | (with_reducible apply Keeps.ite) | split

theorem Keeps.tTrigger {t0 : Nat} (h : Keeps G s t)  (w_tim : G .tim = true) :
    Keeps G s (State.tTrigger t t0) := by
  unfold State.tTrigger
  repeat' first | (with_reducible assumption) | intro _ | with_reducible first | apply Keeps.modTimer | (with_reducible apply Keeps.ite) | split

theorem Keeps.tStartTrig {t0 : Nat} {bit : Nat} (h : Keeps G s t)  (w_regs : G .regs = true) (w_tim : G .tim = true) :
    Keeps G s (State.tStartTrig t t0 bit) := by
  unfold State.tStartTrig
  repeat' first | (with_reducible assumption) | intro _ | with_reducible first | apply Keeps.tArmAt | (with_reducible apply Keeps.ite) | split

theorem Keeps.tFire {k : Nat} {e : TimEv} {b : Bool} (h : Keeps G s t) (w_regs : G .regs = true) (w_mem : G .mem = true)
    (w_host : G .host = true) (w_flt : G .flt = true) (w_log : G .log = true) (w_tim : G .tim = true) :
    Keeps G s (State.tFire k e b t) := by
  induction k generalizing e b t with
  | zero => exact h
  | succ k ih =>
    cases e <;> unfold State.tFire <;> lift_lets
    all_goals repeat' first | (with_reducible assumption) | intro _ | with_reducible first | apply ih | apply Keeps.tStartTrig | apply Keeps.tCaptures | apply Keeps.tTrigger | apply Keeps.modTimer | apply Keeps.opEvent | apply Keeps.setBit | apply Keeps.bump | (with_reducible apply Keeps.ite) | split | (dsimp +zetaDelta only)

theorem Keeps.tMatch {t0 : Nat} (h : Keeps G s t)  (w_regs : G .regs = true) (w_mem : G .mem = true) (w_host : G .host = true) (w_flt : G .flt = true) (w_log : G .log = true) (w_mer : G .mer = true) (w_tim : G .tim = true) :
    Keeps G s (State.tMatch t t0) := by
  unfold State.tMatch
  try lift_lets
  repeat' first | (with_reducible assumption) | intro _ | with_reducible first | apply Keeps.advanceTo | apply Keeps.modTimer | apply Keeps.tFire | (with_reducible apply Keeps.ite) | split | (dsimp +zetaDelta only)

theorem Keeps.tOverflow {t0 : Nat} (h : Keeps G s t)  (w_regs : G .regs = true) (w_mem : G .mem = true) (w_host : G .host = true) (w_flt : G .flt = true) (w_log : G .log = true) (w_mer : G .mer = true) (w_tim : G .tim = true) :
    Keeps G s (State.tOverflow t t0) := by
  unfold State.tOverflow
  try lift_lets
  repeat' first | (with_reducible assumption) | intro _ | with_reducible first | apply Keeps.advanceTo | apply Keeps.modTimer | apply Keeps.tMatch | apply Keeps.tFire | (with_reducible apply Keeps.ite) | split | (dsimp +zetaDelta only)

theorem Keeps.tCmd {m : Master} {t0 : Nat} {v : Word} (h : Keeps G s t)  (w_regs : G .regs = true) (w_host : G .host = true) (w_flt : G .flt = true) (w_mer : G .mer = true) (w_tim : G .tim = true) (w_fab : G .fab = true) (w_net : G .net = true) :
    Keeps G s (State.tCmd t m t0 v) := by
  unfold State.tCmd
  try lift_lets
  repeat' first | (with_reducible assumption) | intro _ | with_reducible first | apply Keeps.tCapture | apply Keeps.modTimer | apply Keeps.denied | apply Keeps.tHold | apply Keeps.tArm | (with_reducible apply Keeps.ite) | split | (dsimp +zetaDelta only)

theorem Keeps.tCntSet {m : Master} {t0 : Nat} {v : Word} (h : Keeps G s t)  (w_regs : G .regs = true) (w_mem : G .mem = true) (w_host : G .host = true) (w_flt : G .flt = true) (w_log : G .log = true) (w_tim : G .tim = true) :
    Keeps G s (State.tCntSet t m t0 v) := by
  unfold State.tCntSet
  try lift_lets
  repeat' first | (with_reducible assumption) | intro _ | with_reducible first | apply Keeps.modTimer | apply Keeps.setBit | apply Keeps.denied | apply Keeps.raise | apply Keeps.tFire | (with_reducible apply Keeps.ite) | split | (dsimp +zetaDelta only)

theorem Keeps.tFreeze {p : Nat} (h : Keeps G s t)  (w_tim : G .tim = true) :
    Keeps G s (State.tFreeze t p) := by
  unfold State.tFreeze
  repeat' first | (with_reducible assumption) | intro _ | with_reducible first | apply Keeps.tHold | apply Keeps.each | (with_reducible apply Keeps.ite) | split

theorem Keeps.tThaw {p : Nat} (h : Keeps G s t)  (w_regs : G .regs = true) (w_tim : G .tim = true) :
    Keeps G s (State.tThaw t p) := by
  unfold State.tThaw
  repeat' first | (with_reducible assumption) | intro _ | with_reducible first | apply Keeps.setBit | apply Keeps.tHold | apply Keeps.each | (with_reducible apply Keeps.ite) | split

theorem Keeps.tMakeup {t0 : Nat} {n : Nat} (h : Keeps G s t)  (w_regs : G .regs = true) (w_tim : G .tim = true) :
    Keeps G s (State.tMakeup t t0 n).1 := by
  unfold State.tMakeup
  try lift_lets
  repeat' first | (with_reducible assumption) | intro _ | with_reducible first | apply Keeps.modTimer | apply Keeps.setBit | (with_reducible apply Keeps.ite) | split | (dsimp +zetaDelta only)

theorem Keeps.tMakeupAll {m0 : Nat} {m1 : Nat} (h : Keeps G s t)  (w_regs : G .regs = true) (w_tim : G .tim = true) :
    Keeps G s (State.tMakeupAll t m0 m1) := by
  unfold State.tMakeupAll
  try lift_lets
  repeat' first | (with_reducible assumption) | intro _ | with_reducible first | apply Keeps.modTimer | apply Keeps.tMakeup | apply Keeps.foldl | apply Keeps.foldlFst | (with_reducible apply Keeps.ite) | split | (dsimp +zetaDelta only)

theorem Keeps.setSync {k : Nat} (h : Keeps G s t)  (w_regs : G .regs = true) (w_mer : G .mer = true) :
    Keeps G s (State.setSync t k) := by
  unfold State.setSync
  try lift_lets
  repeat' first | (with_reducible assumption) | intro _ | with_reducible first | apply Keeps.setFld | apply Keeps.when | apply Keeps.modMer | (with_reducible apply Keeps.ite) | split | (dsimp +zetaDelta only)

theorem Keeps.enterOperate  (h : Keeps G s t)  (w_dev : G .dev = true) (w_regs : G .regs = true) (w_mem : G .mem = true) (w_host : G .host = true) (w_eng : G .eng = true) (w_flt : G .flt = true) (w_log : G .log = true) (w_mer : G .mer = true) (w_tim : G .tim = true) (w_lcs : G .lcs = true) (w_fab : G .fab = true) (w_net : G .net = true) :
    Keeps G s (State.enterOperate t) := by
  unfold State.enterOperate
  try lift_lets
  repeat' first | (with_reducible assumption) | intro _ | with_reducible first | apply Keeps.enterHarebell | apply Keeps.tAutostart | apply Keeps.setMode | apply Keeps.modLcs | (with_reducible apply Keeps.ite) | split | (dsimp +zetaDelta only)

theorem Keeps.tryOperate  (h : Keeps G s t)  (w_dev : G .dev = true) (w_regs : G .regs = true) (w_mem : G .mem = true) (w_host : G .host = true) (w_eng : G .eng = true) (w_flt : G .flt = true) (w_log : G .log = true) (w_mer : G .mer = true) (w_tim : G .tim = true) (w_lcs : G .lcs = true) (w_fab : G .fab = true) (w_net : G .net = true) :
    Keeps G s (State.tryOperate t) := by
  unfold State.tryOperate
  repeat' first | (with_reducible assumption) | intro _ | with_reducible first | apply Keeps.enterOperate | (with_reducible apply Keeps.ite) | split

theorem Keeps.moveTimes {d : Int} (h : Keeps G s t)  (w_flt : G .flt = true) (w_cfg : G .cfg = true) (w_lcs : G .lcs = true) (w_vern : G .vern = true) (w_ngl : G .ngl = true) :
    Keeps G s (State.moveTimes t d) := by
  unfold State.moveTimes
  try lift_lets
  repeat' first | (with_reducible assumption) | intro _ | with_reducible first | apply Keeps.modSess | apply Keeps.modFlt | apply Keeps.modCfg | apply Keeps.modLcs | apply Keeps.modVern | apply Keeps.modNgl | apply Keeps.foldl | apply Keeps.foldlFst | (with_reducible apply Keeps.ite) | split | (dsimp +zetaDelta only)

theorem Keeps.merStep {d : Int} (h : Keeps G s t)  (w_regs : G .regs = true) (w_flt : G .flt = true) (w_cfg : G .cfg = true) (w_mer : G .mer = true) (w_tim : G .tim = true) (w_lcs : G .lcs = true) (w_vern : G .vern = true) (w_ngl : G .ngl = true) :
    Keeps G s (State.merStep t d) := by
  unfold State.merStep
  try lift_lets
  repeat' first | (with_reducible assumption) | intro _ | with_reducible first | apply Keeps.moveTimes | apply Keeps.modTimer | apply Keeps.setBit | apply Keeps.setNow | apply Keeps.raise0 | apply Keeps.tHold | apply Keeps.wr64 | apply Keeps.each | apply Keeps.modMer | (with_reducible apply Keeps.ite) | split | (dsimp +zetaDelta only)

theorem Keeps.setSlew {d : Int} (h : Keeps G s t)  (w_regs : G .regs = true) (w_flt : G .flt = true) (w_mer : G .mer = true) :
    Keeps G s (State.setSlew t d) := by
  unfold State.setSlew
  try lift_lets
  repeat' first | (with_reducible assumption) | intro _ | with_reducible first | apply Keeps.raise0 | apply Keeps.wrN | apply Keeps.modMer | (with_reducible apply Keeps.ite) | split | (dsimp +zetaDelta only)

theorem Keeps.merFirst {off : Int} (h : Keeps G s t)  (w_regs : G .regs = true) (w_flt : G .flt = true) (w_cfg : G .cfg = true) (w_mer : G .mer = true) (w_tim : G .tim = true) (w_lcs : G .lcs = true) (w_vern : G .vern = true) (w_ngl : G .ngl = true) :
    Keeps G s (State.merFirst t off) := by
  unfold State.merFirst
  repeat' first | (with_reducible assumption) | intro _ | with_reducible first | apply Keeps.merStep | apply Keeps.modMer | (with_reducible apply Keeps.ite) | split

theorem Keeps.merTrack {off : Int} {ok : Bool} (h : Keeps G s t)  (w_regs : G .regs = true) (w_flt : G .flt = true) (w_mer : G .mer = true) :
    Keeps G s (State.merTrack t off ok) := by
  unfold State.merTrack
  repeat' first | (with_reducible assumption) | intro _ | with_reducible first | apply Keeps.setSlew | apply Keeps.modMer | (with_reducible apply Keeps.ite) | split

theorem Keeps.merOffset {off : Int} (h : Keeps G s t)  (w_dev : G .dev = true) (w_regs : G .regs = true) (w_mem : G .mem = true) (w_host : G .host = true) (w_eng : G .eng = true) (w_flt : G .flt = true) (w_log : G .log = true) (w_cfg : G .cfg = true) (w_mer : G .mer = true) (w_tim : G .tim = true) (w_lcs : G .lcs = true) (w_fab : G .fab = true) (w_net : G .net = true) (w_vern : G .vern = true) (w_ngl : G .ngl = true) :
    Keeps G s (State.merOffset t off) := by
  unfold State.merOffset
  try lift_lets
  repeat' first | (with_reducible assumption) | intro _ | with_reducible first | apply Keeps.tryOperate | apply Keeps.merFirst | apply Keeps.merTrack | apply Keeps.setSlew | apply Keeps.setSync | apply Keeps.wrN | apply Keeps.modMer | (with_reducible apply Keeps.ite) | refine Keeps.of_fst (by with_reducible assumption) ?_ | split | (dsimp +zetaDelta only)

theorem Keeps.invId {id : Nat} (h : Keeps G s t)  (w_eng : G .eng = true) :
    Keeps G s (State.invId t id) := by
  unfold State.invId
  repeat' first | (with_reducible assumption) | intro _ | with_reducible first | apply Keeps.modPair | apply Keeps.each | apply Keeps.id' | (with_reducible apply Keeps.ite) | split

theorem Keeps.flushCaches  (h : Keeps G s t)  (w_eng : G .eng = true) :
    Keeps G s (State.flushCaches t) := by
  unfold State.flushCaches
  repeat' first | (with_reducible assumption) | intro _ | with_reducible first | apply Keeps.modPair | apply Keeps.each | (with_reducible apply Keeps.ite) | split

theorem Keeps.deResult {code : Nat} {gen : Nat} (h : Keeps G s t)  (w_regs : G .regs = true) :
    Keeps G s (State.deResult t code gen) := by
  unfold State.deResult
  repeat' first | (with_reducible assumption) | intro _ | with_reducible first | apply Keeps.wrN | (with_reducible apply Keeps.ite) | split

theorem Keeps.deWrite {m : Master} {inv : Bool} (h : Keeps G s t)  (w_regs : G .regs = true) (w_mem : G .mem = true) (w_flt : G .flt = true) (w_cfg : G .cfg = true) :
    Keeps G s (State.deWrite t m inv) := by
  unfold State.deWrite
  try lift_lets
  repeat' first | (with_reducible assumption) | intro _ | with_reducible first | apply Keeps.clogGuard | apply Keeps.deResult | apply Keeps.clogNote | apply Keeps.raise0 | apply Keeps.id' | (with_reducible apply Keeps.ite) | refine Keeps.of_fst (by with_reducible assumption) ?_ | split | (dsimp +zetaDelta only)

theorem Keeps.mapEdited {id : Nat} {d0 : Csw} {inv : Bool} (h : Keeps G s t)  (w_regs : G .regs = true) (w_mem : G .mem = true) (w_eng : G .eng = true) (w_flt : G .flt = true) :
    Keeps G s (State.mapEdited t id d0 inv) := by
  unfold State.mapEdited
  try lift_lets
  repeat' first | (with_reducible assumption) | intro _ | with_reducible first | apply Keeps.deResult | apply Keeps.bumpFld | apply Keeps.raise0 | apply Keeps.imgWr | apply Keeps.invId | apply Keeps.id' | (with_reducible apply Keeps.ite) | refine Keeps.of_fst (by with_reducible assumption) ?_ | split | (dsimp +zetaDelta only)

theorem Keeps.deRead  (h : Keeps G s t)  (w_regs : G .regs = true) :
    Keeps G s (State.deRead t) := by
  unfold State.deRead
  try lift_lets
  repeat' first | (with_reducible assumption) | intro _ | with_reducible first | apply Keeps.deResult | apply Keeps.wrN | apply Keeps.id' | (with_reducible apply Keeps.ite) | refine Keeps.of_fst (by with_reducible assumption) ?_ | split | (dsimp +zetaDelta only)

theorem Keeps.deCmd {m : Master} {v : Word} (h : Keeps G s t)  (w_regs : G .regs = true) (w_mem : G .mem = true) (w_flt : G .flt = true) (w_cfg : G .cfg = true) :
    Keeps G s (State.deCmd t m v) := by
  unfold State.deCmd
  repeat' first | (with_reducible assumption) | intro _ | with_reducible first | apply Keeps.deWrite | apply Keeps.deRead | apply Keeps.setFld | (with_reducible apply Keeps.ite) | refine Keeps.of_fst (by with_reducible assumption) ?_ | split

theorem Keeps.cqWrite {v : Word} (h : Keeps G s t)  (w_regs : G .regs = true) :
    Keeps G s (State.cqWrite t v) := by
  unfold State.cqWrite
  try lift_lets
  repeat' first | (with_reducible assumption) | intro _ | with_reducible first | apply Keeps.each | apply Keeps.wrN | apply Keeps.id' | (with_reducible apply Keeps.ite) | refine Keeps.of_fst (by with_reducible assumption) ?_ | split | (dsimp +zetaDelta only)

theorem Keeps.splitCtrl {n : Nat} {v : Word} (h : Keeps G s t)  (w_regs : G .regs = true) (w_eng : G .eng = true) (w_flt : G .flt = true) :
    Keeps G s (State.splitCtrl t n v) := by
  unfold State.splitCtrl
  try lift_lets
  repeat' first | (with_reducible assumption) | intro _ | with_reducible first | apply Keeps.modPair | apply Keeps.setBit | apply Keeps.raise | (with_reducible apply Keeps.ite) | split | (dsimp +zetaDelta only)

theorem Keeps.replayOver {n : Nat} (h : Keeps G s t)  (w_regs : G .regs = true) (w_eng : G .eng = true) (w_flt : G .flt = true) :
    Keeps G s (State.replayOver t n) := by
  unfold State.replayOver
  repeat' first | (with_reducible assumption) | intro _ | with_reducible first | apply Keeps.modPair | apply Keeps.setFld | apply Keeps.raise | (with_reducible apply Keeps.ite) | split

theorem Keeps.replayPush {n : Nat} {a : DbgAct} (h : Keeps G s t)  (w_regs : G .regs = true) (w_mem : G .mem = true) (w_eng : G .eng = true) (w_flt : G .flt = true) :
    Keeps G s (State.replayPush t n a) := by
  unfold State.replayPush
  try lift_lets
  repeat' first | (with_reducible assumption) | intro _ | with_reducible first | apply Keeps.replayOver | apply Keeps.modPair | apply Keeps.unpair | (with_reducible apply Keeps.ite) | split | (dsimp +zetaDelta only)

theorem Keeps.dbgEnable {m : Master} {n : Nat} (h : Keeps G s t)  (w_regs : G .regs = true) (w_mem : G .mem = true) (w_eng : G .eng = true) (w_flt : G .flt = true) (w_cfg : G .cfg = true) :
    Keeps G s (State.dbgEnable t m n) := by
  unfold State.dbgEnable
  try lift_lets
  repeat' first | (with_reducible assumption) | intro _ | with_reducible first | apply Keeps.writeProduced | apply Keeps.clogNote | apply Keeps.modPair | apply Keeps.setBit | apply Keeps.unpair | apply Keeps.setFld | apply Keeps.each | (with_reducible apply Keeps.ite) | split | (dsimp +zetaDelta only)

theorem Keeps.dbgResume {n : Nat} (h : Keeps G s t)  (w_regs : G .regs = true) (w_mem : G .mem = true) (w_eng : G .eng = true) (w_flt : G .flt = true) (w_tim : G .tim = true) :
    Keeps G s (State.dbgResume t n) := by
  unfold State.dbgResume
  repeat' first | (with_reducible assumption) | intro _ | with_reducible first | apply Keeps.replayPush | apply Keeps.setBit | apply Keeps.tThaw | (with_reducible apply Keeps.ite) | split

theorem Keeps.dbgHalt {n : Nat} {a : DbgAct} (h : Keeps G s t)  (w_regs : G .regs = true) (w_mem : G .mem = true) (w_eng : G .eng = true) (w_flt : G .flt = true) (w_tim : G .tim = true) :
    Keeps G s (State.dbgHalt t n a) := by
  unfold State.dbgHalt
  try lift_lets
  repeat' first | (with_reducible assumption) | intro _ | with_reducible first | apply Keeps.replayPush | apply Keeps.tFreeze | apply Keeps.setBit | apply Keeps.setFld | (with_reducible apply Keeps.ite) | split | (dsimp +zetaDelta only)

theorem Keeps.dbgDisable {n : Nat} (h : Keeps G s t)  (w_regs : G .regs = true) (w_mem : G .mem = true) (w_eng : G .eng = true) (w_flt : G .flt = true) (w_tim : G .tim = true) :
    Keeps G s (State.dbgDisable t n) := by
  unfold State.dbgDisable
  try lift_lets
  repeat' first | (with_reducible assumption) | intro _ | with_reducible first | apply Keeps.dbgResume | apply Keeps.modPair | apply Keeps.setBit | apply Keeps.setFld | (with_reducible apply Keeps.ite) | split | (dsimp +zetaDelta only)

theorem Keeps.dbgStep {n : Nat} (h : Keeps G s t)  (w_regs : G .regs = true) (w_mem : G .mem = true) (w_eng : G .eng = true) (w_flt : G .flt = true) :
    Keeps G s (State.dbgStep t n) := by
  unfold State.dbgStep
  repeat' first | (with_reducible assumption) | intro _ | with_reducible first | apply Keeps.replayPush | apply Keeps.modPair | (with_reducible apply Keeps.ite) | split

theorem Keeps.dbgSampled {n : Nat} {coll : Fin 4} {f : State → State} (h : Keeps G s t) (hf_f : ∀ x0, Keeps G s x0 → Keeps G s (f x0)) (w_regs : G .regs = true) (w_flt : G .flt = true) :
    Keeps G s (State.dbgSampled t n coll f) := by
  unfold State.dbgSampled
  repeat' first | (with_reducible assumption) | intro _ | (with_reducible apply hf_f) | with_reducible first | apply Keeps.collimate | (with_reducible apply Keeps.ite) | split

theorem Keeps.dbgRequests {n : Nat} {v : Word} (h : Keeps G s t)  (w_regs : G .regs = true) (w_mem : G .mem = true) (w_eng : G .eng = true) (w_flt : G .flt = true) (w_tim : G .tim = true) :
    Keeps G s (State.dbgRequests n v t) := by
  unfold State.dbgRequests
  try lift_lets
  repeat' first | (with_reducible assumption) | intro _ | with_reducible first | apply Keeps.dbgResume | apply Keeps.dbgHalt | apply Keeps.dbgStep | (with_reducible apply Keeps.ite) | split | (dsimp +zetaDelta only)

theorem Keeps.dbgCtrl {m : Master} {n : Nat} {v : Word} {coll : Fin 4} (h : Keeps G s t)  (w_regs : G .regs = true) (w_mem : G .mem = true) (w_eng : G .eng = true) (w_flt : G .flt = true) (w_cfg : G .cfg = true) (w_tim : G .tim = true) :
    Keeps G s (State.dbgCtrl t m n v coll) := by
  unfold State.dbgCtrl
  try lift_lets
  repeat' first | (with_reducible assumption) | intro _ | with_reducible first | apply Keeps.dbgRequests | apply Keeps.dbgSampled | apply Keeps.dbgDisable | apply Keeps.dbgEnable | (with_reducible apply Keeps.ite) | split | (dsimp +zetaDelta only)

theorem Keeps.dbgJ5 {n : Nat} {v : Word} {coll : Fin 4} (h : Keeps G s t)  (w_regs : G .regs = true) (w_mem : G .mem = true) (w_eng : G .eng = true) (w_flt : G .flt = true) (w_tim : G .tim = true) :
    Keeps G s (State.dbgJ5 t n v coll) := by
  unfold State.dbgJ5
  repeat' first | (with_reducible assumption) | intro _ | with_reducible first | apply Keeps.dbgRequests | apply Keeps.dbgSampled | (with_reducible apply Keeps.ite) | split

theorem Keeps.dbgCmd {m : Master} {n : Nat} {f : State → State} (h : Keeps G s t) (hf_f : ∀ x0, Keeps G s x0 → Keeps G s (f x0)) (w_regs : G .regs = true) (w_host : G .host = true) (w_flt : G .flt = true) (w_cfg : G .cfg = true) :
    Keeps G s (State.dbgCmd t m n f) := by
  unfold State.dbgCmd
  repeat' first | (with_reducible assumption) | intro _ | (with_reducible apply hf_f) | with_reducible first | apply Keeps.expertCmd | (with_reducible apply Keeps.ite) | split

theorem Keeps.dbgAsk {q : DbgAsk} {n : Nat} {v : Word} (h : Keeps G s t)  (w_regs : G .regs = true) (w_mem : G .mem = true) (w_host : G .host = true) (w_eng : G .eng = true) (w_flt : G .flt = true) (w_cfg : G .cfg = true) (w_tim : G .tim = true) :
    Keeps G s (State.dbgAsk t q n v) := by
  unfold State.dbgAsk
  repeat' first | (with_reducible assumption) | intro _ | with_reducible first | apply Keeps.dbgCtrl | apply Keeps.dbgCmd | apply Keeps.dbgJ5 | (with_reducible apply Keeps.ite) | split

theorem Keeps.dbgRegWrite {n : Nat} {v : Nat} {low : Bool} (h : Keeps G s t)  (w_regs : G .regs = true) (w_mem : G .mem = true) (w_eng : G .eng = true) (w_flt : G .flt = true) :
    Keeps G s (State.dbgRegWrite t n v low) := by
  unfold State.dbgRegWrite
  try lift_lets
  repeat' first | (with_reducible assumption) | intro _ | with_reducible first | apply Keeps.replayPush | refine Keeps.modCore ?_ (fun _ => .inl rfl) ?_ | apply Keeps.writeP | apply Keeps.when | apply Keeps.wrN | (with_reducible apply Keeps.ite) | split | (dsimp +zetaDelta only)

theorem Keeps.rngDraw {i : Nat} (h : Keeps G s t)  (w_lcs : G .lcs = true) :
    Keeps G s (State.rngDraw t i).1 := by
  unfold State.rngDraw
  repeat' first | (with_reducible assumption) | intro _ | with_reducible first | apply Keeps.modLcs | (with_reducible apply Keeps.ite) | split

theorem Keeps.rngFill  (h : Keeps G s t)  (w_regs : G .regs = true) (w_lcs : G .lcs = true) :
    Keeps G s (State.rngFill t) := by
  unfold State.rngFill
  try lift_lets
  repeat' first | (with_reducible assumption) | intro _ | with_reducible first | apply Keeps.rngDraw | apply Keeps.wr | (with_reducible apply Keeps.ite) | refine Keeps.of_fst (by with_reducible assumption) ?_ | split | (dsimp +zetaDelta only)

theorem Keeps.nonce {pg : Nat} (h : Keeps G s t)  (w_regs : G .regs = true) (w_lcs : G .lcs = true) :
    Keeps G s (State.nonce t pg).1 := by
  unfold State.nonce
  try lift_lets
  repeat' first | (with_reducible assumption) | intro _ | with_reducible first | apply Keeps.rngDraw | apply Keeps.setBit | (with_reducible apply Keeps.ite) | split | (dsimp +zetaDelta only)

theorem Keeps.newSvcChal  (h : Keeps G s t)  (w_regs : G .regs = true) (w_cfg : G .cfg = true) (w_lcs : G .lcs = true) :
    Keeps G s (State.newSvcChal t) := by
  unfold State.newSvcChal
  try lift_lets
  repeat' first | (with_reducible assumption) | intro _ | with_reducible first | apply Keeps.nonce | apply Keeps.each | apply Keeps.wrN | apply Keeps.modCfg | (with_reducible apply Keeps.ite) | split | (dsimp +zetaDelta only)

theorem Keeps.rngRead  (h : Keeps G s t)  (w_regs : G .regs = true) (w_lcs : G .lcs = true) :
    Keeps G s (State.rngRead t).1 := by
  unfold State.rngRead
  repeat' first | (with_reducible assumption) | intro _ | with_reducible first | apply Keeps.rngFill | (with_reducible apply Keeps.ite) | split

theorem Keeps.otpSet {w : Nat} {v : Word} (h : Keeps G s t)  (w_lcs : G .lcs = true) :
    Keeps G s (State.otpSet t w v) := by
  unfold State.otpSet
  repeat' first | (with_reducible assumption) | intro _ | with_reducible first | apply Keeps.modLcs | (with_reducible apply Keeps.ite) | split

theorem Keeps.otpShow  (h : Keeps G s t)  (w_regs : G .regs = true) :
    Keeps G s (State.otpShow t) := by
  unfold State.otpShow
  try lift_lets
  repeat' first | (with_reducible assumption) | intro _ | with_reducible first | apply Keeps.setBit | apply Keeps.setFld | apply Keeps.each | apply Keeps.wrN | apply Keeps.wr | (with_reducible apply Keeps.ite) | refine Keeps.of_fst (by with_reducible assumption) ?_ | split | (dsimp +zetaDelta only)

theorem Keeps.burnStat {reason : Nat} (h : Keeps G s t)  (w_regs : G .regs = true) :
    Keeps G s (State.burnStat t reason) := by
  unfold State.burnStat
  repeat' first | (with_reducible assumption) | intro _ | with_reducible first | apply Keeps.wrN | (with_reducible apply Keeps.ite) | split

theorem Keeps.burnCmd {m : Master} {v : Word} {ok : Bool} (h : Keeps G s t)  (w_regs : G .regs = true) (w_mem : G .mem = true) (w_flt : G .flt = true) (w_cfg : G .cfg = true) (w_lcs : G .lcs = true) :
    Keeps G s (State.burnCmd t m v ok) := by
  unfold State.burnCmd
  try lift_lets
  repeat' first | (with_reducible assumption) | intro _ | with_reducible first | apply Keeps.burnStat | apply Keeps.clogNote | apply Keeps.otpShow | apply Keeps.raise0 | apply Keeps.otpSet | (with_reducible apply Keeps.ite) | split | (dsimp +zetaDelta only)

theorem Keeps.burnWrite {m : Master} {v : Word} {ok : Bool} (h : Keeps G s t)  (w_regs : G .regs = true) (w_mem : G .mem = true) (w_host : G .host = true) (w_flt : G .flt = true) (w_cfg : G .cfg = true) (w_lcs : G .lcs = true) :
    Keeps G s (State.burnWrite t m v ok) := by
  unfold State.burnWrite
  repeat' first | (with_reducible assumption) | intro _ | with_reducible first | apply Keeps.expertCmd | apply Keeps.burnStat | apply Keeps.burnCmd | apply Keeps.when | apply Keeps.id' | (with_reducible apply Keeps.ite) | split

theorem Keeps.manBist {pass : Bool} (h : Keeps G s t)  (w_dev : G .dev = true) (w_regs : G .regs = true) (w_mem : G .mem = true) (w_host : G .host = true) (w_eng : G .eng = true) (w_flt : G .flt = true) (w_log : G .log = true) (w_mer : G .mer = true) (w_fab : G .fab = true) (w_net : G .net = true) :
    Keeps G s (State.manBist t pass) := by
  unfold State.manBist
  repeat' first | (with_reducible assumption) | intro _ | with_reducible first | apply Keeps.setMode | apply Keeps.wrN | (with_reducible apply Keeps.ite) | split

theorem Keeps.manCmd {m : Master} {pass : Bool} (h : Keeps G s t)  (w_dev : G .dev = true) (w_regs : G .regs = true) (w_mem : G .mem = true) (w_host : G .host = true) (w_eng : G .eng = true) (w_flt : G .flt = true) (w_log : G .log = true) (w_cfg : G .cfg = true) (w_mer : G .mer = true) (w_fab : G .fab = true) (w_net : G .net = true) :
    Keeps G s (State.manCmd t m pass) := by
  unfold State.manCmd
  try lift_lets
  repeat' first | (with_reducible assumption) | intro _ | with_reducible first | apply Keeps.noteWrite | apply Keeps.expertCmd | apply Keeps.manBist | apply Keeps.denied | apply Keeps.wrN | (with_reducible apply Keeps.ite) | split | (dsimp +zetaDelta only)

theorem Keeps.proofFail {u0 : Nat} (h : Keeps G s t)  (w_dev : G .dev = true) (w_regs : G .regs = true) (w_mem : G .mem = true) (w_host : G .host = true) (w_eng : G .eng = true) (w_flt : G .flt = true) (w_log : G .log = true) (w_mer : G .mer = true) (w_lcs : G .lcs = true) (w_fab : G .fab = true) (w_net : G .net = true) :
    Keeps G s (State.proofFail t u0) := by
  unfold State.proofFail
  try lift_lets
  repeat' first | (with_reducible assumption) | intro _ | with_reducible first | apply Keeps.critical | apply Keeps.modPair | apply Keeps.setBit | apply Keeps.raise | apply Keeps.modLcs | (with_reducible apply Keeps.ite) | split | (dsimp +zetaDelta only)

theorem Keeps.proofSlice {u0 : Nat} {pass : Bool} (h : Keeps G s t)  (w_dev : G .dev = true) (w_regs : G .regs = true) (w_mem : G .mem = true) (w_host : G .host = true) (w_eng : G .eng = true) (w_flt : G .flt = true) (w_log : G .log = true) (w_mer : G .mer = true) (w_lcs : G .lcs = true) (w_fab : G .fab = true) (w_net : G .net = true) :
    Keeps G s (State.proofSlice t u0 pass) := by
  unfold State.proofSlice
  try lift_lets
  repeat' first | (with_reducible assumption) | intro _ | with_reducible first | apply Keeps.proofFail | refine Keeps.modCore ?_ (fun _ => .inl rfl) ?_ | refine Keeps.modCore ?_ (fun _ => .inr (by decide)) ?_ | apply Keeps.modPair | apply Keeps.setBit | apply Keeps.setFld | apply Keeps.modLcs | (with_reducible apply Keeps.ite) | split | (dsimp +zetaDelta only)

theorem Keeps.sessStat {m : Master} {code : Nat} (h : Keeps G s t)  (w_regs : G .regs = true) :
    Keeps G s (State.sessStat t m code) := by
  unfold State.sessStat
  repeat' first | (with_reducible assumption) | intro _ | with_reducible first | apply Keeps.wrN | (with_reducible apply Keeps.ite) | split

theorem Keeps.sessReq {m : Master} {v : Word} (h : Keeps G s t)  (w_regs : G .regs = true) :
    Keeps G s (State.sessReq t m v) := by
  unfold State.sessReq
  try lift_lets
  repeat' first | (with_reducible assumption) | intro _ | with_reducible first | apply Keeps.each | apply Keeps.wrN | (with_reducible apply Keeps.ite) | split | (dsimp +zetaDelta only)

theorem Keeps.newChal {m : Master} (h : Keeps G s t)  (w_regs : G .regs = true) (w_cfg : G .cfg = true) (w_lcs : G .lcs = true) :
    Keeps G s (State.newChal t m) := by
  unfold State.newChal
  try lift_lets
  repeat' first | (with_reducible assumption) | intro _ | with_reducible first | apply Keeps.sessStat | apply Keeps.modSess | apply Keeps.rngDraw | apply Keeps.each | apply Keeps.wrN | (with_reducible apply Keeps.ite) | refine Keeps.of_fst (by with_reducible assumption) ?_ | split | (dsimp +zetaDelta only)

theorem Keeps.sessFail {m : Master} (h : Keeps G s t)  (w_regs : G .regs = true) (w_mem : G .mem = true) (w_flt : G .flt = true) (w_cfg : G .cfg = true) :
    Keeps G s (State.sessFail t m) := by
  unfold State.sessFail
  try lift_lets
  repeat' first | (with_reducible assumption) | intro _ | with_reducible first | apply Keeps.sessStat | apply Keeps.clogNote | apply Keeps.raise0 | apply Keeps.modCfg | (with_reducible apply Keeps.ite) | split | (dsimp +zetaDelta only)

theorem Keeps.sessOpen {m : Master} (h : Keeps G s t)  (w_regs : G .regs = true) (w_mem : G .mem = true) (w_host : G .host = true) (w_flt : G .flt = true) (w_log : G .log = true) (w_cfg : G .cfg = true) :
    Keeps G s (State.sessOpen t m) := by
  unfold State.sessOpen
  try lift_lets
  repeat' first | (with_reducible assumption) | intro _ | with_reducible first | apply Keeps.endSession | apply Keeps.showPriv | apply Keeps.sessFail | apply Keeps.sessStat | apply Keeps.clogNote | apply Keeps.modSess | apply Keeps.opEvent | (with_reducible apply Keeps.ite) | refine Keeps.of_fst (by with_reducible assumption) ?_ | split | (dsimp +zetaDelta only)

theorem Keeps.sessClose {m : Master} (h : Keeps G s t)  (w_regs : G .regs = true) (w_cfg : G .cfg = true) :
    Keeps G s (State.sessClose t m) := by
  unfold State.sessClose
  repeat' first | (with_reducible assumption) | intro _ | with_reducible first | apply Keeps.endSession | apply Keeps.sessStat | (with_reducible apply Keeps.ite) | split

theorem Keeps.pwChange {m : Master} (h : Keeps G s t)  (w_regs : G .regs = true) (w_mem : G .mem = true) (w_cfg : G .cfg = true) :
    Keeps G s (State.pwChange t m) := by
  unfold State.pwChange
  try lift_lets
  repeat' first | (with_reducible assumption) | intro _ | with_reducible first | apply Keeps.clogGuard | apply Keeps.sessStat | apply Keeps.clogNote | (with_reducible apply Keeps.ite) | refine Keeps.of_fst (by with_reducible assumption) ?_ | split | (dsimp +zetaDelta only)

theorem Keeps.sessCmd {m : Master} {v : Word} (h : Keeps G s t)  (w_regs : G .regs = true) (w_mem : G .mem = true) (w_host : G .host = true) (w_flt : G .flt = true) (w_log : G .log = true) (w_cfg : G .cfg = true) (w_lcs : G .lcs = true) :
    Keeps G s (State.sessCmd t m v) := by
  unfold State.sessCmd
  try lift_lets
  repeat' first | (with_reducible assumption) | intro _ | with_reducible first | apply Keeps.sessClose | apply Keeps.sessOpen | apply Keeps.pwChange | apply Keeps.newChal | (with_reducible apply Keeps.ite) | split | (dsimp +zetaDelta only)

theorem Keeps.partRes {m : Master} {p : Nat} {code : Nat} {res : Nat} (h : Keeps G s t)  (w_regs : G .regs = true) :
    Keeps G s (State.partRes t m p code res) := by
  unfold State.partRes
  repeat' first | (with_reducible assumption) | intro _ | with_reducible first | apply Keeps.wrN | (with_reducible apply Keeps.ite) | split

theorem Keeps.partGiveWay {p : Nat} (h : Keeps G s t)  (w_regs : G .regs = true) :
    Keeps G s (State.partGiveWay t p) := by
  unfold State.partGiveWay
  repeat' first | (with_reducible assumption) | intro _ | with_reducible first | apply Keeps.partRes | (with_reducible apply Keeps.ite) | refine Keeps.of_fst (by with_reducible assumption) ?_ | split

theorem Keeps.partCmd {m : Master} {p : Nat} {c : PartCmd} (h : Keeps G s t)  (w_regs : G .regs = true) (w_mem : G .mem = true) (w_eng : G .eng = true) (w_cfg : G .cfg = true) :
    Keeps G s (State.partCmd t m p c) := by
  unfold State.partCmd
  try lift_lets
  repeat' first | (with_reducible assumption) | intro _ | with_reducible first | apply Keeps.partGiveWay | apply Keeps.clogNote | apply Keeps.modPart | apply Keeps.partRes | (with_reducible apply Keeps.ite) | refine Keeps.of_fst (by with_reducible assumption) ?_ | split | (dsimp +zetaDelta only)

theorem Keeps.partWrite {m : Master} {v : Word} (h : Keeps G s t)  (w_regs : G .regs = true) (w_mem : G .mem = true) (w_host : G .host = true) (w_eng : G .eng = true) (w_flt : G .flt = true) (w_cfg : G .cfg = true) :
    Keeps G s (State.partWrite t m v) := by
  unfold State.partWrite
  try lift_lets
  repeat' first | (with_reducible assumption) | intro _ | with_reducible first | apply Keeps.cmdWrite | apply Keeps.clogNote | apply Keeps.partRes | apply Keeps.partCmd | (with_reducible apply Keeps.ite) | refine Keeps.of_fst (by with_reducible assumption) ?_ | split | (dsimp +zetaDelta only)

theorem Keeps.applyPartCmd {p : Nat} (h : Keeps G s t)  (w_regs : G .regs = true) (w_mem : G .mem = true) (w_host : G .host = true) (w_eng : G .eng = true) (w_flt : G .flt = true) (w_log : G .log = true) (w_mer : G .mer = true) (w_fab : G .fab = true) (w_net : G .net = true) :
    Keeps G s (State.applyPartCmd t p) := by
  unfold State.applyPartCmd
  try lift_lets
  repeat' first | (with_reducible assumption) | intro _ | with_reducible first | apply Keeps.setPartMode | apply Keeps.markFresh | apply Keeps.modPart | apply Keeps.partRes | (with_reducible apply Keeps.ite) | refine Keeps.of_fst (by with_reducible assumption) ?_ | split | (dsimp +zetaDelta only)

theorem Keeps.fnCmd {m : Master} {v : Word} (h : Keeps G s t)  (w_regs : G .regs = true) (w_mem : G .mem = true) (w_eng : G .eng = true) (w_cfg : G .cfg = true) :
    Keeps G s (State.fnCmd t m v) := by
  unfold State.fnCmd
  try lift_lets
  repeat' first | (with_reducible assumption) | intro _ | with_reducible first | apply Keeps.clogNote | apply Keeps.modPart | (with_reducible apply Keeps.ite) | split | (dsimp +zetaDelta only)

theorem Keeps.fnWrite {m : Master} {v : Word} (h : Keeps G s t)  (w_regs : G .regs = true) (w_mem : G .mem = true) (w_host : G .host = true) (w_eng : G .eng = true) (w_flt : G .flt = true) (w_cfg : G .cfg = true) :
    Keeps G s (State.fnWrite t m v) := by
  unfold State.fnWrite
  repeat' first | (with_reducible assumption) | intro _ | with_reducible first | apply Keeps.cmdWrite | apply Keeps.fnCmd | (with_reducible apply Keeps.ite) | split

theorem Keeps.frcStat {p : Nat} {code : Nat} (h : Keeps G s t)  (w_regs : G .regs = true) :
    Keeps G s (State.frcStat t p code) := by
  unfold State.frcStat
  repeat' first | (with_reducible assumption) | intro _ | with_reducible first | apply Keeps.wrN | (with_reducible apply Keeps.ite) | split

theorem Keeps.frcCmd {m : Master} {v : Word} (h : Keeps G s t)  (w_regs : G .regs = true) (w_mem : G .mem = true) (w_cfg : G .cfg = true) :
    Keeps G s (State.frcCmd t m v) := by
  unfold State.frcCmd
  try lift_lets
  repeat' first | (with_reducible assumption) | intro _ | with_reducible first | apply Keeps.clogGuard | apply Keeps.clogNote | apply Keeps.frcStat | (with_reducible apply Keeps.ite) | refine Keeps.of_fst (by with_reducible assumption) ?_ | split | (dsimp +zetaDelta only)

theorem Keeps.frcWrite {m : Master} {v : Word} (h : Keeps G s t)  (w_regs : G .regs = true) (w_mem : G .mem = true) (w_host : G .host = true) (w_flt : G .flt = true) (w_cfg : G .cfg = true) :
    Keeps G s (State.frcWrite t m v) := by
  unfold State.frcWrite
  repeat' first | (with_reducible assumption) | intro _ | with_reducible first | apply Keeps.cmdWrite | apply Keeps.frcCmd | (with_reducible apply Keeps.ite) | split

theorem Keeps.forceEvent {p : Nat} {idx : Nat} (h : Keeps G s t)  (w_regs : G .regs = true) (w_mem : G .mem = true) (w_host : G .host = true) (w_flt : G .flt = true) (w_log : G .log = true) :
    Keeps G s (State.forceEvent t p idx) := by
  unfold State.forceEvent
  repeat' first | (with_reducible assumption) | intro _ | with_reducible first | apply Keeps.opEvent | (with_reducible apply Keeps.ite) | split

theorem Keeps.forceDo {p : Nat} {idx : Nat} {v : BitVec 16} (h : Keeps G s t)  (w_regs : G .regs = true) (w_mem : G .mem = true) (w_host : G .host = true) (w_eng : G .eng = true) (w_flt : G .flt = true) (w_log : G .log = true) :
    Keeps G s (State.forceDo t p idx v) := by
  unfold State.forceDo
  try lift_lets
  repeat' first | (with_reducible assumption) | intro _ | with_reducible first | apply Keeps.forceEvent | apply Keeps.modPart | apply Keeps.devShow | apply Keeps.frcStat | apply Keeps.raise0 | (with_reducible apply Keeps.ite) | split | (dsimp +zetaDelta only)

theorem Keeps.forceEnd {p : Nat} {idx : Nat} (h : Keeps G s t)  (w_regs : G .regs = true) (w_mem : G .mem = true) (w_host : G .host = true) (w_eng : G .eng = true) (w_flt : G .flt = true) (w_log : G .log = true) :
    Keeps G s (State.forceEnd t p idx) := by
  unfold State.forceEnd
  repeat' first | (with_reducible assumption) | intro _ | with_reducible first | apply Keeps.forceEvent | apply Keeps.frcStat | apply Keeps.modPart | apply Keeps.devShow | (with_reducible apply Keeps.ite) | split

end Sys2Proof.Laws
end

