-- ==== Sys2Proof/Laws/KeepsField.lean ====
section
/-! SUPPORT. Which groups of the state the operations of Channels, Outputs, Analogue, Speed change. -/

namespace Sys2Proof.Laws

open Sys2Proof Sys2Proof.Machine

variable {G : Group → Bool} {s t : State}

theorem Keeps.modCh {n : Nat} {f : ChSt → ChSt} (h : Keeps G s t)  (w_field : G .field = true) :
    Keeps G s (State.modCh t n f) := by
  unfold State.modCh
  repeat' first | (with_reducible assumption) | intro _ | with_reducible first | apply Keeps.modField | (with_reducible apply Keeps.ite) | split

theorem Keeps.modBank {b : Nat} {f : BankSt → BankSt} (h : Keeps G s t)  (w_field : G .field = true) :
    Keeps G s (State.modBank t b f) := by
  unfold State.modBank
  repeat' first | (with_reducible assumption) | intro _ | with_reducible first | apply Keeps.modField | (with_reducible apply Keeps.ite) | split

theorem Keeps.chWrite {n : Nat} (h : Keeps G s t)  (w_mem : G .mem = true) (w_eng : G .eng = true) (w_field : G .field = true) :
    Keeps G s (State.chWrite t n) := by
  unfold State.chWrite
  try lift_lets
  repeat' first | (with_reducible assumption) | intro _ | with_reducible first | apply Keeps.produce | apply Keeps.modCh | (with_reducible apply Keeps.ite) | split | (dsimp +zetaDelta only)

theorem Keeps.chRefresh {n : Nat} (h : Keeps G s t)  (w_regs : G .regs = true) (w_mem : G .mem = true) (w_eng : G .eng = true) (w_field : G .field = true) :
    Keeps G s (State.chRefresh t n) := by
  unfold State.chRefresh
  try lift_lets
  repeat' first | (with_reducible assumption) | intro _ | with_reducible first | apply Keeps.chWrite | apply Keeps.setBit | (with_reducible apply Keeps.ite) | split | (dsimp +zetaDelta only)

theorem Keeps.chSuperframe {n : Nat} (h : Keeps G s t)  (w_regs : G .regs = true) (w_mem : G .mem = true) (w_eng : G .eng = true) (w_field : G .field = true) :
    Keeps G s (State.chSuperframe t n) := by
  unfold State.chSuperframe
  try lift_lets
  repeat' first | (with_reducible assumption) | intro _ | with_reducible first | apply Keeps.chWrite | apply Keeps.setBit | (with_reducible apply Keeps.ite) | split | (dsimp +zetaDelta only)

theorem Keeps.chShow {n : Nat} (h : Keeps G s t)  (w_regs : G .regs = true) (w_mem : G .mem = true) (w_eng : G .eng = true) (w_field : G .field = true) :
    Keeps G s (State.chShow t n) := by
  unfold State.chShow
  try lift_lets
  repeat' first | (with_reducible assumption) | intro _ | with_reducible first | apply Keeps.chRefresh | apply Keeps.setFld | apply Keeps.evRaw | apply Keeps.each | (with_reducible apply Keeps.ite) | refine Keeps.of_fst (by with_reducible assumption) ?_ | split | (dsimp +zetaDelta only)

theorem Keeps.chRaise {n : Nat} {k : Nat} {f : Bool} (h : Keeps G s t)  (w_regs : G .regs = true) (w_flt : G .flt = true) :
    Keeps G s (State.chRaise t n k f) := by
  unfold State.chRaise
  repeat' first | (with_reducible assumption) | intro _ | with_reducible first | apply Keeps.bumpFld | apply Keeps.raise | (with_reducible apply Keeps.ite) | split

theorem Keeps.chHere {n : Nat} {k : Nat} {f : Bool} (h : Keeps G s t)  (w_regs : G .regs = true) (w_mem : G .mem = true) (w_eng : G .eng = true) (w_flt : G .flt = true) (w_field : G .field = true) :
    Keeps G s (State.chHere t n k f) := by
  unfold State.chHere
  try lift_lets
  repeat' first | (with_reducible assumption) | intro _ | with_reducible first | apply Keeps.chRaise | apply Keeps.chShow | apply Keeps.modCh | (with_reducible apply Keeps.ite) | split | (dsimp +zetaDelta only)

theorem Keeps.chBack {n : Nat} {k : Nat} {f : Bool} (h : Keeps G s t)  (w_regs : G .regs = true) (w_mem : G .mem = true) (w_eng : G .eng = true) (w_flt : G .flt = true) (w_field : G .field = true) :
    Keeps G s (State.chBack t n k f) := by
  unfold State.chBack
  repeat' first | (with_reducible assumption) | intro _ | with_reducible first | apply Keeps.chRaise | apply Keeps.chHere | (with_reducible apply Keeps.ite) | split

theorem Keeps.chGone {n : Nat} {k : Nat} {f : Bool} (h : Keeps G s t)  (w_field : G .field = true) :
    Keeps G s (State.chGone t n k f) := by
  unfold State.chGone
  repeat' first | (with_reducible assumption) | intro _ | with_reducible first | apply Keeps.modCh | (with_reducible apply Keeps.ite) | split

theorem Keeps.chCond {n : Nat} {k : Nat} {f : Bool} {b : Bool} (h : Keeps G s t)  (w_regs : G .regs = true) (w_mem : G .mem = true) (w_eng : G .eng = true) (w_flt : G .flt = true) (w_field : G .field = true) :
    Keeps G s (State.chCond t n k f b) := by
  unfold State.chCond
  repeat' first | (with_reducible assumption) | intro _ | with_reducible first | apply Keeps.chHere | apply Keeps.chGone | (with_reducible apply Keeps.ite) | split

theorem Keeps.chEnd {n : Nat} {k : Nat} {f : Bool} (h : Keeps G s t)  (w_regs : G .regs = true) (w_mem : G .mem = true) (w_eng : G .eng = true) (w_field : G .field = true) :
    Keeps G s (State.chEnd t n k f) := by
  unfold State.chEnd
  repeat' first | (with_reducible assumption) | intro _ | with_reducible first | apply Keeps.chShow | apply Keeps.modCh | (with_reducible apply Keeps.ite) | split

theorem Keeps.bankShow {b : Nat} (h : Keeps G s t)  (w_regs : G .regs = true) :
    Keeps G s (State.bankShow t b) := by
  unfold State.bankShow
  try lift_lets
  repeat' first | (with_reducible assumption) | intro _ | with_reducible first | apply Keeps.setBit | apply Keeps.evRaw | (with_reducible apply Keeps.ite) | split | (dsimp +zetaDelta only)

theorem Keeps.healthHere {b : Nat} {k : Nat} (h : Keeps G s t)  (w_regs : G .regs = true) (w_mem : G .mem = true) (w_eng : G .eng = true) (w_flt : G .flt = true) (w_field : G .field = true) :
    Keeps G s (State.healthHere t b k) := by
  unfold State.healthHere
  try lift_lets
  repeat' first | (with_reducible assumption) | intro _ | with_reducible first | apply Keeps.chRefresh | apply Keeps.bankShow | apply Keeps.modBank | apply Keeps.raise | apply Keeps.each | (with_reducible apply Keeps.ite) | split | (dsimp +zetaDelta only)

theorem Keeps.healthEnd {b : Nat} {k : Nat} (h : Keeps G s t)  (w_regs : G .regs = true) (w_mem : G .mem = true) (w_eng : G .eng = true) (w_field : G .field = true) :
    Keeps G s (State.healthEnd t b k) := by
  unfold State.healthEnd
  repeat' first | (with_reducible assumption) | intro _ | with_reducible first | apply Keeps.chRefresh | apply Keeps.bankShow | apply Keeps.modBank | apply Keeps.each | (with_reducible apply Keeps.ite) | split

theorem Keeps.shutClose {b : Nat} (h : Keeps G s t)  (w_regs : G .regs = true) (w_field : G .field = true) :
    Keeps G s (State.shutClose t b) := by
  unfold State.shutClose
  repeat' first | (with_reducible assumption) | intro _ | with_reducible first | apply Keeps.modBank | apply Keeps.setBit | apply Keeps.evRaw | (with_reducible apply Keeps.ite) | split

theorem Keeps.swOff {n : Nat} {ron : BitVec 16} (h : Keeps G s t)  (w_regs : G .regs = true) (w_field : G .field = true) :
    Keeps G s (State.swOff t n ron) := by
  unfold State.swOff
  try lift_lets
  repeat' first | (with_reducible assumption) | intro _ | with_reducible first | apply Keeps.setBit | apply Keeps.setFld | apply Keeps.modCh | (with_reducible apply Keeps.ite) | split | (dsimp +zetaDelta only)

theorem Keeps.swOn {n : Nat} (h : Keeps G s t)  (w_regs : G .regs = true) (w_field : G .field = true) :
    Keeps G s (State.swOn t n) := by
  unfold State.swOn
  repeat' first | (with_reducible assumption) | intro _ | with_reducible first | apply Keeps.setBit | apply Keeps.modCh | (with_reducible apply Keeps.ite) | split

theorem Keeps.proofPass {n : Nat} {v : Int} (h : Keeps G s t)  (w_regs : G .regs = true) (w_field : G .field = true) :
    Keeps G s (State.proofPass t n v) := by
  unfold State.proofPass
  repeat' first | (with_reducible assumption) | intro _ | with_reducible first | apply Keeps.setFld | apply Keeps.modCh | apply Keeps.bump | (with_reducible apply Keeps.ite) | refine Keeps.of_fst (by with_reducible assumption) ?_ | split

theorem Keeps.setLevel {n : Nat} {l : Bool} (h : Keeps G s t)  (w_regs : G .regs = true) (w_mem : G .mem = true) (w_host : G .host = true) (w_flt : G .flt = true) (w_log : G .log = true) (w_tim : G .tim = true) (w_field : G .field = true) :
    Keeps G s (State.setLevel t n l) := by
  unfold State.setLevel
  try lift_lets
  repeat' first | (with_reducible assumption) | intro _ | with_reducible first | apply Keeps.opEvent | apply Keeps.setBit | apply Keeps.modCh | apply Keeps.tEdge | apply Keeps.evRaw | (with_reducible apply Keeps.ite) | split | (dsimp +zetaDelta only)

theorem Keeps.filterStep {n : Nat} {raw : Bool} (h : Keeps G s t)  (w_regs : G .regs = true) (w_mem : G .mem = true) (w_host : G .host = true) (w_flt : G .flt = true) (w_log : G .log = true) (w_tim : G .tim = true) (w_field : G .field = true) :
    Keeps G s (State.filterStep t n raw) := by
  unfold State.filterStep
  repeat' first | (with_reducible assumption) | intro _ | with_reducible first | apply Keeps.setLevel | apply Keeps.modCh | (with_reducible apply Keeps.ite) | split

theorem Keeps.maskStep {n : Nat} {tp : Nat} {j : Nat} {raw : Bool} {prev : Bool} (h : Keeps G s t)  (w_regs : G .regs = true) (w_mem : G .mem = true) (w_eng : G .eng = true) (w_flt : G .flt = true) (w_field : G .field = true) :
    Keeps G s (State.maskStep t n tp j raw prev) := by
  unfold State.maskStep
  try lift_lets
  repeat' first | (with_reducible assumption) | intro _ | with_reducible first | apply Keeps.setBit | apply Keeps.chHere | apply Keeps.modCh | apply Keeps.bump | (with_reducible apply Keeps.ite) | split | (dsimp +zetaDelta only)

theorem Keeps.miswire {n : Nat} (h : Keeps G s t)  (w_regs : G .regs = true) (w_mem : G .mem = true) (w_eng : G .eng = true) (w_flt : G .flt = true) (w_field : G .field = true) :
    Keeps G s (State.miswire t n) := by
  unfold State.miswire
  try lift_lets
  repeat' first | (with_reducible assumption) | intro _ | with_reducible first | apply Keeps.chCond | (with_reducible apply Keeps.ite) | split | (dsimp +zetaDelta only)

theorem Keeps.wireStep {n : Nat} {x : Terminal} (h : Keeps G s t)  (w_regs : G .regs = true) (w_mem : G .mem = true) (w_eng : G .eng = true) (w_flt : G .flt = true) (w_field : G .field = true) :
    Keeps G s (State.wireStep t n x) := by
  unfold State.wireStep
  try lift_lets
  repeat' first | (with_reducible assumption) | intro _ | with_reducible first | apply Keeps.miswire | apply Keeps.chCond | apply Keeps.chGone | apply Keeps.modCh | (with_reducible apply Keeps.ite) | refine Keeps.of_fst (by with_reducible assumption) ?_ | split | (dsimp +zetaDelta only)

theorem Keeps.inputSample {n : Nat} {j : Nat} {k : Bool × Bool} (h : Keeps G s t)  (w_regs : G .regs = true) (w_mem : G .mem = true) (w_host : G .host = true) (w_eng : G .eng = true) (w_flt : G .flt = true) (w_log : G .log = true) (w_tim : G .tim = true) (w_field : G .field = true) :
    Keeps G s (State.inputSample t n j k) := by
  unfold State.inputSample
  try lift_lets
  repeat' first | (with_reducible assumption) | intro _ | with_reducible first | apply Keeps.filterStep | apply Keeps.maskStep | apply Keeps.setBit | apply Keeps.chGone | apply Keeps.modCh | (with_reducible apply Keeps.ite) | refine Keeps.of_fst (by with_reducible assumption) ?_ | split | (dsimp +zetaDelta only)

theorem Keeps.tpSample {n : Nat} {j : Nat} {v : Int} (h : Keeps G s t)  (w_regs : G .regs = true) (w_mem : G .mem = true) (w_eng : G .eng = true) (w_flt : G .flt = true) (w_field : G .field = true) :
    Keeps G s (State.tpSample t n j v) := by
  unfold State.tpSample
  try lift_lets
  repeat' first | (with_reducible assumption) | intro _ | with_reducible first | apply Keeps.setBit | apply Keeps.chHere | apply Keeps.modCh | (with_reducible apply Keeps.ite) | refine Keeps.of_fst (by with_reducible assumption) ?_ | split | (dsimp +zetaDelta only)

theorem Keeps.stuckHigh {n : Nat} {hi : Bool} (h : Keeps G s t)  (w_regs : G .regs = true) (w_mem : G .mem = true) (w_host : G .host = true) (w_eng : G .eng = true) (w_flt : G .flt = true) (w_log : G .log = true) (w_field : G .field = true) :
    Keeps G s (State.stuckHigh t n hi) := by
  unfold State.stuckHigh
  try lift_lets
  repeat' first | (with_reducible assumption) | intro _ | with_reducible first | apply Keeps.shutRequest | apply Keeps.bankShow | apply Keeps.setBit | apply Keeps.chHere | apply Keeps.modCh | (with_reducible apply Keeps.ite) | split | (dsimp +zetaDelta only)

theorem Keeps.outSample {n : Nat} {v : Int} (h : Keeps G s t)  (w_regs : G .regs = true) (w_mem : G .mem = true) (w_host : G .host = true) (w_eng : G .eng = true) (w_flt : G .flt = true) (w_log : G .log = true) (w_field : G .field = true) :
    Keeps G s (State.outSample t n v) := by
  unfold State.outSample
  try lift_lets
  repeat' first | (with_reducible assumption) | intro _ | with_reducible first | apply Keeps.stuckHigh | apply Keeps.proofPass | apply Keeps.chRaise | apply Keeps.setBit | apply Keeps.modCh | apply Keeps.when | (with_reducible apply Keeps.ite) | split | (dsimp +zetaDelta only)

theorem Keeps.railShow {b : Nat} (h : Keeps G s t)  (w_regs : G .regs = true) :
    Keeps G s (State.railShow t b) := by
  unfold State.railShow
  try lift_lets
  repeat' first | (with_reducible assumption) | intro _ | with_reducible first | apply Keeps.setFld | apply Keeps.foldl | apply Keeps.foldlFst | (with_reducible apply Keeps.ite) | split | (dsimp +zetaDelta only)

theorem Keeps.chSample {n : Nat} {k : Comp} {x : Terminal} (h : Keeps G s t)  (w_regs : G .regs = true) (w_mem : G .mem = true) (w_host : G .host = true) (w_eng : G .eng = true) (w_flt : G .flt = true) (w_log : G .log = true) (w_mer : G .mer = true) (w_tim : G .tim = true) (w_field : G .field = true) :
    Keeps G s (State.chSample t n k x) := by
  unfold State.chSample
  try lift_lets
  repeat' first | (with_reducible assumption) | intro _ | with_reducible first | apply Keeps.inputSample | apply Keeps.advanceTo | apply Keeps.outSample | apply Keeps.chRefresh | apply Keeps.tpSample | apply Keeps.railShow | apply Keeps.wireStep | apply Keeps.setBit | apply Keeps.setFld | apply Keeps.modCh | apply Keeps.wrN | (with_reducible apply Keeps.ite) | refine Keeps.of_fst (by with_reducible assumption) ?_ | split | (dsimp +zetaDelta only)

theorem Keeps.chLatchShow {b : Nat} (h : Keeps G s t)  (w_regs : G .regs = true) :
    Keeps G s (State.chLatchShow t b) := by
  unfold State.chLatchShow
  repeat' first | (with_reducible assumption) | intro _ | with_reducible first | apply Keeps.shutRelease | apply Keeps.bankShow | (with_reducible apply Keeps.ite) | split

theorem Keeps.chClr {n : Nat} (h : Keeps G s t)  (w_regs : G .regs = true) (w_mem : G .mem = true) (w_eng : G .eng = true) (w_field : G .field = true) :
    Keeps G s (State.chClr t n) := by
  unfold State.chClr
  try lift_lets
  repeat' first | (with_reducible assumption) | intro _ | with_reducible first | apply Keeps.chLatchShow | apply Keeps.setBit | apply Keeps.chEnd | (with_reducible apply Keeps.ite) | split | (dsimp +zetaDelta only)

theorem Keeps.chCmd {m : Master} {n : Nat} {v : Word} (h : Keeps G s t)  (w_regs : G .regs = true) (w_mem : G .mem = true) (w_host : G .host = true) (w_eng : G .eng = true) (w_flt : G .flt = true) (w_cfg : G .cfg = true) (w_field : G .field = true) :
    Keeps G s (State.chCmd t m n v) := by
  unfold State.chCmd
  repeat' first | (with_reducible assumption) | intro _ | with_reducible first | apply Keeps.regCmd | apply Keeps.chClr | (with_reducible apply Keeps.ite) | split

theorem Keeps.doRead {n : Nat} {ron : BitVec 16} (h : Keeps G s t)  (w_regs : G .regs = true) (w_eng : G .eng = true) (w_field : G .field = true) :
    Keeps G s (State.doRead t n ron) := by
  unfold State.doRead
  try lift_lets
  repeat' first | (with_reducible assumption) | intro _ | with_reducible first | apply Keeps.setHold | apply Keeps.swOff | apply Keeps.each | apply Keeps.swOn | refine Keeps.modEng ?_ (fun _ => rfl) ?_ | (with_reducible apply Keeps.ite) | split | (dsimp +zetaDelta only)

theorem Keeps.aoRead {n : Nat} (h : Keeps G s t)  (w_regs : G .regs = true) :
    Keeps G s (State.aoRead t n) := by
  unfold State.aoRead
  try lift_lets
  repeat' first | (with_reducible assumption) | intro _ | with_reducible first | apply Keeps.setDac | (with_reducible apply Keeps.ite) | refine Keeps.of_fst (by with_reducible assumption) ?_ | split | (dsimp +zetaDelta only)

theorem Keeps.shutStuck {b : Nat} (h : Keeps G s t)  (w_regs : G .regs = true) (w_mem : G .mem = true) (w_host : G .host = true) (w_flt : G .flt = true) (w_log : G .log = true) (w_field : G .field = true) :
    Keeps G s (State.shutStuck t b) := by
  unfold State.shutStuck
  try lift_lets
  repeat' first | (with_reducible assumption) | intro _ | with_reducible first | apply Keeps.shutRequest | apply Keeps.bankShow | apply Keeps.modBank | apply Keeps.setBit | apply Keeps.raise | (with_reducible apply Keeps.ite) | split | (dsimp +zetaDelta only)

theorem Keeps.shutTest {b : Nat} {rail : BitVec 16} {fall : BitVec 16} {ron : BitVec 16} (h : Keeps G s t)  (w_regs : G .regs = true) (w_mem : G .mem = true) (w_host : G .host = true) (w_flt : G .flt = true) (w_log : G .log = true) (w_field : G .field = true) :
    Keeps G s (State.shutTest t b rail fall ron) := by
  unfold State.shutTest
  try lift_lets
  repeat' first | (with_reducible assumption) | intro _ | with_reducible first | apply Keeps.shutRequest | apply Keeps.shutRelease | apply Keeps.shutStuck | apply Keeps.bankShow | apply Keeps.modBank | apply Keeps.setFld | (with_reducible apply Keeps.ite) | split | (dsimp +zetaDelta only)

theorem Keeps.shutFail {b : Nat} (h : Keeps G s t)  (w_regs : G .regs = true) (w_mem : G .mem = true) (w_host : G .host = true) (w_flt : G .flt = true) (w_log : G .log = true) (w_field : G .field = true) :
    Keeps G s (State.shutFail t b) := by
  unfold State.shutFail
  repeat' first | (with_reducible assumption) | intro _ | with_reducible first | apply Keeps.shutDrop | apply Keeps.modBank | apply Keeps.raise | (with_reducible apply Keeps.ite) | split

theorem Keeps.bankClr {b : Nat} {rail : BitVec 16} {fall : BitVec 16} {ron : BitVec 16} (h : Keeps G s t)  (w_regs : G .regs = true) (w_mem : G .mem = true) (w_host : G .host = true) (w_flt : G .flt = true) (w_log : G .log = true) (w_field : G .field = true) :
    Keeps G s (State.bankClr t b rail fall ron) := by
  unfold State.bankClr
  try lift_lets
  repeat' first | (with_reducible assumption) | intro _ | with_reducible first | apply Keeps.shutRelease | apply Keeps.shutTest | apply Keeps.modBank | (with_reducible apply Keeps.ite) | split | (dsimp +zetaDelta only)

theorem Keeps.bankCmd {m : Master} {b : Nat} {v : Word} {rail : BitVec 16} {fall : BitVec 16} {ron : BitVec 16} (h : Keeps G s t)  (w_regs : G .regs = true) (w_mem : G .mem = true) (w_host : G .host = true) (w_flt : G .flt = true) (w_log : G .log = true) (w_cfg : G .cfg = true) (w_field : G .field = true) :
    Keeps G s (State.bankCmd t m b v rail fall ron) := by
  unfold State.bankCmd
  try lift_lets
  repeat' first | (with_reducible assumption) | intro _ | with_reducible first | apply Keeps.bankClr | apply Keeps.modBank | apply Keeps.regCmd | (with_reducible apply Keeps.ite) | split | (dsimp +zetaDelta only)

theorem Keeps.supplyRead {b : Nat} {v : BitVec 16} (h : Keeps G s t)  (w_regs : G .regs = true) (w_mem : G .mem = true) (w_host : G .host = true) (w_eng : G .eng = true) (w_flt : G .flt = true) (w_log : G .log = true) (w_field : G .field = true) :
    Keeps G s (State.supplyRead t b v) := by
  unfold State.supplyRead
  try lift_lets
  repeat' first | (with_reducible assumption) | intro _ | with_reducible first | apply Keeps.shutRequest | apply Keeps.healthHere | apply Keeps.setFld | (with_reducible apply Keeps.ite) | split | (dsimp +zetaDelta only)

theorem Keeps.seqShow {b : Nat} (h : Keeps G s t)  (w_regs : G .regs = true) :
    Keeps G s (State.seqShow t b) := by
  unfold State.seqShow
  repeat' first | (with_reducible assumption) | intro _ | with_reducible first | apply Keeps.setBit | apply Keeps.setFld | (with_reducible apply Keeps.ite) | refine Keeps.of_fst (by with_reducible assumption) ?_ | split

theorem Keeps.convCond {b : Nat} {k : Nat} {bad : Bool} (h : Keeps G s t)  (w_regs : G .regs = true) (w_mem : G .mem = true) (w_eng : G .eng = true) (w_flt : G .flt = true) (w_field : G .field = true) :
    Keeps G s (State.convCond t b k bad) := by
  unfold State.convCond
  repeat' first | (with_reducible assumption) | intro _ | with_reducible first | apply Keeps.healthHere | apply Keeps.healthEnd | apply Keeps.modBank | (with_reducible apply Keeps.ite) | refine Keeps.of_fst (by with_reducible assumption) ?_ | split

theorem Keeps.refCheck {b : Nat} {drift : BitVec 16} {mainOk : Bool} {sarOk : Bool} (h : Keeps G s t)  (w_regs : G .regs = true) (w_mem : G .mem = true) (w_eng : G .eng = true) (w_flt : G .flt = true) (w_field : G .field = true) :
    Keeps G s (State.refCheck t b drift mainOk sarOk) := by
  unfold State.refCheck
  try lift_lets
  repeat' first | (with_reducible assumption) | intro _ | with_reducible first | apply Keeps.convCond | apply Keeps.setBit | apply Keeps.chHere | apply Keeps.setFld | apply Keeps.each | (with_reducible apply Keeps.ite) | split | (dsimp +zetaDelta only)

theorem Keeps.bandStep {n : Nat} {i : Int} (h : Keeps G s t)  (w_regs : G .regs = true) (w_mem : G .mem = true) (w_eng : G .eng = true) (w_flt : G .flt = true) (w_field : G .field = true) :
    Keeps G s (State.bandStep t n i) := by
  unfold State.bandStep
  try lift_lets
  repeat' first | (with_reducible assumption) | intro _ | with_reducible first | apply Keeps.chHere | apply Keeps.chCond | apply Keeps.setFld | apply Keeps.modCh | apply Keeps.chEnd | apply Keeps.evRaw | (with_reducible apply Keeps.ite) | refine Keeps.of_fst (by with_reducible assumption) ?_ | split | (dsimp +zetaDelta only)

theorem Keeps.crossStep {n : Nat} {d : Int} (h : Keeps G s t)  (w_regs : G .regs = true) (w_mem : G .mem = true) (w_eng : G .eng = true) (w_flt : G .flt = true) (w_field : G .field = true) :
    Keeps G s (State.crossStep t n d) := by
  unfold State.crossStep
  try lift_lets
  repeat' first | (with_reducible assumption) | intro _ | with_reducible first | apply Keeps.setFld | apply Keeps.chHere | apply Keeps.modCh | apply Keeps.chEnd | (with_reducible apply Keeps.ite) | split | (dsimp +zetaDelta only)

theorem Keeps.anWiring {n : Nat} {r : Int} {lead : Int} {burn : Int} (h : Keeps G s t)  (w_regs : G .regs = true) (w_mem : G .mem = true) (w_eng : G .eng = true) (w_flt : G .flt = true) (w_field : G .field = true) :
    Keeps G s (State.anWiring t n r lead burn) := by
  unfold State.anWiring
  try lift_lets
  repeat' first | (with_reducible assumption) | intro _ | with_reducible first | apply Keeps.chCond | (with_reducible apply Keeps.ite) | refine Keeps.of_fst (by with_reducible assumption) ?_ | split | (dsimp +zetaDelta only)

theorem Keeps.anWord {n : Nat} {x : Option Int} {t0 : Int × Nat × Int} (h : Keeps G s t)  (w_free : G .free = true) :
    Keeps G s (State.anWord t n x t0).2 := by
  unfold State.anWord
  try lift_lets
  repeat' first | (with_reducible assumption) | intro _ | with_reducible first | apply Keeps.useFree | (with_reducible apply Keeps.ite) | refine Keeps.of_fst (by with_reducible assumption) ?_ | split | (dsimp +zetaDelta only)

theorem Keeps.convEnd {n : Nat} {c : Conv} (h : Keeps G s t)  (w_regs : G .regs = true) (w_mem : G .mem = true) (w_eng : G .eng = true) (w_flt : G .flt = true) (w_field : G .field = true) (w_free : G .free = true) :
    Keeps G s (State.convEnd t n c) := by
  unfold State.convEnd
  try lift_lets
  repeat' first | (with_reducible assumption) | intro _ | with_reducible first | apply Keeps.crossStep | apply Keeps.anWiring | apply Keeps.bandStep | apply Keeps.chRaise | apply Keeps.produce | apply Keeps.anWord | apply Keeps.setFld | apply Keeps.modCh | apply Keeps.wrN | (with_reducible apply Keeps.ite) | refine Keeps.of_fst (by with_reducible assumption) ?_ | split | (dsimp +zetaDelta only)

theorem Keeps.trimOp {n : Nat} {op : Nat} {ref : Nat} {role : Nat} {part : Nat} {mst : Nat} {button : Bool} {same : Bool} {ok : Bool} (h : Keeps G s t)  (w_regs : G .regs = true) (w_mem : G .mem = true) (w_cfg : G .cfg = true) (w_field : G .field = true) :
    Keeps G s (State.trimOp t n op ref role part mst button same ok) := by
  unfold State.trimOp
  try lift_lets
  repeat' first | (with_reducible assumption) | intro _ | with_reducible first | apply Keeps.clogGuard | apply Keeps.clogNote | apply Keeps.modCh | apply Keeps.wrN | (with_reducible apply Keeps.ite) | refine Keeps.of_fst (by with_reducible assumption) ?_ | split | (dsimp +zetaDelta only)

theorem Keeps.trimDone {n : Nat} {t0 : Int × Nat × Int} {button : Bool} (h : Keeps G s t)  (w_regs : G .regs = true) (w_cfg : G .cfg = true) (w_field : G .field = true) :
    Keeps G s (State.trimDone t n t0 button) := by
  unfold State.trimDone
  try lift_lets
  repeat' first | (with_reducible assumption) | intro _ | with_reducible first | apply Keeps.setFld | apply Keeps.modCh | apply Keeps.wrN | apply Keeps.modCfg | (with_reducible apply Keeps.ite) | split | (dsimp +zetaDelta only)

theorem Keeps.trimCmd {m : Master} {n : Nat} {v : Word} (h : Keeps G s t)  (w_regs : G .regs = true) (w_mem : G .mem = true) (w_host : G .host = true) (w_flt : G .flt = true) (w_cfg : G .cfg = true) (w_field : G .field = true) :
    Keeps G s (State.trimCmd t m n v) := by
  unfold State.trimCmd
  try lift_lets
  repeat' first | (with_reducible assumption) | intro _ | with_reducible first | apply Keeps.regCmd | apply Keeps.trimOp | (with_reducible apply Keeps.ite) | split | (dsimp +zetaDelta only)

theorem Keeps.modSpd {u0 : Nat} {f : SpdSt → SpdSt} (h : Keeps G s t)  (w_field : G .field = true) :
    Keeps G s (State.modSpd t u0 f) := by
  unfold State.modSpd
  repeat' first | (with_reducible assumption) | intro _ | with_reducible first | apply Keeps.modField | (with_reducible apply Keeps.ite) | split

theorem Keeps.spdTo {u0 : Nat} {k : Nat} (h : Keeps G s t)  (w_regs : G .regs = true) (w_mem : G .mem = true) (w_host : G .host = true) (w_flt : G .flt = true) (w_log : G .log = true) :
    Keeps G s (State.spdTo t u0 k) := by
  unfold State.spdTo
  try lift_lets
  repeat' first | (with_reducible assumption) | intro _ | with_reducible first | apply Keeps.opEvent | apply Keeps.setFld | apply Keeps.evRaw | (with_reducible apply Keeps.ite) | split | (dsimp +zetaDelta only)

theorem Keeps.spdFault {u0 : Nat} {cause : Nat} {hint : Nat} (h : Keeps G s t)  (w_regs : G .regs = true) (w_mem : G .mem = true) (w_host : G .host = true) (w_flt : G .flt = true) (w_log : G .log = true) (w_field : G .field = true) :
    Keeps G s (State.spdFault t u0 cause hint) := by
  unfold State.spdFault
  try lift_lets
  repeat' first | (with_reducible assumption) | intro _ | with_reducible first | apply Keeps.setBit | apply Keeps.modSpd | apply Keeps.setFld | apply Keeps.raise | apply Keeps.spdTo | apply Keeps.evRaw | (with_reducible apply Keeps.ite) | refine Keeps.of_fst (by with_reducible assumption) ?_ | split | (dsimp +zetaDelta only)

theorem Keeps.spdHeal {u0 : Nat} (h : Keeps G s t)  (w_regs : G .regs = true) (w_mem : G .mem = true) (w_host : G .host = true) (w_flt : G .flt = true) (w_log : G .log = true) (w_field : G .field = true) :
    Keeps G s (State.spdHeal t u0) := by
  unfold State.spdHeal
  try lift_lets
  repeat' first | (with_reducible assumption) | intro _ | with_reducible first | apply Keeps.setBit | apply Keeps.modSpd | apply Keeps.setFld | apply Keeps.spdTo | apply Keeps.evRaw | (with_reducible apply Keeps.ite) | split | (dsimp +zetaDelta only)

theorem Keeps.spdEnable {u0 : Nat} (h : Keeps G s t)  (w_regs : G .regs = true) (w_field : G .field = true) :
    Keeps G s (State.spdEnable t u0) := by
  unfold State.spdEnable
  try lift_lets
  repeat' first | (with_reducible assumption) | intro _ | with_reducible first | apply Keeps.modSpd | apply Keeps.evRaw | apply Keeps.wr | apply Keeps.foldl | apply Keeps.foldlFst | (with_reducible apply Keeps.ite) | split | (dsimp +zetaDelta only)

theorem Keeps.winShow {u0 : Nat} {old : Nat} {fwd : Bool} (h : Keeps G s t)  (w_regs : G .regs = true) :
    Keeps G s (State.winShow t u0 old fwd) := by
  unfold State.winShow
  try lift_lets
  repeat' first | (with_reducible assumption) | intro _ | with_reducible first | apply Keeps.setBit | apply Keeps.setFld | apply Keeps.each | (with_reducible apply Keeps.ite) | split | (dsimp +zetaDelta only)

theorem Keeps.posEdge {u0 : Nat} {rev : Bool} (h : Keeps G s t)  (w_regs : G .regs = true) (w_flt : G .flt = true) (w_field : G .field = true) :
    Keeps G s (State.posEdge t u0 rev) := by
  unfold State.posEdge
  try lift_lets
  repeat' first | (with_reducible assumption) | intro _ | with_reducible first | apply Keeps.winShow | apply Keeps.setBit | apply Keeps.modSpd | apply Keeps.setFld | apply Keeps.raise | (with_reducible apply Keeps.ite) | split | (dsimp +zetaDelta only)

theorem Keeps.idxEdge {u0 : Nat} (h : Keeps G s t)  (w_regs : G .regs = true) (w_flt : G .flt = true) (w_field : G .field = true) :
    Keeps G s (State.idxEdge t u0) := by
  unfold State.idxEdge
  try lift_lets
  repeat' first | (with_reducible assumption) | intro _ | with_reducible first | apply Keeps.winShow | apply Keeps.setBit | apply Keeps.modSpd | apply Keeps.setFld | apply Keeps.raise | (with_reducible apply Keeps.ite) | split | (dsimp +zetaDelta only)

theorem Keeps.spdEdge {u0 : Nat} {rev : Bool} (h : Keeps G s t)  (w_regs : G .regs = true) (w_mem : G .mem = true) (w_host : G .host = true) (w_flt : G .flt = true) (w_log : G .log = true) (w_field : G .field = true) :
    Keeps G s (State.spdEdge t u0 rev) := by
  unfold State.spdEdge
  try lift_lets
  repeat' first | (with_reducible assumption) | intro _ | with_reducible first | apply Keeps.setBit | apply Keeps.modSpd | apply Keeps.setFld | apply Keeps.spdTo | (with_reducible apply Keeps.ite) | refine Keeps.of_fst (by with_reducible assumption) ?_ | split | (dsimp +zetaDelta only)

theorem Keeps.backstop {u0 : Nat} {rev : Bool} (h : Keeps G s t)  (w_regs : G .regs = true) :
    Keeps G s (State.backstop t u0 rev).1 := by
  unfold State.backstop
  try lift_lets
  repeat' first | (with_reducible assumption) | intro _ | with_reducible first | apply Keeps.setFld | (with_reducible apply Keeps.ite) | split | (dsimp +zetaDelta only)

theorem Keeps.aEdge {u0 : Nat} {e0 : SpdCap} (h : Keeps G s t)  (w_regs : G .regs = true) (w_mem : G .mem = true) (w_host : G .host = true) (w_flt : G .flt = true) (w_log : G .log = true) (w_field : G .field = true) :
    Keeps G s (State.aEdge t u0 e0) := by
  unfold State.aEdge
  try lift_lets
  repeat' first | (with_reducible assumption) | intro _ | with_reducible first | apply Keeps.backstop | apply Keeps.spdFault | apply Keeps.spdHeal | apply Keeps.posEdge | apply Keeps.spdEdge | apply Keeps.modSpd | apply Keeps.setFld | apply Keeps.wr64 | apply Keeps.bump | (with_reducible apply Keeps.ite) | refine Keeps.of_fst (by with_reducible assumption) ?_ | split | (dsimp +zetaDelta only)

theorem Keeps.takeEdge {u0 : Nat} {e0 : SpdCap} (h : Keeps G s t)  (w_regs : G .regs = true) (w_mem : G .mem = true) (w_host : G .host = true) (w_flt : G .flt = true) (w_log : G .log = true) (w_field : G .field = true) :
    Keeps G s (State.takeEdge t u0 e0) := by
  unfold State.takeEdge
  repeat' first | (with_reducible assumption) | intro _ | with_reducible first | apply Keeps.idxEdge | apply Keeps.aEdge | (with_reducible apply Keeps.ite) | split

theorem Keeps.takeSome {u0 : Nat} {p : SpdCap → Bool} (h : Keeps G s t)  (w_regs : G .regs = true) (w_mem : G .mem = true) (w_host : G .host = true) (w_flt : G .flt = true) (w_log : G .log = true) (w_field : G .field = true) :
    Keeps G s (State.takeSome t u0 p) := by
  unfold State.takeSome
  try lift_lets
  repeat' first | (with_reducible assumption) | intro _ | with_reducible first | apply Keeps.takeEdge | apply Keeps.modSpd | apply Keeps.setFld | apply Keeps.each | (with_reducible apply Keeps.ite) | split | (dsimp +zetaDelta only)

theorem Keeps.takeEdges {u0 : Nat} {t0 : Nat} (h : Keeps G s t)  (w_regs : G .regs = true) (w_mem : G .mem = true) (w_host : G .host = true) (w_flt : G .flt = true) (w_log : G .log = true) (w_field : G .field = true) :
    Keeps G s (State.takeEdges t u0 t0) := by
  unfold State.takeEdges
  repeat' first | (with_reducible assumption) | intro _ | with_reducible first | apply Keeps.takeSome | (with_reducible apply Keeps.ite) | split

theorem Keeps.spdCmd {m : Master} {u0 : Nat} {v : Word} (h : Keeps G s t)  (w_regs : G .regs = true) (w_mem : G .mem = true) (w_host : G .host = true) (w_flt : G .flt = true) (w_log : G .log = true) (w_cfg : G .cfg = true) (w_field : G .field = true) :
    Keeps G s (State.spdCmd t m u0 v) := by
  unfold State.spdCmd
  try lift_lets
  repeat' first | (with_reducible assumption) | intro _ | with_reducible first | apply Keeps.spdHeal | apply Keeps.regCmd | apply Keeps.modSpd | apply Keeps.setBit | (with_reducible apply Keeps.ite) | split | (dsimp +zetaDelta only)

theorem Keeps.spdSense {u0 : Nat} {w : Nat} (h : Keeps G s t)  (w_regs : G .regs = true) (w_mem : G .mem = true) (w_host : G .host = true) (w_flt : G .flt = true) (w_log : G .log = true) (w_field : G .field = true) :
    Keeps G s (State.spdSense t u0 w) := by
  unfold State.spdSense
  repeat' first | (with_reducible assumption) | intro _ | with_reducible first | apply Keeps.spdFault | apply Keeps.spdHeal | apply Keeps.setFld | apply Keeps.raise | (with_reducible apply Keeps.ite) | refine Keeps.of_fst (by with_reducible assumption) ?_ | split

theorem Keeps.winWord {u0 : Nat} {w : Nat} (h : Keeps G s t)  (w_regs : G .regs = true) (w_mem : G .mem = true) (w_eng : G .eng = true) (w_field : G .field = true) :
    Keeps G s (State.winWord t u0 w) := by
  unfold State.winWord
  try lift_lets
  repeat' first | (with_reducible assumption) | intro _ | with_reducible first | apply Keeps.produce | apply Keeps.modSpd | apply Keeps.setFld | (with_reducible apply Keeps.ite) | split | (dsimp +zetaDelta only)

theorem Keeps.speedWord {u0 : Nat} {w : Nat} (h : Keeps G s t)  (w_mem : G .mem = true) (w_eng : G .eng = true) (w_free : G .free = true) :
    Keeps G s (State.speedWord t u0 w) := by
  unfold State.speedWord
  repeat' first | (with_reducible assumption) | intro _ | with_reducible first | apply Keeps.useFree | apply Keeps.produce | (with_reducible apply Keeps.ite) | split

theorem Keeps.spdWrite {u0 : Nat} {w : Nat} (h : Keeps G s t)  (w_regs : G .regs = true) (w_mem : G .mem = true) (w_host : G .host = true) (w_eng : G .eng = true) (w_flt : G .flt = true) (w_log : G .log = true) (w_field : G .field = true) (w_free : G .free = true) :
    Keeps G s (State.spdWrite t u0 w) := by
  unfold State.spdWrite
  try lift_lets
  repeat' first | (with_reducible assumption) | intro _ | with_reducible first | apply Keeps.takeEdges | apply Keeps.speedWord | apply Keeps.takeSome | apply Keeps.spdSense | apply Keeps.winWord | apply Keeps.produce | (with_reducible apply Keeps.ite) | split | (dsimp +zetaDelta only)

end Sys2Proof.Laws
end

