-- ==== Sys2Proof/Laws/KeepsFabric.lean ====
section
/-! SUPPORT. Which groups of the state the operations of Frames, Ports, Fabric, FabricData, Net change. -/

namespace Sys2Proof.Laws

open Sys2Proof Sys2Proof.Machine

variable {G : Group → Bool} {s t : State}

theorem Keeps.modKeySlot {o : Nat} {k : Nat} {f : KeySlot → KeySlot} (h : Keeps G s t)  (w_net : G .net = true) :
    Keeps G s (State.modKeySlot t o k f) := by
  unfold State.modKeySlot
  repeat' first | (with_reducible assumption) | intro _ | with_reducible first | apply Keeps.modNet | (with_reducible apply Keeps.ite) | split

theorem Keeps.keyMissing {o : Nat} (h : Keeps G s t)  (w_regs : G .regs = true) (w_flt : G .flt = true) (w_net : G .net = true) :
    Keeps G s (State.keyMissing t o) := by
  unfold State.keyMissing
  repeat' first | (with_reducible assumption) | intro _ | with_reducible first | apply Keeps.raise | apply Keeps.modNet | (with_reducible apply Keeps.ite) | split

theorem Keeps.keyThere {o : Nat} (h : Keeps G s t)  (w_net : G .net = true) :
    Keeps G s (State.keyThere t o) := by
  unfold State.keyThere
  repeat' first | (with_reducible assumption) | intro _ | with_reducible first | apply Keeps.modNet | (with_reducible apply Keeps.ite) | split

theorem Keeps.modPort {p : Nat} {f : PortSt → PortSt} (h : Keeps G s t)  (w_fab : G .fab = true) :
    Keeps G s (State.modPort t p f) := by
  unfold State.modPort
  repeat' first | (with_reducible assumption) | intro _ | with_reducible first | apply Keeps.modFab | (with_reducible apply Keeps.ite) | split

theorem Keeps.portRaise {p : Nat} {k : Nat} (h : Keeps G s t)  (w_regs : G .regs = true) (w_flt : G .flt = true) :
    Keeps G s (State.portRaise t p k) := by
  unfold State.portRaise
  repeat' first | (with_reducible assumption) | intro _ | with_reducible first | apply Keeps.raise | (with_reducible apply Keeps.ite) | split

theorem Keeps.portCount {p : Nat} {bytes : Nat} (h : Keeps G s t)  (w_regs : G .regs = true) (w_fab : G .fab = true) :
    Keeps G s (State.portCount t p bytes) := by
  unfold State.portCount
  try lift_lets
  repeat' first | (with_reducible assumption) | intro _ | with_reducible first | apply Keeps.modPort | apply Keeps.setFld | (with_reducible apply Keeps.ite) | split | (dsimp +zetaDelta only)

theorem Keeps.portSent {p : Nat} {n : Nat} {slot : Option Nat} (h : Keeps G s t)  (w_regs : G .regs = true) (w_fab : G .fab = true) (w_net : G .net = true) :
    Keeps G s (State.portSent t p n slot) := by
  unfold State.portSent
  try lift_lets
  repeat' first | (with_reducible assumption) | intro _ | with_reducible first | apply Keeps.portCount | apply Keeps.keyThere | apply Keeps.modPort | apply Keeps.setFld | (with_reducible apply Keeps.ite) | refine Keeps.of_fst (by with_reducible assumption) ?_ | split | (dsimp +zetaDelta only)

theorem Keeps.sendFrame {p : Nat} {h0 : FrameHdr} {dest : Nat} {payload : List Byte} {bad : Bool} (h : Keeps G s t)  (w_regs : G .regs = true) (w_host : G .host = true) (w_flt : G .flt = true) (w_fab : G .fab = true) (w_net : G .net = true) :
    Keeps G s (State.sendFrame t p h0 dest payload bad) := by
  unfold State.sendFrame
  try lift_lets
  repeat' first | (with_reducible assumption) | intro _ | with_reducible first | apply Keeps.keyMissing | apply Keeps.portSent | apply Keeps.emit | (with_reducible apply Keeps.ite) | refine Keeps.of_fst (by with_reducible assumption) ?_ | split | (dsimp +zetaDelta only)

theorem Keeps.sendOwn {p : Nat} {typ : Nat} {hops : Nat} {dest : Nat} {payload : List Byte} (h : Keeps G s t)  (w_regs : G .regs = true) (w_host : G .host = true) (w_flt : G .flt = true) (w_fab : G .fab = true) (w_net : G .net = true) :
    Keeps G s (State.sendOwn t p typ hops dest payload) := by
  unfold State.sendOwn
  repeat' first | (with_reducible assumption) | intro _ | with_reducible first | apply Keeps.sendFrame | (with_reducible apply Keeps.ite) | split

theorem Keeps.sendCtlOr {bad : Bool} {p : Nat} {ctype : Nat} {hops : Nat} {port : Nat} {origin : Nat} {arg : List Byte} (h : Keeps G s t)  (w_regs : G .regs = true) (w_host : G .host = true) (w_flt : G .flt = true) (w_fab : G .fab = true) (w_net : G .net = true) :
    Keeps G s (State.sendCtlOr t bad p ctype hops port origin arg) := by
  unfold State.sendCtlOr
  try lift_lets
  repeat' first | (with_reducible assumption) | intro _ | with_reducible first | apply Keeps.keyMissing | apply Keeps.portSent | apply Keeps.emit | (with_reducible apply Keeps.ite) | refine Keeps.of_fst (by with_reducible assumption) ?_ | split | (dsimp +zetaDelta only)

theorem Keeps.sendCtl {p : Nat} {ctype : Nat} {hops : Nat} {port : Nat} {origin : Nat} {arg : List Byte} (h : Keeps G s t)  (w_regs : G .regs = true) (w_host : G .host = true) (w_flt : G .flt = true) (w_fab : G .fab = true) (w_net : G .net = true) :
    Keeps G s (State.sendCtl t p ctype hops port origin arg) := by
  unfold State.sendCtl
  repeat' first | (with_reducible assumption) | intro _ | with_reducible first | apply Keeps.sendCtlOr | (with_reducible apply Keeps.ite) | split

theorem Keeps.sendHello {p : Nat} (h : Keeps G s t)  (w_regs : G .regs = true) (w_host : G .host = true) (w_flt : G .flt = true) (w_fab : G .fab = true) (w_net : G .net = true) :
    Keeps G s (State.sendHello t p) := by
  unfold State.sendHello
  repeat' first | (with_reducible assumption) | intro _ | with_reducible first | apply Keeps.sendCtl | (with_reducible apply Keeps.ite) | split

theorem Keeps.sendBeat {p : Nat} (h : Keeps G s t)  (w_regs : G .regs = true) (w_host : G .host = true) (w_flt : G .flt = true) (w_fab : G .fab = true) (w_net : G .net = true) :
    Keeps G s (State.sendBeat t p) := by
  unfold State.sendBeat
  repeat' first | (with_reducible assumption) | intro _ | with_reducible first | apply Keeps.sendCtl | apply Keeps.modPort | (with_reducible apply Keeps.ite) | split

theorem Keeps.sayHello {p : Nat} (h : Keeps G s t)  (w_regs : G .regs = true) (w_host : G .host = true) (w_flt : G .flt = true) (w_fab : G .fab = true) (w_net : G .net = true) :
    Keeps G s (State.sayHello t p) := by
  unfold State.sayHello
  repeat' first | (with_reducible assumption) | intro _ | with_reducible first | apply Keeps.sendHello | apply Keeps.modPort | (with_reducible apply Keeps.ite) | split

theorem Keeps.portBeat {p : Nat} (h : Keeps G s t)  (w_regs : G .regs = true) (w_host : G .host = true) (w_flt : G .flt = true) (w_fab : G .fab = true) (w_net : G .net = true) :
    Keeps G s (State.portBeat t p) := by
  unfold State.portBeat
  repeat' first | (with_reducible assumption) | intro _ | with_reducible first | apply Keeps.sayHello | apply Keeps.sendBeat | (with_reducible apply Keeps.ite) | split

theorem Keeps.lineIn {p : Nat} {l : RxLine} (h : Keeps G s t)  (w_regs : G .regs = true) (w_flt : G .flt = true) (w_fab : G .fab = true) :
    Keeps G s (State.lineIn t p l) := by
  unfold State.lineIn
  try lift_lets
  repeat' first | (with_reducible assumption) | intro _ | with_reducible first | apply Keeps.portRaise | apply Keeps.modPort | apply Keeps.wr64 | apply Keeps.each | apply Keeps.bump | (with_reducible apply Keeps.ite) | split | (dsimp +zetaDelta only)

theorem Keeps.portHeard {p : Nat} (h : Keeps G s t)  (w_regs : G .regs = true) (w_fab : G .fab = true) :
    Keeps G s (State.portHeard t p) := by
  unfold State.portHeard
  try lift_lets
  repeat' first | (with_reducible assumption) | intro _ | with_reducible first | apply Keeps.modPort | apply Keeps.bump | (with_reducible apply Keeps.ite) | split | (dsimp +zetaDelta only)

theorem Keeps.authFail {p : Nat} (h : Keeps G s t)  (w_regs : G .regs = true) (w_flt : G .flt = true) :
    Keeps G s (State.authFail t p) := by
  unfold State.authFail
  repeat' first | (with_reducible assumption) | intro _ | with_reducible first | apply Keeps.portRaise | apply Keeps.bump | (with_reducible apply Keeps.ite) | split

theorem Keeps.setHash16 {h0 : Nat} (h : Keeps G s t)  (w_regs : G .regs = true) :
    Keeps G s (State.setHash16 t h0) := by
  unfold State.setHash16
  repeat' first | (with_reducible assumption) | intro _ | with_reducible first | apply Keeps.each | apply Keeps.wrN | (with_reducible apply Keeps.ite) | split

theorem Keeps.commitGuard {role : Nat} {master : Nat} (h : Keeps G s t)  (w_cfg : G .cfg = true) :
    Keeps G s (State.commitGuard t role master) := by
  unfold State.commitGuard
  repeat' first | (with_reducible assumption) | intro _ | with_reducible first | apply Keeps.setHash16 | apply Keeps.modCfg | (with_reducible apply Keeps.ite) | split

theorem Keeps.setSwitchAt {t0 : Nat} (h : Keeps G s t)  (w_regs : G .regs = true) (w_cfg : G .cfg = true) :
    Keeps G s (State.setSwitchAt t t0) := by
  unfold State.setSwitchAt
  repeat' first | (with_reducible assumption) | intro _ | with_reducible first | apply Keeps.commitGuard | apply Keeps.wr64 | apply Keeps.modCfg | (with_reducible apply Keeps.ite) | split

theorem Keeps.hashSeen {h0 : Nat} (h : Keeps G s t)  (w_regs : G .regs = true) (w_flt : G .flt = true) (w_cfg : G .cfg = true) :
    Keeps G s (State.hashSeen t h0) := by
  unfold State.hashSeen
  repeat' first | (with_reducible assumption) | intro _ | with_reducible first | apply Keeps.setSwitchAt | apply Keeps.raise0 | (with_reducible apply Keeps.ite) | refine Keeps.of_fst (by with_reducible assumption) ?_ | split

theorem Keeps.rxFrame {p : Nat} {typ : Nat} {lo : Nat} {hi : Nat} {bs : List Byte} {ln : RxLine} (h : Keeps G s t)  (w_regs : G .regs = true) (w_flt : G .flt = true) (w_cfg : G .cfg = true) (w_fab : G .fab = true) :
    Keeps G s (State.rxFrame t p typ lo hi bs ln).1 := by
  unfold State.rxFrame
  try lift_lets
  repeat' first | (with_reducible assumption) | intro _ | with_reducible first | apply Keeps.portRaise | apply Keeps.portHeard | apply Keeps.authFail | apply Keeps.hashSeen | apply Keeps.lineIn | apply Keeps.bump | (with_reducible apply Keeps.ite) | split | (dsimp +zetaDelta only)

theorem Keeps.forward {old : State} {p : Nat} {lo : Nat} {hi : Nat} {bs : List Byte} {ln : RxLine} (h : Keeps G s t)  (w_regs : G .regs = true) (w_host : G .host = true) (w_flt : G .flt = true) (w_fab : G .fab = true) (w_net : G .net = true) :
    Keeps G s (State.forward t old p lo hi bs ln) := by
  unfold State.forward
  repeat' first | (with_reducible assumption) | intro _ | with_reducible first | apply Keeps.sendFrame | (with_reducible apply Keeps.ite) | split

theorem Keeps.rxPass {p : Nat} {typ : Nat} {lo : Nat} {hi : Nat} {bs : List Byte} {ln : RxLine} (h : Keeps G s t)  (w_regs : G .regs = true) (w_host : G .host = true) (w_flt : G .flt = true) (w_cfg : G .cfg = true) (w_fab : G .fab = true) (w_net : G .net = true) :
    Keeps G s (State.rxPass t p typ lo hi bs ln).1 := by
  unfold State.rxPass
  try lift_lets
  repeat' first | (with_reducible assumption) | intro _ | with_reducible first | apply Keeps.forward | apply Keeps.rxFrame | (with_reducible apply Keeps.ite) | split | (dsimp +zetaDelta only)

theorem Keeps.rxCtl {p : Nat} {ctype : Nat} {bs : List Byte} {ln : RxLine} (h : Keeps G s t)  (w_regs : G .regs = true) (w_flt : G .flt = true) (w_fab : G .fab = true) :
    Keeps G s (State.rxCtl t p ctype bs ln).1 := by
  unfold State.rxCtl
  try lift_lets
  repeat' first | (with_reducible assumption) | intro _ | with_reducible first | apply Keeps.portHeard | apply Keeps.authFail | apply Keeps.lineIn | apply Keeps.bump | (with_reducible apply Keeps.ite) | split | (dsimp +zetaDelta only)

theorem Keeps.forwardCtl {p : Nat} {bs : List Byte} {bad : Bool} (h : Keeps G s t)  (w_regs : G .regs = true) (w_host : G .host = true) (w_flt : G .flt = true) (w_fab : G .fab = true) (w_net : G .net = true) :
    Keeps G s (State.forwardCtl t p bs bad) := by
  unfold State.forwardCtl
  repeat' first | (with_reducible assumption) | intro _ | with_reducible first | apply Keeps.sendCtlOr | (with_reducible apply Keeps.ite) | split

theorem Keeps.rxRelay {p : Nat} {ctype : Nat} {bs : List Byte} {ln : RxLine} (h : Keeps G s t)  (w_regs : G .regs = true) (w_host : G .host = true) (w_flt : G .flt = true) (w_fab : G .fab = true) (w_net : G .net = true) :
    Keeps G s (State.rxRelay t p ctype bs ln).1 := by
  unfold State.rxRelay
  try lift_lets
  repeat' first | (with_reducible assumption) | intro _ | with_reducible first | apply Keeps.forwardCtl | apply Keeps.rxCtl | (with_reducible apply Keeps.ite) | split | (dsimp +zetaDelta only)

theorem Keeps.atTick {t0 : Nat} (h : Keeps G s t)  (w_mer : G .mer = true) :
    Keeps G s (State.atTick t t0) := by
  unfold State.atTick
  repeat' first | (with_reducible assumption) | intro _ | with_reducible first | apply Keeps.advanceTo | (with_reducible apply Keeps.ite) | split

theorem Keeps.setPort {p : Nat} {k : Nat} (h : Keeps G s t)  (w_regs : G .regs = true) (w_fab : G .fab = true) :
    Keeps G s (State.setPort t p k) := by
  unfold State.setPort
  repeat' first | (with_reducible assumption) | intro _ | with_reducible first | apply Keeps.modPort | apply Keeps.setBit | apply Keeps.setFld | (with_reducible apply Keeps.ite) | split

theorem Keeps.laneBits {p : Nat} {lo : Nat} {n : Nat} {v : Nat} (h : Keeps G s t)  (w_regs : G .regs = true) :
    Keeps G s (State.laneBits t p lo n v) := by
  unfold State.laneBits
  repeat' first | (with_reducible assumption) | intro _ | with_reducible first | apply Keeps.setFld | apply Keeps.each | (with_reducible apply Keeps.ite) | split

theorem Keeps.portDetect {p : Nat} (h : Keeps G s t)  (w_regs : G .regs = true) (w_fab : G .fab = true) :
    Keeps G s (State.portDetect t p) := by
  unfold State.portDetect
  repeat' first | (with_reducible assumption) | intro _ | with_reducible first | apply Keeps.laneBits | apply Keeps.setPort | (with_reducible apply Keeps.ite) | split

theorem Keeps.eyeSet {l : Nat} {h0 : Nat} {w : Nat} (h : Keeps G s t)  (w_regs : G .regs = true) :
    Keeps G s (State.eyeSet t l h0 w) := by
  unfold State.eyeSet
  try lift_lets
  repeat' first | (with_reducible assumption) | intro _ | with_reducible first | apply Keeps.wrN | (with_reducible apply Keeps.ite) | split | (dsimp +zetaDelta only)

theorem Keeps.isolate {p : Nat} (h : Keeps G s t)  (w_regs : G .regs = true) (w_flt : G .flt = true) (w_fab : G .fab = true) :
    Keeps G s (State.isolate t p) := by
  unfold State.isolate
  repeat' first | (with_reducible assumption) | intro _ | with_reducible first | apply Keeps.portRaise | apply Keeps.setPort | (with_reducible apply Keeps.ite) | split

theorem Keeps.sendNotice {on_ : Nat} {p : Nat} {sf : Nat} (h : Keeps G s t)  (w_regs : G .regs = true) (w_host : G .host = true) (w_flt : G .flt = true) (w_fab : G .fab = true) (w_net : G .net = true) :
    Keeps G s (State.sendNotice t on_ p sf) := by
  unfold State.sendNotice
  repeat' first | (with_reducible assumption) | intro _ | with_reducible first | apply Keeps.sendCtl | (with_reducible apply Keeps.ite) | split

theorem Keeps.portGoUp {p : Nat} {origin : Nat} (h : Keeps G s t)  (w_regs : G .regs = true) (w_host : G .host = true) (w_flt : G .flt = true) (w_fab : G .fab = true) (w_net : G .net = true) :
    Keeps G s (State.portGoUp t p origin) := by
  unfold State.portGoUp
  try lift_lets
  repeat' first | (with_reducible assumption) | intro _ | with_reducible first | apply Keeps.sendNotice | apply Keeps.sendBeat | apply Keeps.modPort | apply Keeps.setPort | apply Keeps.setBit | apply Keeps.setFld | (with_reducible apply Keeps.ite) | refine Keeps.of_fst (by with_reducible assumption) ?_ | split | (dsimp +zetaDelta only)

theorem Keeps.hello {p : Nat} {bs : List Byte} {ln : RxLine} (h : Keeps G s t)  (w_regs : G .regs = true) (w_host : G .host = true) (w_flt : G .flt = true) (w_fab : G .fab = true) (w_net : G .net = true) :
    Keeps G s (State.hello t p bs ln) := by
  unfold State.hello
  try lift_lets
  repeat' first | (with_reducible assumption) | intro _ | with_reducible first | apply Keeps.sendHello | apply Keeps.portGoUp | apply Keeps.modPort | apply Keeps.isolate | apply Keeps.rxCtl | (with_reducible apply Keeps.ite) | refine Keeps.of_fst (by with_reducible assumption) ?_ | split | (dsimp +zetaDelta only)

theorem Keeps.portCmd {m : Master} {p : Nat} {v : Word} (h : Keeps G s t)  (w_regs : G .regs = true) (w_host : G .host = true) (w_flt : G .flt = true) (w_cfg : G .cfg = true) (w_fab : G .fab = true) :
    Keeps G s (State.portCmd t m p v) := by
  unfold State.portCmd
  repeat' first | (with_reducible assumption) | intro _ | with_reducible first | apply Keeps.portDetect | apply Keeps.regCmd | (with_reducible apply Keeps.ite) | split

theorem Keeps.setTok {p : Nat} {t0 : Tok} (h : Keeps G s t)  (w_regs : G .regs = true) (w_fab : G .fab = true) :
    Keeps G s (State.setTok t p t0) := by
  unfold State.setTok
  try lift_lets
  repeat' first | (with_reducible assumption) | intro _ | with_reducible first | apply Keeps.setBit | apply Keeps.modTok | (with_reducible apply Keeps.ite) | split | (dsimp +zetaDelta only)

theorem Keeps.tokenSeen {home : Nat} {part : Nat} {epoch : Nat} {owner : Nat} (h : Keeps G s t)  (w_regs : G .regs = true) (w_flt : G .flt = true) (w_fab : G .fab = true) :
    Keeps G s (State.tokenSeen t home part epoch owner) := by
  unfold State.tokenSeen
  try lift_lets
  repeat' first | (with_reducible assumption) | intro _ | with_reducible first | apply Keeps.setTok | apply Keeps.raise | apply Keeps.modFab | (with_reducible apply Keeps.ite) | refine Keeps.of_fst (by with_reducible assumption) ?_ | split | (dsimp +zetaDelta only)

theorem Keeps.sendToken {p : Nat} (h : Keeps G s t)  (w_regs : G .regs = true) (w_host : G .host = true) (w_flt : G .flt = true) (w_fab : G .fab = true) (w_net : G .net = true) :
    Keeps G s (State.sendToken t p) := by
  unfold State.sendToken
  try lift_lets
  repeat' first | (with_reducible assumption) | intro _ | with_reducible first | apply Keeps.sendCtl | apply Keeps.each | (with_reducible apply Keeps.ite) | split | (dsimp +zetaDelta only)

theorem Keeps.mirrorGap {p : Option Nat} (h : Keeps G s t)  (w_regs : G .regs = true) (w_eng : G .eng = true) (w_flt : G .flt = true) :
    Keeps G s (State.mirrorGap t p) := by
  unfold State.mirrorGap
  try lift_lets
  repeat' first | (with_reducible assumption) | intro _ | with_reducible first | apply Keeps.modPart | apply Keeps.setBit | apply Keeps.raise | apply Keeps.bump | refine Keeps.modEng ?_ (fun _ => rfl) ?_ | (with_reducible apply Keeps.ite) | refine Keeps.of_fst (by with_reducible assumption) ?_ | split | (dsimp +zetaDelta only)

theorem Keeps.takeover {p : Nat} (h : Keeps G s t)  (w_regs : G .regs = true) (w_host : G .host = true) (w_eng : G .eng = true) (w_flt : G .flt = true) (w_fab : G .fab = true) (w_net : G .net = true) (w_free : G .free = true) :
    Keeps G s (State.takeover t p) := by
  unfold State.takeover
  try lift_lets
  repeat' first | (with_reducible assumption) | intro _ | with_reducible first | apply Keeps.sendToken | apply Keeps.modPart | apply Keeps.useFree | apply Keeps.setFld | apply Keeps.setTok | apply Keeps.raise | (with_reducible apply Keeps.ite) | refine Keeps.of_fst (by with_reducible assumption) ?_ | split | (dsimp +zetaDelta only)

theorem Keeps.takeovers  (h : Keeps G s t)  (w_regs : G .regs = true) (w_host : G .host = true) (w_eng : G .eng = true) (w_flt : G .flt = true) (w_fab : G .fab = true) (w_net : G .net = true) (w_free : G .free = true) :
    Keeps G s (State.takeovers t) := by
  unfold State.takeovers
  try lift_lets
  repeat' first | (with_reducible assumption) | intro _ | with_reducible first | apply Keeps.mirrorGap | apply Keeps.takeover | apply Keeps.each | refine Keeps.modEng ?_ (fun _ => rfl) ?_ | (with_reducible apply Keeps.ite) | split | (dsimp +zetaDelta only)

theorem Keeps.linkDown {p : Nat} {fec : Bool} (h : Keeps G s t)  (w_regs : G .regs = true) (w_host : G .host = true) (w_eng : G .eng = true) (w_flt : G .flt = true) (w_mer : G .mer = true) (w_fab : G .fab = true) (w_net : G .net = true) (w_free : G .free = true) :
    Keeps G s (State.linkDown t p fec) := by
  unfold State.linkDown
  try lift_lets
  repeat' first | (with_reducible assumption) | intro _ | with_reducible first | apply Keeps.sendNotice | apply Keeps.portDetect | apply Keeps.takeovers | apply Keeps.portRaise | apply Keeps.advanceTo | apply Keeps.modPort | apply Keeps.wr64 | apply Keeps.each | apply Keeps.bump | (with_reducible apply Keeps.ite) | split | (dsimp +zetaDelta only)

theorem Keeps.tokenCmd {m : Master} {v : Word} (h : Keeps G s t)  (w_regs : G .regs = true) (w_host : G .host = true) (w_flt : G .flt = true) (w_cfg : G .cfg = true) (w_fab : G .fab = true) :
    Keeps G s (State.tokenCmd t m v) := by
  unfold State.tokenCmd
  try lift_lets
  repeat' first | (with_reducible assumption) | intro _ | with_reducible first | apply Keeps.cmdWrite | apply Keeps.modTok | (with_reducible apply Keeps.ite) | split | (dsimp +zetaDelta only)

theorem Keeps.fwdTake  (h : Keeps G s t)  (w_fab : G .fab = true) :
    Keeps G s (State.fwdTake t) := by
  unfold State.fwdTake
  try lift_lets
  repeat' first | (with_reducible assumption) | intro _ | with_reducible first | apply Keeps.when | apply Keeps.modFab | (with_reducible apply Keeps.ite) | split | (dsimp +zetaDelta only)

theorem Keeps.fwdWord {v : Nat} {w : Csw} (h : Keeps G s t)  (w_regs : G .regs = true) (w_flt : G .flt = true) :
    Keeps G s (State.fwdWord t v w).1 := by
  unfold State.fwdWord
  repeat' first | (with_reducible assumption) | intro _ | with_reducible first | apply Keeps.raise0 | (with_reducible apply Keeps.ite) | split

theorem Keeps.fwdWords {t0 : Nat} (h : Keeps G s t)  (w_regs : G .regs = true) (w_flt : G .flt = true) :
    Keeps G s (State.fwdWords t t0).1 := by
  unfold State.fwdWords
  try lift_lets
  repeat' first | (with_reducible assumption) | intro _ | with_reducible first | apply Keeps.fwdWord | apply Keeps.foldl | apply Keeps.foldlFst | (with_reducible apply Keeps.ite) | split | (dsimp +zetaDelta only)

theorem Keeps.classWords {spine : Bool} (h : Keeps G s t)  (w_regs : G .regs = true) (w_flt : G .flt = true) :
    Keeps G s (State.classWords t spine).1 := by
  unfold State.classWords
  try lift_lets
  repeat' first | (with_reducible assumption) | intro _ | with_reducible first | apply Keeps.fwdWords | (with_reducible apply Keeps.ite) | split | (dsimp +zetaDelta only)

theorem Keeps.windowStart {spine : Bool} (h : Keeps G s t)  (w_regs : G .regs = true) (w_host : G .host = true) (w_flt : G .flt = true) (w_mer : G .mer = true) (w_fab : G .fab = true) (w_net : G .net = true) :
    Keeps G s (State.windowStart t spine) := by
  unfold State.windowStart
  try lift_lets
  repeat' first | (with_reducible assumption) | intro _ | with_reducible first | apply Keeps.classWords | apply Keeps.sendOwn | apply Keeps.atTick | apply Keeps.each | (with_reducible apply Keeps.ite) | refine Keeps.of_fst (by with_reducible assumption) ?_ | split | (dsimp +zetaDelta only)

theorem Keeps.rxPut {v : Nat} {w : Csw} {safe : Bool} (h : Keeps G s t)  (w_mem : G .mem = true) (w_eng : G .eng = true) (w_fab : G .fab = true) :
    Keeps G s (State.rxPut t v w safe) := by
  unfold State.rxPut
  repeat' first | (with_reducible assumption) | intro _ | with_reducible first | apply Keeps.imgWr | apply Keeps.modFab | (with_reducible apply Keeps.ite) | split

theorem Keeps.rxFault {v : Nat} {safe : Bool} (h : Keeps G s t)  (w_mem : G .mem = true) (w_eng : G .eng = true) (w_fab : G .fab = true) :
    Keeps G s (State.rxFault t v safe) := by
  unfold State.rxFault
  repeat' first | (with_reducible assumption) | intro _ | with_reducible first | apply Keeps.rxPut | (with_reducible apply Keeps.ite) | split

theorem Keeps.rxChosen {v : Nat} {c : Csw × Bool} (h : Keeps G s t)  (w_regs : G .regs = true) (w_mem : G .mem = true) (w_eng : G .eng = true) (w_flt : G .flt = true) (w_fab : G .fab = true) :
    Keeps G s (State.rxChosen t v c) := by
  unfold State.rxChosen
  repeat' first | (with_reducible assumption) | intro _ | with_reducible first | apply Keeps.rxFault | apply Keeps.raise0 | apply Keeps.rxPut | apply Keeps.bump | (with_reducible apply Keeps.ite) | split

theorem Keeps.planeSingle {pl : Nat} (h : Keeps G s t)  (w_regs : G .regs = true) (w_flt : G .flt = true) (w_fab : G .fab = true) :
    Keeps G s (State.planeSingle t pl) := by
  unfold State.planeSingle
  repeat' first | (with_reducible assumption) | intro _ | with_reducible first | apply Keeps.raise | apply Keeps.modFab | (with_reducible apply Keeps.ite) | split

theorem Keeps.planeFail {pl : Nat} (h : Keeps G s t)  (w_regs : G .regs = true) :
    Keeps G s (State.planeFail t pl) := by
  unfold State.planeFail
  repeat' first | (with_reducible assumption) | intro _ | with_reducible first | apply Keeps.bump | (with_reducible apply Keeps.ite) | split

theorem Keeps.rxDeadline {spine : Bool} {k : Nat} {v : Nat} (h : Keeps G s t)  (w_regs : G .regs = true) (w_mem : G .mem = true) (w_eng : G .eng = true) (w_flt : G .flt = true) (w_fab : G .fab = true) :
    Keeps G s (State.rxDeadline t spine k v) := by
  unfold State.rxDeadline
  try lift_lets
  repeat' first | (with_reducible assumption) | intro _ | with_reducible first | apply Keeps.planeSingle | apply Keeps.planeFail | apply Keeps.rxChosen | apply Keeps.rxFault | apply Keeps.raise | apply Keeps.bump | (with_reducible apply Keeps.ite) | refine Keeps.of_fst (by with_reducible assumption) ?_ | split | (dsimp +zetaDelta only)

theorem Keeps.writeDeadline {spine : Bool} {k : Nat} (h : Keeps G s t)  (w_regs : G .regs = true) (w_mem : G .mem = true) (w_eng : G .eng = true) (w_flt : G .flt = true) (w_mer : G .mer = true) (w_fab : G .fab = true) :
    Keeps G s (State.writeDeadline t spine k) := by
  unfold State.writeDeadline
  try lift_lets
  repeat' first | (with_reducible assumption) | intro _ | with_reducible first | apply Keeps.rxDeadline | apply Keeps.atTick | apply Keeps.each | apply Keeps.modFab | (with_reducible apply Keeps.ite) | split | (dsimp +zetaDelta only)

theorem Keeps.rxWords {f : RxFrame} (h : Keeps G s t)  (w_regs : G .regs = true) (w_mem : G .mem = true) (w_eng : G .eng = true) (w_flt : G .flt = true) (w_fab : G .fab = true) :
    Keeps G s (State.rxWords t f) := by
  unfold State.rxWords
  repeat' first | (with_reducible assumption) | intro _ | with_reducible first | apply Keeps.rxChosen | apply Keeps.raise | apply Keeps.each | apply Keeps.bump | (with_reducible apply Keeps.ite) | refine Keeps.of_fst (by with_reducible assumption) ?_ | split

theorem Keeps.rxTokens {origin : Nat} {pl : List Byte} (h : Keeps G s t)  (w_regs : G .regs = true) (w_flt : G .flt = true) (w_fab : G .fab = true) :
    Keeps G s (State.rxTokens t origin pl) := by
  unfold State.rxTokens
  try lift_lets
  repeat' first | (with_reducible assumption) | intro _ | with_reducible first | apply Keeps.tokenSeen | apply Keeps.each | (with_reducible apply Keeps.ite) | split | (dsimp +zetaDelta only)

theorem Keeps.noticeEnd {pl : Nat} {k : Nat} {west : Bool} (h : Keeps G s t)  (w_fab : G .fab = true) :
    Keeps G s (State.noticeEnd t pl k west) := by
  unfold State.noticeEnd
  try lift_lets
  repeat' first | (with_reducible assumption) | intro _ | with_reducible first | apply Keeps.modFab | (with_reducible apply Keeps.ite) | split | (dsimp +zetaDelta only)

theorem Keeps.imageFrame {spine : Bool} {p : Nat} {bs : List Byte} {ln : RxLine} (h : Keeps G s t)  (w_regs : G .regs = true) (w_mem : G .mem = true) (w_host : G .host = true) (w_eng : G .eng = true) (w_flt : G .flt = true) (w_cfg : G .cfg = true) (w_fab : G .fab = true) (w_net : G .net = true) :
    Keeps G s (State.imageFrame t spine p bs ln) := by
  unfold State.imageFrame
  try lift_lets
  repeat' first | (with_reducible assumption) | intro _ | with_reducible first | apply Keeps.noticeEnd | apply Keeps.rxTokens | apply Keeps.rxWords | apply Keeps.rxPass | apply Keeps.modFab | (with_reducible apply Keeps.ite) | split | (dsimp +zetaDelta only)

theorem Keeps.setMaster {k : Nat} (h : Keeps G s t)  (w_dev : G .dev = true) (w_regs : G .regs = true) (w_mem : G .mem = true) (w_host : G .host = true) (w_eng : G .eng = true) (w_flt : G .flt = true) (w_log : G .log = true) (w_mer : G .mer = true) (w_tim : G .tim = true) (w_lcs : G .lcs = true) (w_fab : G .fab = true) (w_net : G .net = true) :
    Keeps G s (State.setMaster t k) := by
  unfold State.setMaster
  try lift_lets
  repeat' first | (with_reducible assumption) | intro _ | with_reducible first | apply Keeps.tryOperate | apply Keeps.setSync | apply Keeps.setBit | apply Keeps.setFld | apply Keeps.raise | (with_reducible apply Keeps.ite) | split | (dsimp +zetaDelta only)

theorem Keeps.setSpineMaster {r : Nat} (h : Keeps G s t)  (w_dev : G .dev = true) (w_regs : G .regs = true) (w_mem : G .mem = true) (w_host : G .host = true) (w_eng : G .eng = true) (w_flt : G .flt = true) (w_log : G .log = true) (w_mer : G .mer = true) (w_tim : G .tim = true) (w_lcs : G .lcs = true) (w_fab : G .fab = true) (w_net : G .net = true) :
    Keeps G s (State.setSpineMaster t r) := by
  unfold State.setSpineMaster
  try lift_lets
  repeat' first | (with_reducible assumption) | intro _ | with_reducible first | apply Keeps.tryOperate | apply Keeps.setSync | apply Keeps.setBit | apply Keeps.raise | apply Keeps.modFab | (with_reducible apply Keeps.ite) | split | (dsimp +zetaDelta only)

theorem Keeps.elect {spine : Bool} {union : Nat} (h : Keeps G s t)  (w_dev : G .dev = true) (w_regs : G .regs = true) (w_mem : G .mem = true) (w_host : G .host = true) (w_eng : G .eng = true) (w_flt : G .flt = true) (w_log : G .log = true) (w_mer : G .mer = true) (w_tim : G .tim = true) (w_lcs : G .lcs = true) (w_fab : G .fab = true) (w_net : G .net = true) :
    Keeps G s (State.elect t spine union) := by
  unfold State.elect
  try lift_lets
  repeat' first | (with_reducible assumption) | intro _ | with_reducible first | apply Keeps.setSpineMaster | apply Keeps.setMaster | apply Keeps.modFab | (with_reducible apply Keeps.ite) | split | (dsimp +zetaDelta only)

theorem Keeps.planeUse {pl : Nat} {ok : Bool} (h : Keeps G s t)  (w_fab : G .fab = true) :
    Keeps G s (State.planeUse t pl ok) := by
  unfold State.planeUse
  repeat' first | (with_reducible assumption) | intro _ | with_reducible first | apply Keeps.modFab | (with_reducible apply Keeps.ite) | split

theorem Keeps.suspendAll  (h : Keeps G s t)  (w_regs : G .regs = true) (w_eng : G .eng = true) (w_flt : G .flt = true) :
    Keeps G s (State.suspendAll t) := by
  unfold State.suspendAll
  repeat' first | (with_reducible assumption) | intro _ | with_reducible first | apply Keeps.modPart | apply Keeps.raise | apply Keeps.each | (with_reducible apply Keeps.ite) | split

theorem Keeps.ringEnd  (h : Keeps G s t)  (w_dev : G .dev = true) (w_regs : G .regs = true) (w_mem : G .mem = true) (w_host : G .host = true) (w_eng : G .eng = true) (w_flt : G .flt = true) (w_log : G .log = true) (w_mer : G .mer = true) (w_tim : G .tim = true) (w_lcs : G .lcs = true) (w_fab : G .fab = true) (w_net : G .net = true) (w_free : G .free = true) :
    Keeps G s (State.ringEnd t) := by
  unfold State.ringEnd
  try lift_lets
  repeat' first | (with_reducible assumption) | intro _ | with_reducible first | apply Keeps.suspendAll | apply Keeps.takeovers | apply Keeps.planeUse | apply Keeps.opEvent | apply Keeps.setBit | apply Keeps.setFld | apply Keeps.elect | apply Keeps.when | apply Keeps.wrN | refine Keeps.modEng ?_ (fun _ => rfl) ?_ | (with_reducible apply Keeps.ite) | split | (dsimp +zetaDelta only)

theorem Keeps.spineEnd  (h : Keeps G s t)  (w_dev : G .dev = true) (w_regs : G .regs = true) (w_mem : G .mem = true) (w_host : G .host = true) (w_eng : G .eng = true) (w_flt : G .flt = true) (w_log : G .log = true) (w_mer : G .mer = true) (w_tim : G .tim = true) (w_lcs : G .lcs = true) (w_fab : G .fab = true) (w_net : G .net = true) :
    Keeps G s (State.spineEnd t) := by
  unfold State.spineEnd
  try lift_lets
  repeat' first | (with_reducible assumption) | intro _ | with_reducible first | apply Keeps.opEvent | apply Keeps.setBit | apply Keeps.elect | apply Keeps.wrN | (with_reducible apply Keeps.ite) | refine Keeps.of_fst (by with_reducible assumption) ?_ | split | (dsimp +zetaDelta only)

theorem Keeps.classEnd {spine : Bool} (h : Keeps G s t)  (w_dev : G .dev = true) (w_regs : G .regs = true) (w_mem : G .mem = true) (w_host : G .host = true) (w_eng : G .eng = true) (w_flt : G .flt = true) (w_log : G .log = true) (w_mer : G .mer = true) (w_tim : G .tim = true) (w_lcs : G .lcs = true) (w_fab : G .fab = true) (w_net : G .net = true) (w_free : G .free = true) :
    Keeps G s (State.classEnd t spine) := by
  unfold State.classEnd
  try lift_lets
  repeat' first | (with_reducible assumption) | intro _ | with_reducible first | apply Keeps.spineEnd | apply Keeps.ringEnd | apply Keeps.atTick | apply Keeps.modFab | (with_reducible apply Keeps.ite) | refine Keeps.of_fst (by with_reducible assumption) ?_ | split | (dsimp +zetaDelta only)

theorem Keeps.planeLoss {pl : Nat} (h : Keeps G s t)  (w_dev : G .dev = true) (w_regs : G .regs = true) (w_mem : G .mem = true) (w_host : G .host = true) (w_eng : G .eng = true) (w_flt : G .flt = true) (w_log : G .log = true) (w_mer : G .mer = true) (w_fab : G .fab = true) (w_net : G .net = true) :
    Keeps G s (State.planeLoss t pl) := by
  unfold State.planeLoss
  try lift_lets
  repeat' first | (with_reducible assumption) | intro _ | with_reducible first | apply Keeps.enterHarebell | apply Keeps.raise | apply Keeps.modFab | (with_reducible apply Keeps.ite) | split | (dsimp +zetaDelta only)

theorem Keeps.sendSync  (h : Keeps G s t)  (w_regs : G .regs = true) (w_host : G .host = true) (w_flt : G .flt = true) (w_fab : G .fab = true) (w_net : G .net = true) :
    Keeps G s (State.sendSync t) := by
  unfold State.sendSync
  try lift_lets
  repeat' first | (with_reducible assumption) | intro _ | with_reducible first | apply Keeps.modPort | apply Keeps.sendOwn | apply Keeps.each | (with_reducible apply Keeps.ite) | split | (dsimp +zetaDelta only)

theorem Keeps.syncFrame {p : Nat} {bs : List Byte} {ln : RxLine} {frac : Nat} (h : Keeps G s t)  (w_dev : G .dev = true) (w_regs : G .regs = true) (w_mem : G .mem = true) (w_host : G .host = true) (w_eng : G .eng = true) (w_flt : G .flt = true) (w_log : G .log = true) (w_cfg : G .cfg = true) (w_mer : G .mer = true) (w_tim : G .tim = true) (w_lcs : G .lcs = true) (w_fab : G .fab = true) (w_net : G .net = true) (w_vern : G .vern = true) (w_ngl : G .ngl = true) :
    Keeps G s (State.syncFrame t p bs ln frac) := by
  unfold State.syncFrame
  try lift_lets
  repeat' first | (with_reducible assumption) | intro _ | with_reducible first | apply Keeps.merOffset | apply Keeps.modPort | apply Keeps.rxFrame | apply Keeps.setFld | (with_reducible apply Keeps.ite) | split | (dsimp +zetaDelta only)

theorem Keeps.mirrorSend {p k n : Nat} (h : Keeps G s t) (w_regs : G .regs = true) (w_host : G .host = true) (w_eng : G .eng = true) (w_flt : G .flt = true) (w_fab : G .fab = true) (w_net : G .net = true) :
    Keeps G s (State.mirrorSend p k n t) := by
  induction k generalizing n t with
  | zero => exact h
  | succ k ih =>
    unfold State.mirrorSend
    try lift_lets
    repeat' first | (with_reducible assumption) | intro _ | with_reducible first | apply ih | apply Keeps.sendOwn | apply Keeps.ephMeets | apply Keeps.modEng | (with_reducible apply Keeps.ite) | split | (dsimp +zetaDelta only)

theorem Keeps.mirrorClass  (h : Keeps G s t)  (w_regs : G .regs = true) (w_host : G .host = true) (w_eng : G .eng = true) (w_flt : G .flt = true) (w_mer : G .mer = true) (w_fab : G .fab = true) (w_net : G .net = true) :
    Keeps G s (State.mirrorClass t) := by
  unfold State.mirrorClass
  try lift_lets
  repeat' first | (with_reducible assumption) | intro _ | with_reducible first | apply Keeps.mirrorSend | apply Keeps.atTick | refine Keeps.modEng ?_ (fun _ => rfl) ?_ | (with_reducible apply Keeps.ite) | refine Keeps.of_fst (by with_reducible assumption) ?_ | split | (dsimp +zetaDelta only)

theorem Keeps.mirrorResync {p : Nat} (h : Keeps G s t)  (w_regs : G .regs = true) (w_eng : G .eng = true) (w_flt : G .flt = true) :
    Keeps G s (State.mirrorResync t p) := by
  unfold State.mirrorResync
  try lift_lets
  repeat' first | (with_reducible assumption) | intro _ | with_reducible first | apply Keeps.ephMeets | refine Keeps.modEng ?_ (fun _ => rfl) ?_ | (with_reducible apply Keeps.ite) | split | (dsimp +zetaDelta only)

theorem Keeps.mirrorPut {p : Nat} {bs : List Byte} (h : Keeps G s t)  (w_regs : G .regs = true) (w_mem : G .mem = true) (w_eng : G .eng = true) :
    Keeps G s (State.mirrorPut t p bs) := by
  unfold State.mirrorPut
  try lift_lets
  repeat' first | (with_reducible assumption) | intro _ | with_reducible first | apply Keeps.imgBytes | apply Keeps.ephWrite | apply Keeps.modPart | apply Keeps.setBit | apply Keeps.each | (with_reducible apply Keeps.ite) | split | (dsimp +zetaDelta only)

theorem Keeps.mirrorSynced {p : Nat} (h : Keeps G s t)  (w_regs : G .regs = true) (w_eng : G .eng = true) (w_flt : G .flt = true) :
    Keeps G s (State.mirrorSynced t p) := by
  unfold State.mirrorSynced
  repeat' first | (with_reducible assumption) | intro _ | with_reducible first | apply Keeps.modPart | apply Keeps.setBit | apply Keeps.raise | (with_reducible apply Keeps.ite) | split

theorem Keeps.mirrorSetIn {bs : List Byte} (h : Keeps G s t)  (w_regs : G .regs = true) (w_mem : G .mem = true) (w_eng : G .eng = true) (w_flt : G .flt = true) :
    Keeps G s (State.mirrorSetIn t bs) := by
  unfold State.mirrorSetIn
  try lift_lets
  repeat' first | (with_reducible assumption) | intro _ | with_reducible first | apply Keeps.mirrorSynced | apply Keeps.mirrorPut | apply Keeps.mirrorGap | refine Keeps.modEng ?_ (fun _ => rfl) ?_ | (with_reducible apply Keeps.ite) | refine Keeps.of_fst (by with_reducible assumption) ?_ | split | (dsimp +zetaDelta only)

theorem Keeps.mirrorTake {x : MirRx} {data : List Byte} (h : Keeps G s t)  (w_mem : G .mem = true) (w_eng : G .eng = true) :
    Keeps G s (State.mirrorTake t x data) := by
  unfold State.mirrorTake
  try lift_lets
  repeat' first | (with_reducible assumption) | intro _ | with_reducible first | apply Keeps.ephWrite | refine Keeps.modEng ?_ (fun _ => rfl) ?_ | (with_reducible apply Keeps.ite) | split | (dsimp +zetaDelta only)

theorem Keeps.mirrorWhole {x : MirRx} (h : Keeps G s t)  (w_regs : G .regs = true) (w_mem : G .mem = true) (w_eng : G .eng = true) (w_flt : G .flt = true) :
    Keeps G s (State.mirrorWhole t x) := by
  unfold State.mirrorWhole
  repeat' first | (with_reducible assumption) | intro _ | with_reducible first | apply Keeps.mirrorSetIn | apply Keeps.ephMeets | (with_reducible apply Keeps.ite) | split

theorem Keeps.mirrorFrame {p : Nat} {bs : List Byte} {ln : RxLine} (h : Keeps G s t)  (w_regs : G .regs = true) (w_mem : G .mem = true) (w_eng : G .eng = true) (w_flt : G .flt = true) (w_cfg : G .cfg = true) (w_fab : G .fab = true) :
    Keeps G s (State.mirrorFrame t p bs ln) := by
  unfold State.mirrorFrame
  try lift_lets
  repeat' first | (with_reducible assumption) | intro _ | with_reducible first | apply Keeps.mirrorWhole | apply Keeps.mirrorTake | apply Keeps.mirrorGap | apply Keeps.rxFrame | (with_reducible apply Keeps.ite) | refine Keeps.of_fst (by with_reducible assumption) ?_ | split | (dsimp +zetaDelta only)

theorem Keeps.streamTake {k n : Nat} (h : Keeps G s t) (w_regs : G .regs = true) :
    Keeps G s (State.streamTake k n t).1 := by
  induction k generalizing n t with
  | zero => exact h
  | succ k ih =>
    unfold State.streamTake
    try lift_lets
    repeat' first | (with_reducible assumption) | intro _ | with_reducible first | apply ih | apply Keeps.setFld | (with_reducible apply Keeps.ite) | split | (dsimp +zetaDelta only)

theorem Keeps.sendEvents  (h : Keeps G s t)  (w_regs : G .regs = true) (w_host : G .host = true) (w_flt : G .flt = true) (w_fab : G .fab = true) (w_net : G .net = true) :
    Keeps G s (State.sendEvents t) := by
  unfold State.sendEvents
  try lift_lets
  repeat' first | (with_reducible assumption) | intro _ | with_reducible first | apply Keeps.streamTake | apply Keeps.sendOwn | (with_reducible apply Keeps.ite) | split | (dsimp +zetaDelta only)

theorem Keeps.bulk {payload : List Byte} (h : Keeps G s t)  (w_fab : G .fab = true) :
    Keeps G s (State.bulk t payload) := by
  unfold State.bulk
  repeat' first | (with_reducible assumption) | intro _ | with_reducible first | apply Keeps.modFab | (with_reducible apply Keeps.ite) | split

theorem Keeps.sendBulk  (h : Keeps G s t)  (w_regs : G .regs = true) (w_host : G .host = true) (w_flt : G .flt = true) (w_fab : G .fab = true) (w_net : G .net = true) :
    Keeps G s (State.sendBulk t) := by
  unfold State.sendBulk
  repeat' first | (with_reducible assumption) | intro _ | with_reducible first | apply Keeps.sendOwn | apply Keeps.each | apply Keeps.bulk | apply Keeps.modFab | (with_reducible apply Keeps.ite) | split

theorem Keeps.eventFrame {p : Nat} {bs : List Byte} {ln : RxLine} (h : Keeps G s t)  (w_regs : G .regs = true) (w_mem : G .mem = true) (w_host : G .host = true) (w_flt : G .flt = true) (w_cfg : G .cfg = true) (w_fab : G .fab = true) (w_net : G .net = true) :
    Keeps G s (State.eventFrame t p bs ln) := by
  unfold State.eventFrame
  try lift_lets
  repeat' first | (with_reducible assumption) | (intro hw; simp only [mems_wf_iff] at hw; obtain ⟨w1, w2, w3, w4, w5, w6, w7, w8⟩ := hw; simp [mems_wf_iff, mem_wf_write, *]; done) | intro _ | with_reducible first | apply Keeps.rxPass | apply Keeps.setFld | apply Keeps.each | apply Keeps.modMem | apply Keeps.modFab | (with_reducible apply Keeps.ite) | split | (dsimp +zetaDelta only)

theorem Keeps.sweepSlot {off : Nat} {a : Nat} {id : Nat} (h : Keeps G s t)  (w_mem : G .mem = true) (w_eng : G .eng = true) :
    Keeps G s (State.sweepSlot t off a id) := by
  unfold State.sweepSlot
  repeat' first | (with_reducible assumption) | intro _ | with_reducible first | apply Keeps.imgWr | apply Keeps.id' | (with_reducible apply Keeps.ite) | split

theorem Keeps.sweep {i : Nat} (h : Keeps G s t)  (w_mem : G .mem = true) (w_eng : G .eng = true) :
    Keeps G s (State.sweep t i) := by
  unfold State.sweep
  repeat' first | (with_reducible assumption) | intro _ | with_reducible first | apply Keeps.sweepSlot | (with_reducible apply Keeps.ite) | refine Keeps.of_fst (by with_reducible assumption) ?_ | split

theorem Keeps.ethSend {k : Nat} {bs : List Byte} (h : Keeps G s t)  (w_regs : G .regs = true) (w_host : G .host = true) (w_net : G .net = true) :
    Keeps G s (State.ethSend t k bs) := by
  unfold State.ethSend
  try lift_lets
  repeat' first | (with_reducible assumption) | intro _ | with_reducible first | apply Keeps.setFld | apply Keeps.bump | apply Keeps.emit | apply Keeps.modNet | (with_reducible apply Keeps.ite) | split | (dsimp +zetaDelta only)

theorem Keeps.txWord {v : Nat} (h : Keeps G s t)  (w_regs : G .regs = true) (w_flt : G .flt = true) :
    Keeps G s (State.txWord t v).1 := by
  unfold State.txWord
  try lift_lets
  repeat' first | (with_reducible assumption) | intro _ | with_reducible first | apply Keeps.raise0 | apply Keeps.id' | (with_reducible apply Keeps.ite) | split | (dsimp +zetaDelta only)

theorem Keeps.txWords {c : Nat} (h : Keeps G s t)  (w_regs : G .regs = true) (w_flt : G .flt = true) :
    Keeps G s (State.txWords t c).1 := by
  unfold State.txWords
  try lift_lets
  repeat' first | (with_reducible assumption) | intro _ | with_reducible first | apply Keeps.txWord | apply Keeps.foldl | apply Keeps.foldlFst | (with_reducible apply Keeps.ite) | split | (dsimp +zetaDelta only)

theorem Keeps.sendCopy {c : Nat} {k : Nat} {seq : Nat} {slot : Option Nat} {ws : List (Csw × Bool)} (h : Keeps G s t)  (w_regs : G .regs = true) (w_host : G .host = true) (w_net : G .net = true) :
    Keeps G s (State.sendCopy t c k seq slot ws) := by
  unfold State.sendCopy
  try lift_lets
  repeat' first | (with_reducible assumption) | intro _ | with_reducible first | apply Keeps.ethSend | apply Keeps.id' | (with_reducible apply Keeps.ite) | refine Keeps.of_fst (by with_reducible assumption) ?_ | split | (dsimp +zetaDelta only)

theorem Keeps.setHwm  (h : Keeps G s t)  (w_regs : G .regs = true) (w_net : G .net = true) :
    Keeps G s (State.setHwm t) := by
  unfold State.setHwm
  repeat' first | (with_reducible assumption) | intro _ | with_reducible first | apply Keeps.keyThere | apply Keeps.wr64 | apply Keeps.modNet | (with_reducible apply Keeps.ite) | split

theorem Keeps.sfSlot {c : Nat} (h : Keeps G s t)  (w_regs : G .regs = true) (w_flt : G .flt = true) (w_net : G .net = true) :
    Keeps G s (State.sfSlot t c).1 := by
  unfold State.sfSlot
  repeat' first | (with_reducible assumption) | intro _ | with_reducible first | apply Keeps.keyMissing | apply Keeps.keyThere | apply Keeps.setHwm | apply Keeps.raise | apply Keeps.when | apply Keeps.modNet | (with_reducible apply Keeps.ite) | refine Keeps.of_fst (by with_reducible assumption) ?_ | split

theorem Keeps.safeSend {c : Nat} (h : Keeps G s t)  (w_regs : G .regs = true) (w_host : G .host = true) (w_flt : G .flt = true) (w_mer : G .mer = true) (w_net : G .net = true) :
    Keeps G s (State.safeSend t c) := by
  unfold State.safeSend
  try lift_lets
  repeat' first | (with_reducible assumption) | intro _ | with_reducible first | apply Keeps.advanceTo | apply Keeps.sendCopy | apply Keeps.modConn | apply Keeps.txWords | apply Keeps.sfSlot | apply Keeps.each | (with_reducible apply Keeps.ite) | refine Keeps.of_fst (by with_reducible assumption) ?_ | split | (dsimp +zetaDelta only)

theorem Keeps.sfWrite {c : Nat} {k : Nat} {bs : List Byte} (h : Keeps G s t)  (w_regs : G .regs = true) (w_mem : G .mem = true) (w_eng : G .eng = true) (w_flt : G .flt = true) :
    Keeps G s (State.sfWrite t c k bs) := by
  unfold State.sfWrite
  try lift_lets
  repeat' first | (with_reducible assumption) | intro _ | with_reducible first | apply Keeps.raise | apply Keeps.imgWr | apply Keeps.each | (with_reducible apply Keeps.ite) | split | (dsimp +zetaDelta only)

theorem Keeps.connRun {c : Nat} (h : Keeps G s t)  (w_regs : G .regs = true) (w_mem : G .mem = true) (w_host : G .host = true) (w_flt : G .flt = true) (w_log : G .log = true) (w_net : G .net = true) :
    Keeps G s (State.connRun t c) := by
  unfold State.connRun
  repeat' first | (with_reducible assumption) | intro _ | with_reducible first | apply Keeps.modConn | apply Keeps.opEvent | (with_reducible apply Keeps.ite) | split

theorem Keeps.copyNew {c : Nat} {k : Nat} {bs : List Byte} (h : Keeps G s t)  (w_regs : G .regs = true) (w_mem : G .mem = true) (w_host : G .host = true) (w_eng : G .eng = true) (w_flt : G .flt = true) (w_log : G .log = true) (w_net : G .net = true) :
    Keeps G s (State.copyNew t c k bs) := by
  unfold State.copyNew
  try lift_lets
  repeat' first | (with_reducible assumption) | intro _ | with_reducible first | apply Keeps.sfWrite | apply Keeps.modConn | apply Keeps.connRun | (with_reducible apply Keeps.ite) | refine Keeps.of_fst (by with_reducible assumption) ?_ | split | (dsimp +zetaDelta only)

theorem Keeps.copyClass {c : Nat} {k : Nat} {bs : List Byte} (h : Keeps G s t)  (w_regs : G .regs = true) (w_mem : G .mem = true) (w_host : G .host = true) (w_eng : G .eng = true) (w_flt : G .flt = true) (w_log : G .log = true) (w_net : G .net = true) :
    Keeps G s (State.copyClass t c k bs) := by
  unfold State.copyClass
  try lift_lets
  repeat' first | (with_reducible assumption) | intro _ | with_reducible first | apply Keeps.connFill | apply Keeps.modConn | apply Keeps.copyNew | apply Keeps.raise | (with_reducible apply Keeps.ite) | split | (dsimp +zetaDelta only)

theorem Keeps.copyBad {c : Nat} {k : Nat} {n : Nat} (h : Keeps G s t)  (w_regs : G .regs = true) (w_flt : G .flt = true) (w_net : G .net = true) :
    Keeps G s (State.copyBad t c k n) := by
  unfold State.copyBad
  try lift_lets
  repeat' first | (with_reducible assumption) | intro _ | with_reducible first | apply Keeps.modConn | apply Keeps.raise | (with_reducible apply Keeps.ite) | split | (dsimp +zetaDelta only)

theorem Keeps.safeReceive {k : Nat} {udp : Bool} {bs : List Byte} (h : Keeps G s t)  (w_regs : G .regs = true) (w_mem : G .mem = true) (w_host : G .host = true) (w_eng : G .eng = true) (w_flt : G .flt = true) (w_log : G .log = true) (w_net : G .net = true) :
    Keeps G s (State.safeReceive t k udp bs) := by
  unfold State.safeReceive
  try lift_lets
  repeat' first | (with_reducible assumption) | intro _ | with_reducible first | apply Keeps.copyClass | apply Keeps.copyBad | apply Keeps.bump | apply Keeps.id' | (with_reducible apply Keeps.ite) | refine Keeps.of_fst (by with_reducible assumption) ?_ | split | (dsimp +zetaDelta only)

theorem Keeps.connTimeout {c : Nat} (h : Keeps G s t)  (w_regs : G .regs = true) (w_mem : G .mem = true) (w_eng : G .eng = true) (w_flt : G .flt = true) (w_mer : G .mer = true) (w_net : G .net = true) :
    Keeps G s (State.connTimeout t c) := by
  unfold State.connTimeout
  try lift_lets
  repeat' first | (with_reducible assumption) | intro _ | with_reducible first | apply Keeps.advanceTo | apply Keeps.connFill | apply Keeps.modConn | apply Keeps.raise | (with_reducible apply Keeps.ite) | refine Keeps.of_fst (by with_reducible assumption) ?_ | split | (dsimp +zetaDelta only)

theorem Keeps.safeCmd {m : Master} {v : Word} (h : Keeps G s t)  (w_regs : G .regs = true) (w_host : G .host = true) (w_flt : G .flt = true) (w_cfg : G .cfg = true) (w_net : G .net = true) :
    Keeps G s (State.safeCmd t m v) := by
  unfold State.safeCmd
  try lift_lets
  repeat' first | (with_reducible assumption) | intro _ | with_reducible first | apply Keeps.connWait | apply Keeps.regCmd | (with_reducible apply Keeps.ite) | split | (dsimp +zetaDelta only)

theorem Keeps.ethLink {k : Nat} {up : Bool} {fast : Bool} (h : Keeps G s t)  (w_regs : G .regs = true) (w_flt : G .flt = true) (w_net : G .net = true) :
    Keeps G s (State.ethLink t k up fast) := by
  unfold State.ethLink
  try lift_lets
  repeat' first | (with_reducible assumption) | intro _ | with_reducible first | apply Keeps.setBit | apply Keeps.raise | apply Keeps.modNet | (with_reducible apply Keeps.ite) | refine Keeps.of_fst (by with_reducible assumption) ?_ | split | (dsimp +zetaDelta only)

theorem Keeps.arp {k : Nat} {mac : Nat} {ip : Nat} {target : Nat} (h : Keeps G s t)  (w_regs : G .regs = true) (w_host : G .host = true) (w_net : G .net = true) :
    Keeps G s (State.arp t k mac ip target) := by
  unfold State.arp
  try lift_lets
  repeat' first | (with_reducible assumption) | intro _ | with_reducible first | apply Keeps.ethSend | apply Keeps.bump | (with_reducible apply Keeps.ite) | split | (dsimp +zetaDelta only)

theorem Keeps.modPtp {k : Nat} {f : PtpSt → PtpSt} (h : Keeps G s t)  (w_dev : G .dev = true) (w_regs : G .regs = true) (w_mem : G .mem = true) (w_host : G .host = true) (w_eng : G .eng = true) (w_flt : G .flt = true) (w_log : G .log = true) (w_cfg : G .cfg = true) (w_mer : G .mer = true) (w_tim : G .tim = true) (w_lcs : G .lcs = true) (w_fab : G .fab = true) (w_net : G .net = true) (w_vern : G .vern = true) (w_ngl : G .ngl = true) :
    Keeps G s (State.modPtp t k f) := by
  unfold State.modPtp
  repeat' first | (with_reducible assumption) | intro _ | with_reducible first | apply Keeps.ptp | apply Keeps.modNet | (with_reducible apply Keeps.ite) | split

theorem Keeps.ptpSend {k : Nat} {kind : Nat} {time : Nat} (h : Keeps G s t)  (w_dev : G .dev = true) (w_regs : G .regs = true) (w_mem : G .mem = true) (w_host : G .host = true) (w_eng : G .eng = true) (w_flt : G .flt = true) (w_log : G .log = true) (w_cfg : G .cfg = true) (w_mer : G .mer = true) (w_tim : G .tim = true) (w_lcs : G .lcs = true) (w_fab : G .fab = true) (w_net : G .net = true) (w_vern : G .vern = true) (w_ngl : G .ngl = true) :
    Keeps G s (State.ptpSend t k kind time) := by
  unfold State.ptpSend
  repeat' first | (with_reducible assumption) | intro _ | with_reducible first | apply Keeps.bump | apply Keeps.emit | apply Keeps.ptp | (with_reducible apply Keeps.ite) | split

theorem Keeps.ptpAsk {k : Nat} {ms : Int} (h : Keeps G s t)  (w_dev : G .dev = true) (w_regs : G .regs = true) (w_mem : G .mem = true) (w_host : G .host = true) (w_eng : G .eng = true) (w_flt : G .flt = true) (w_log : G .log = true) (w_cfg : G .cfg = true) (w_mer : G .mer = true) (w_tim : G .tim = true) (w_lcs : G .lcs = true) (w_fab : G .fab = true) (w_net : G .net = true) (w_vern : G .vern = true) (w_ngl : G .ngl = true) :
    Keeps G s (State.ptpAsk t k ms) := by
  unfold State.ptpAsk
  repeat' first | (with_reducible assumption) | intro _ | with_reducible first | apply Keeps.ptpSend | apply Keeps.modPtp | (with_reducible apply Keeps.ite) | split

theorem Keeps.ptpMeasured {k : Nat} {ms : Int} {sm : Int} (h : Keeps G s t)  (w_dev : G .dev = true) (w_regs : G .regs = true) (w_mem : G .mem = true) (w_host : G .host = true) (w_eng : G .eng = true) (w_flt : G .flt = true) (w_log : G .log = true) (w_cfg : G .cfg = true) (w_mer : G .mer = true) (w_tim : G .tim = true) (w_lcs : G .lcs = true) (w_fab : G .fab = true) (w_net : G .net = true) (w_vern : G .vern = true) (w_ngl : G .ngl = true) :
    Keeps G s (State.ptpMeasured t k ms sm) := by
  unfold State.ptpMeasured
  try lift_lets
  repeat' first | (with_reducible assumption) | intro _ | with_reducible first | apply Keeps.merOffset | apply Keeps.setFld | apply Keeps.wrN | (with_reducible apply Keeps.ite) | split | (dsimp +zetaDelta only)

theorem Keeps.ptpTake {k : Nat} {a0 : PtpKind} (h : Keeps G s t)  (w_dev : G .dev = true) (w_regs : G .regs = true) (w_mem : G .mem = true) (w_host : G .host = true) (w_eng : G .eng = true) (w_flt : G .flt = true) (w_log : G .log = true) (w_cfg : G .cfg = true) (w_mer : G .mer = true) (w_tim : G .tim = true) (w_lcs : G .lcs = true) (w_fab : G .fab = true) (w_net : G .net = true) (w_vern : G .vern = true) (w_ngl : G .ngl = true) :
    Keeps G s (State.ptpTake t k a0) := by
  unfold State.ptpTake
  repeat' first | (with_reducible assumption) | intro _ | with_reducible first | apply Keeps.ptpMeasured | apply Keeps.ptpSend | apply Keeps.ptpAsk | apply Keeps.setFld | apply Keeps.modPtp | apply Keeps.when | (with_reducible apply Keeps.ite) | refine Keeps.of_fst (by with_reducible assumption) ?_ | split

theorem Keeps.ptp {k : Nat} {dom : Nat} {msg : PtpMsg} (h : Keeps G s t)  (w_dev : G .dev = true) (w_regs : G .regs = true) (w_mem : G .mem = true) (w_host : G .host = true) (w_eng : G .eng = true) (w_flt : G .flt = true) (w_log : G .log = true) (w_cfg : G .cfg = true) (w_mer : G .mer = true) (w_tim : G .tim = true) (w_lcs : G .lcs = true) (w_fab : G .fab = true) (w_net : G .net = true) (w_vern : G .vern = true) (w_ngl : G .ngl = true) :
    Keeps G s (State.ptp t k dom msg) := by
  unfold State.ptp
  try lift_lets
  repeat' first | (with_reducible assumption) | intro _ | with_reducible first | apply Keeps.ptpTake | apply Keeps.bump | apply Keeps.modNet | (with_reducible apply Keeps.ite) | split | (dsimp +zetaDelta only)

theorem Keeps.keyResult {r : Nat} (h : Keeps G s t)  (w_regs : G .regs = true) :
    Keeps G s (State.keyResult t r) := by
  unfold State.keyResult
  repeat' first | (with_reducible assumption) | intro _ | with_reducible first | apply Keeps.setFld | (with_reducible apply Keeps.ite) | split

theorem Keeps.keyCmd {m : Master} {v : Word} (h : Keeps G s t)  (w_regs : G .regs = true) (w_mem : G .mem = true) (w_host : G .host = true) (w_flt : G .flt = true) (w_cfg : G .cfg = true) :
    Keeps G s (State.keyCmd t m v) := by
  unfold State.keyCmd
  try lift_lets
  repeat' first | (with_reducible assumption) | intro _ | with_reducible first | apply Keeps.clogGuard | apply Keeps.noteWrite | apply Keeps.keyResult | apply Keeps.clogNote | apply Keeps.denied | (with_reducible apply Keeps.ite) | split | (dsimp +zetaDelta only)

theorem Keeps.keyPut {o : Nat} {k : Nat} {key : BitVec 128} {epoch : Nat} {start : Nat} {retire : Nat} (h : Keeps G s t)  (w_regs : G .regs = true) (w_net : G .net = true) :
    Keeps G s (State.keyPut t o k key epoch start retire) := by
  unfold State.keyPut
  repeat' first | (with_reducible assumption) | intro _ | with_reducible first | apply Keeps.modKeySlot | apply Keeps.setHwm | (with_reducible apply Keeps.ite) | split

theorem Keeps.keyDel {o : Nat} {k : Nat} (h : Keeps G s t)  (w_net : G .net = true) :
    Keeps G s (State.keyDel t o k) := by
  unfold State.keyDel
  repeat' first | (with_reducible assumption) | intro _ | with_reducible first | apply Keeps.modKeySlot | (with_reducible apply Keeps.ite) | split

theorem Keeps.keyRetired {o : Nat} {k : Nat} (h : Keeps G s t)  (w_regs : G .regs = true) (w_flt : G .flt = true) (w_mer : G .mer = true) (w_net : G .net = true) :
    Keeps G s (State.keyRetired t o k) := by
  unfold State.keyRetired
  try lift_lets
  repeat' first | (with_reducible assumption) | intro _ | with_reducible first | apply Keeps.advanceTo | apply Keeps.keyDel | apply Keeps.raise | (with_reducible apply Keeps.ite) | split | (dsimp +zetaDelta only)

end Sys2Proof.Laws
end

