-- ==== Sys2Proof/Laws/KeepsPower.lean ====
section
/-! SUPPORT. Which groups of the state the operations of Vernier, Live, Power, Views, Xfer change. -/

namespace Sys2Proof.Laws

open Sys2Proof Sys2Proof.Machine

variable {G : Group → Bool} {s t : State}

theorem Keeps.vnShow  (h : Keeps G s t)  (w_regs : G .regs = true) :
    Keeps G s (State.vnShow t) := by
  unfold State.vnShow
  repeat' first | (with_reducible assumption) | intro _ | with_reducible first | apply Keeps.wrN | (with_reducible apply Keeps.ite) | split

theorem Keeps.vnJudge {w3 : Bool} {w12 : Bool} (h : Keeps G s t)  (w_regs : G .regs = true) (w_mem : G .mem = true) (w_host : G .host = true) (w_flt : G .flt = true) (w_log : G .log = true) (w_vern : G .vern = true) :
    Keeps G s (State.vnJudge t w3 w12) := by
  unfold State.vnJudge
  try lift_lets
  repeat' first | (with_reducible assumption) | intro _ | with_reducible first | apply Keeps.opEvent | apply Keeps.vnShow | apply Keeps.raise0 | apply Keeps.when | apply Keeps.modVern | (with_reducible apply Keeps.ite) | split | (dsimp +zetaDelta only)

theorem Keeps.vnAgain  (h : Keeps G s t)  (w_regs : G .regs = true) (w_mem : G .mem = true) (w_host : G .host = true) (w_flt : G .flt = true) (w_log : G .log = true) (w_vern : G .vern = true) :
    Keeps G s (State.vnAgain t) := by
  unfold State.vnAgain
  repeat' first | (with_reducible assumption) | intro _ | with_reducible first | apply Keeps.vnJudge | (with_reducible apply Keeps.ite) | split

theorem Keeps.vnLimits  (h : Keeps G s t)  (w_regs : G .regs = true) (w_flt : G .flt = true) (w_vern : G .vern = true) :
    Keeps G s (State.vnLimits t) := by
  unfold State.vnLimits
  try lift_lets
  repeat' first | (with_reducible assumption) | intro _ | with_reducible first | apply Keeps.raise | apply Keeps.each | apply Keeps.modVern | (with_reducible apply Keeps.ite) | refine Keeps.of_fst (by with_reducible assumption) ?_ | split | (dsimp +zetaDelta only)

theorem Keeps.shortCause  (h : Keeps G s t)  (w_regs : G .regs = true) :
    Keeps G s (State.shortCause t) := by
  unfold State.shortCause
  try lift_lets
  repeat' first | (with_reducible assumption) | intro _ | with_reducible first | apply Keeps.wrN | (with_reducible apply Keeps.ite) | refine Keeps.of_fst (by with_reducible assumption) ?_ | split | (dsimp +zetaDelta only)

theorem Keeps.vnShort {commit : Bool} (h : Keeps G s t)  (w_regs : G .regs = true) (w_flt : G .flt = true) (w_vern : G .vern = true) :
    Keeps G s (State.vnShort t commit) := by
  unfold State.vnShort
  try lift_lets
  repeat' first | (with_reducible assumption) | intro _ | with_reducible first | apply Keeps.shortCause | apply Keeps.raise0 | apply Keeps.when | apply Keeps.modVern | (with_reducible apply Keeps.ite) | refine Keeps.of_fst (by with_reducible assumption) ?_ | split | (dsimp +zetaDelta only)

theorem Keeps.vnProject {commit : Bool} (h : Keeps G s t)  (w_regs : G .regs = true) (w_mem : G .mem = true) (w_host : G .host = true) (w_flt : G .flt = true) (w_log : G .log = true) (w_vern : G .vern = true) :
    Keeps G s (State.vnProject t commit) := by
  unfold State.vnProject
  try lift_lets
  repeat' first | (with_reducible assumption) | intro _ | with_reducible first | apply Keeps.vnJudge | apply Keeps.vnShort | apply Keeps.wrN | (with_reducible apply Keeps.ite) | refine Keeps.of_fst (by with_reducible assumption) ?_ | split | (dsimp +zetaDelta only)

theorem Keeps.vernLower  (h : Keeps G s t)  (w_dev : G .dev = true) (w_regs : G .regs = true) (w_mem : G .mem = true) (w_host : G .host = true) (w_eng : G .eng = true) (w_flt : G .flt = true) (w_log : G .log = true) (w_mer : G .mer = true) (w_fab : G .fab = true) (w_net : G .net = true) (w_vern : G .vern = true) :
    Keeps G s (State.vernLower t) := by
  unfold State.vernLower
  try lift_lets
  repeat' first | (with_reducible assumption) | intro _ | with_reducible first | apply Keeps.enterHarebell | apply Keeps.vnAgain | apply Keeps.raise0 | apply Keeps.when | apply Keeps.modDev | apply Keeps.modVern | (with_reducible apply Keeps.ite) | refine Keeps.of_fst (by with_reducible assumption) ?_ | split | (dsimp +zetaDelta only)

theorem Keeps.vernSecond {slack : List (BitVec 16)} {shift : List (BitVec 8)} {erase : BitVec 24} (h : Keeps G s t)  (w_dev : G .dev = true) (w_regs : G .regs = true) (w_mem : G .mem = true) (w_host : G .host = true) (w_eng : G .eng = true) (w_flt : G .flt = true) (w_log : G .log = true) (w_mer : G .mer = true) (w_fab : G .fab = true) (w_net : G .net = true) (w_vern : G .vern = true) :
    Keeps G s (State.vernSecond t slack shift erase) := by
  unfold State.vernSecond
  try lift_lets
  repeat' first | (with_reducible assumption) | intro _ | with_reducible first | apply Keeps.vernLower | apply Keeps.vnLimits | apply Keeps.vnAgain | apply Keeps.modVern | apply Keeps.foldl | apply Keeps.foldlFst | (with_reducible apply Keeps.ite) | split | (dsimp +zetaDelta only)

theorem Keeps.vernHourly  (h : Keeps G s t)  (w_dev : G .dev = true) (w_vern : G .vern = true) :
    Keeps G s (State.vernHourly t) := by
  unfold State.vernHourly
  try lift_lets
  repeat' first | (with_reducible assumption) | intro _ | with_reducible first | apply Keeps.modDev | apply Keeps.modVern | apply Keeps.foldl | apply Keeps.foldlFst | (with_reducible apply Keeps.ite) | refine Keeps.of_fst (by with_reducible assumption) ?_ | split | (dsimp +zetaDelta only)

theorem Keeps.vernDaily {ok : Bool} (h : Keeps G s t)  (w_regs : G .regs = true) (w_mem : G .mem = true) (w_host : G .host = true) (w_flt : G .flt = true) (w_log : G .log = true) (w_vern : G .vern = true) :
    Keeps G s (State.vernDaily t ok) := by
  unfold State.vernDaily
  try lift_lets
  repeat' first | (with_reducible assumption) | intro _ | with_reducible first | apply Keeps.vnProject | apply Keeps.opEvent | apply Keeps.raise0 | apply Keeps.modVern | (with_reducible apply Keeps.ite) | refine Keeps.of_fst (by with_reducible assumption) ?_ | split | (dsimp +zetaDelta only)

theorem Keeps.vernCommit  (h : Keeps G s t)  (w_regs : G .regs = true) (w_mem : G .mem = true) (w_host : G .host = true) (w_flt : G .flt = true) (w_log : G .log = true) (w_vern : G .vern = true) :
    Keeps G s (State.vernCommit t) := by
  unfold State.vernCommit
  try lift_lets
  repeat' first | (with_reducible assumption) | intro _ | with_reducible first | apply Keeps.vnProject | apply Keeps.modVern | (with_reducible apply Keeps.ite) | split | (dsimp +zetaDelta only)

theorem Keeps.proofAgain  (h : Keeps G s t)  (w_regs : G .regs = true) :
    Keeps G s (State.proofAgain t) := by
  unfold State.proofAgain
  repeat' first | (with_reducible assumption) | intro _ | with_reducible first | apply Keeps.setBit | apply Keeps.setFld | (with_reducible apply Keeps.ite) | split

theorem Keeps.setGrade {g : Grade} (h : Keeps G s t)  (w_dev : G .dev = true) (w_regs : G .regs = true) (w_mem : G .mem = true) (w_host : G .host = true) (w_flt : G .flt = true) (w_log : G .log = true) (w_lcs : G .lcs = true) :
    Keeps G s (State.setGrade t g) := by
  unfold State.setGrade
  try lift_lets
  repeat' first | (with_reducible assumption) | intro _ | with_reducible first | apply Keeps.proofAgain | apply Keeps.opEvent | apply Keeps.setFld | apply Keeps.vnShow | apply Keeps.each | apply Keeps.bump | apply Keeps.modDev | apply Keeps.modLcs | (with_reducible apply Keeps.ite) | split | (dsimp +zetaDelta only)

theorem Keeps.gradeStep  (h : Keeps G s t)  (w_dev : G .dev = true) (w_regs : G .regs = true) (w_mem : G .mem = true) (w_host : G .host = true) (w_flt : G .flt = true) (w_log : G .log = true) (w_lcs : G .lcs = true) :
    Keeps G s (State.gradeStep t) := by
  unfold State.gradeStep
  try lift_lets
  repeat' first | (with_reducible assumption) | intro _ | with_reducible first | apply Keeps.setGrade | apply Keeps.modDev | (with_reducible apply Keeps.ite) | refine Keeps.of_fst (by with_reducible assumption) ?_ | split | (dsimp +zetaDelta only)

theorem Keeps.resumeGrade  (h : Keeps G s t)  (w_dev : G .dev = true) (w_regs : G .regs = true) (w_mem : G .mem = true) (w_host : G .host = true) (w_flt : G .flt = true) (w_log : G .log = true) (w_lcs : G .lcs = true) :
    Keeps G s (State.resumeGrade t) := by
  unfold State.resumeGrade
  try lift_lets
  repeat' first | (with_reducible assumption) | intro _ | with_reducible first | apply Keeps.setGrade | (with_reducible apply Keeps.ite) | refine Keeps.of_fst (by with_reducible assumption) ?_ | split | (dsimp +zetaDelta only)

theorem Keeps.rtcTo {c : Nat} (h : Keeps G s t)  (w_mer : G .mer = true) (w_ngl : G .ngl = true) :
    Keeps G s (State.rtcTo t c) := by
  unfold State.rtcTo
  repeat' first | (with_reducible assumption) | intro _ | with_reducible first | apply Keeps.advanceTo | apply Keeps.rtcSet | (with_reducible apply Keeps.ite) | split

theorem Keeps.blPut {code : Nat} {input : Nat} {alarm : Bool} (h : Keeps G s t)  (w_regs : G .regs = true) (w_flt : G .flt = true) (w_ngl : G .ngl = true) :
    Keeps G s (State.blPut t code input alarm) := by
  unfold State.blPut
  try lift_lets
  repeat' first | (with_reducible assumption) | intro _ | with_reducible first | apply Keeps.raise0 | apply Keeps.when | apply Keeps.modNgl | (with_reducible apply Keeps.ite) | split | (dsimp +zetaDelta only)

theorem Keeps.blImportOne  (h : Keeps G s t)  (w_regs : G .regs = true) (w_mem : G .mem = true) (w_host : G .host = true) (w_flt : G .flt = true) (w_log : G .log = true) (w_ngl : G .ngl = true) :
    Keeps G s (State.blImportOne t) := by
  unfold State.blImportOne
  try lift_lets
  repeat' first | (with_reducible assumption) | intro _ | with_reducible first | apply Keeps.logAdd | apply Keeps.event | apply Keeps.modNgl | (with_reducible apply Keeps.ite) | split | (dsimp +zetaDelta only)

theorem Keeps.nglReady  (h : Keeps G s t)  (w_regs : G .regs = true) (w_mem : G .mem = true) (w_host : G .host = true) (w_flt : G .flt = true) (w_log : G .log = true) (w_ngl : G .ngl = true) :
    Keeps G s (State.nglReady t) := by
  unfold State.nglReady
  try lift_lets
  repeat' first | (with_reducible assumption) | intro _ | with_reducible first | apply Keeps.blImportOne | apply Keeps.raise | apply Keeps.each | (with_reducible apply Keeps.ite) | split | (dsimp +zetaDelta only)

theorem Keeps.dormRefused {cause : Nat} (h : Keeps G s t)  (w_regs : G .regs = true) (w_mem : G .mem = true) (w_host : G .host = true) (w_flt : G .flt = true) (w_log : G .log = true) :
    Keeps G s (State.dormRefused t cause) := by
  unfold State.dormRefused
  repeat' first | (with_reducible assumption) | intro _ | with_reducible first | apply Keeps.opEvent | apply Keeps.wrN | (with_reducible apply Keeps.ite) | split

theorem Keeps.dormEnter  (h : Keeps G s t)  (w_dev : G .dev = true) (w_regs : G .regs = true) (w_mem : G .mem = true) (w_host : G .host = true) (w_eng : G .eng = true) (w_flt : G .flt = true) (w_log : G .log = true) (w_mer : G .mer = true) (w_tim : G .tim = true) (w_fab : G .fab = true) (w_net : G .net = true) (w_ngl : G .ngl = true) :
    Keeps G s (State.dormEnter t) := by
  unfold State.dormEnter
  try lift_lets
  repeat' first | (with_reducible assumption) | intro _ | with_reducible first | apply Keeps.advanceTo | apply Keeps.logFlush | apply Keeps.setMode | apply Keeps.modConn | apply Keeps.setFld | apply Keeps.setNow | apply Keeps.rtcSet | apply Keeps.tHold | apply Keeps.each | apply Keeps.bump | apply Keeps.wr | apply Keeps.modDev | apply Keeps.modMer | (with_reducible apply Keeps.ite) | split | (dsimp +zetaDelta only)

theorem Keeps.dormEval  (h : Keeps G s t)  (w_dev : G .dev = true) (w_regs : G .regs = true) (w_mem : G .mem = true) (w_host : G .host = true) (w_eng : G .eng = true) (w_flt : G .flt = true) (w_log : G .log = true) (w_mer : G .mer = true) (w_tim : G .tim = true) (w_fab : G .fab = true) (w_net : G .net = true) (w_ngl : G .ngl = true) :
    Keeps G s (State.dormEval t) := by
  unfold State.dormEval
  repeat' first | (with_reducible assumption) | intro _ | with_reducible first | apply Keeps.dormRefused | apply Keeps.dormEnter | apply Keeps.modDev | (with_reducible apply Keeps.ite) | refine Keeps.of_fst (by with_reducible assumption) ?_ | split

theorem Keeps.dormRequest {alarmUse : Bool} (h : Keeps G s t)  (w_dev : G .dev = true) (w_regs : G .regs = true) (w_ngl : G .ngl = true) :
    Keeps G s (State.dormRequest t alarmUse) := by
  unfold State.dormRequest
  repeat' first | (with_reducible assumption) | intro _ | with_reducible first | apply Keeps.wrN | apply Keeps.modDev | apply Keeps.modNgl | (with_reducible apply Keeps.ite) | split

theorem Keeps.dormAsk {m : Master} {alarmUse : Bool} (h : Keeps G s t)  (w_dev : G .dev = true) (w_regs : G .regs = true) (w_mem : G .mem = true) (w_host : G .host = true) (w_flt : G .flt = true) (w_log : G .log = true) (w_cfg : G .cfg = true) (w_ngl : G .ngl = true) :
    Keeps G s (State.dormAsk t m alarmUse) := by
  unfold State.dormAsk
  try lift_lets
  repeat' first | (with_reducible assumption) | intro _ | with_reducible first | apply Keeps.dormRefused | apply Keeps.dormRequest | apply Keeps.noteWrite | apply Keeps.cmdWrite | (with_reducible apply Keeps.ite) | split | (dsimp +zetaDelta only)

theorem Keeps.fieldCheck {f : FieldFind} (h : Keeps G s t)  (w_regs : G .regs = true) (w_mem : G .mem = true) (w_host : G .host = true) (w_eng : G .eng = true) (w_flt : G .flt = true) (w_log : G .log = true) (w_field : G .field = true) :
    Keeps G s (State.fieldCheck t f) := by
  unfold State.fieldCheck
  try lift_lets
  repeat' first | (with_reducible assumption) | intro _ | with_reducible first | apply Keeps.supplyRead | apply Keeps.bankShow | apply Keeps.devWrite | apply Keeps.chHere | apply Keeps.each | (with_reducible apply Keeps.ite) | split | (dsimp +zetaDelta only)

theorem Keeps.makeUp {n1 : Nat} (h : Keeps G s t)  (w_regs : G .regs = true) (w_flt : G .flt = true) (w_cfg : G .cfg = true) (w_mer : G .mer = true) (w_tim : G .tim = true) (w_vern : G .vern = true) :
    Keeps G s (State.makeUp t n1) := by
  unfold State.makeUp
  try lift_lets
  repeat' first | (with_reducible assumption) | intro _ | with_reducible first | apply Keeps.tMakeupAll | apply Keeps.modSess | apply Keeps.raise0 | apply Keeps.setNow | apply Keeps.wr64 | apply Keeps.wrN | apply Keeps.modVern | (with_reducible apply Keeps.ite) | split | (dsimp +zetaDelta only)

theorem Keeps.syncAfterWake  (h : Keeps G s t)  (w_regs : G .regs = true) (w_mer : G .mer = true) :
    Keeps G s (State.syncAfterWake t) := by
  unfold State.syncAfterWake
  repeat' first | (with_reducible assumption) | intro _ | with_reducible first | apply Keeps.setSync | (with_reducible apply Keeps.ite) | split

theorem Keeps.fieldInit  (h : Keeps G s t)  (w_mem : G .mem = true) (w_eng : G .eng = true) (w_field : G .field = true) :
    Keeps G s (State.fieldInit t) := by
  unfold State.fieldInit
  repeat' first | (with_reducible assumption) | intro _ | with_reducible first | apply Keeps.devWrite | apply Keeps.modCh | apply Keeps.each | (with_reducible apply Keeps.ite) | split

theorem Keeps.wake {cause : Nat} {input : Nat} {field : FieldFind} (h : Keeps G s t)  (w_dev : G .dev = true) (w_regs : G .regs = true) (w_mem : G .mem = true) (w_host : G .host = true) (w_eng : G .eng = true) (w_flt : G .flt = true) (w_log : G .log = true) (w_cfg : G .cfg = true) (w_mer : G .mer = true) (w_tim : G .tim = true) (w_lcs : G .lcs = true) (w_field : G .field = true) (w_fab : G .fab = true) (w_net : G .net = true) (w_vern : G .vern = true) (w_ngl : G .ngl = true) (w_free : G .free = true) :
    Keeps G s (State.wake t cause input field) := by
  unfold State.wake
  try lift_lets
  repeat' first | (with_reducible assumption) | intro _ | with_reducible first | apply Keeps.syncAfterWake | apply Keeps.fieldCheck | apply Keeps.tryOperate | apply Keeps.safeState | apply Keeps.fieldInit | apply Keeps.nglReady | apply Keeps.useFree | apply Keeps.setMode | apply Keeps.raise0 | apply Keeps.makeUp | apply Keeps.rtcSet | apply Keeps.wrN | apply Keeps.ptp | apply Keeps.modDev | apply Keeps.modNet | apply Keeps.modNgl | (with_reducible apply Keeps.ite) | split | (dsimp +zetaDelta only)

theorem Keeps.wakeCmd {m : Master} {field : FieldFind} (h : Keeps G s t)  (w_dev : G .dev = true) (w_regs : G .regs = true) (w_mem : G .mem = true) (w_host : G .host = true) (w_eng : G .eng = true) (w_flt : G .flt = true) (w_log : G .log = true) (w_cfg : G .cfg = true) (w_mer : G .mer = true) (w_tim : G .tim = true) (w_lcs : G .lcs = true) (w_field : G .field = true) (w_fab : G .fab = true) (w_net : G .net = true) (w_vern : G .vern = true) (w_ngl : G .ngl = true) (w_free : G .free = true) :
    Keeps G s (State.wakeCmd t m field) := by
  unfold State.wakeCmd
  repeat' first | (with_reducible assumption) | intro _ | with_reducible first | apply Keeps.wake | apply Keeps.wrN | (with_reducible apply Keeps.ite) | split

theorem Keeps.vgChange {k : Nat} {closed : Bool} (h : Keeps G s t)  (w_regs : G .regs = true) (w_mem : G .mem = true) (w_host : G .host = true) (w_flt : G .flt = true) (w_log : G .log = true) (w_ngl : G .ngl = true) :
    Keeps G s (State.vgChange t k closed) := by
  unfold State.vgChange
  try lift_lets
  repeat' first | (with_reducible assumption) | intro _ | with_reducible first | apply Keeps.opEvent | apply Keeps.blPut | apply Keeps.when | apply Keeps.modNgl | (with_reducible apply Keeps.ite) | split | (dsimp +zetaDelta only)

theorem Keeps.vgSample {c : Nat → Fin 3} {field : FieldFind} (h : Keeps G s t)  (w_dev : G .dev = true) (w_regs : G .regs = true) (w_mem : G .mem = true) (w_host : G .host = true) (w_eng : G .eng = true) (w_flt : G .flt = true) (w_log : G .log = true) (w_cfg : G .cfg = true) (w_mer : G .mer = true) (w_tim : G .tim = true) (w_lcs : G .lcs = true) (w_field : G .field = true) (w_fab : G .fab = true) (w_net : G .net = true) (w_vern : G .vern = true) (w_ngl : G .ngl = true) (w_free : G .free = true) :
    Keeps G s (State.vgSample t c field) := by
  unfold State.vgSample
  try lift_lets
  repeat' first | (with_reducible assumption) | intro _ | with_reducible first | apply Keeps.vgChange | apply Keeps.rtcTo | apply Keeps.each | apply Keeps.wake | (with_reducible apply Keeps.ite) | refine Keeps.of_fst (by with_reducible assumption) ?_ | split | (dsimp +zetaDelta only)

theorem Keeps.vgAckWrite {m : Master} {v : Nat} (h : Keeps G s t)  (w_regs : G .regs = true) (w_mem : G .mem = true) (w_cfg : G .cfg = true) :
    Keeps G s (State.vgAckWrite t m v) := by
  unfold State.vgAckWrite
  repeat' first | (with_reducible assumption) | intro _ | with_reducible first | apply Keeps.clogGuard | apply Keeps.clogNote | apply Keeps.each | (with_reducible apply Keeps.ite) | split

theorem Keeps.vgAcked {k : Nat} (h : Keeps G s t)  (w_ngl : G .ngl = true) :
    Keeps G s (State.vgAcked t k) := by
  unfold State.vgAcked
  repeat' first | (with_reducible assumption) | intro _ | with_reducible first | apply Keeps.modNgl | (with_reducible apply Keeps.ite) | split

theorem Keeps.rtcLoad  (h : Keeps G s t)  (w_regs : G .regs = true) (w_flt : G .flt = true) (w_ngl : G .ngl = true) :
    Keeps G s (State.rtcLoad t) := by
  unfold State.rtcLoad
  try lift_lets
  repeat' first | (with_reducible assumption) | intro _ | with_reducible first | apply Keeps.rtcSet | apply Keeps.blPut | apply Keeps.when | apply Keeps.modNgl | (with_reducible apply Keeps.ite) | split | (dsimp +zetaDelta only)

theorem Keeps.xtalBad  (h : Keeps G s t)  (w_regs : G .regs = true) (w_flt : G .flt = true) (w_ngl : G .ngl = true) :
    Keeps G s (State.xtalBad t) := by
  unfold State.xtalBad
  repeat' first | (with_reducible assumption) | intro _ | with_reducible first | apply Keeps.raise0 | apply Keeps.when | apply Keeps.modNgl | (with_reducible apply Keeps.ite) | split

theorem Keeps.vlogRange {mv : Nat} (h : Keeps G s t)  (w_regs : G .regs = true) (w_flt : G .flt = true) :
    Keeps G s (State.vlogRange t mv) := by
  unfold State.vlogRange
  try lift_lets
  repeat' first | (with_reducible assumption) | intro _ | with_reducible first | apply Keeps.setBit | apply Keeps.raise0 | apply Keeps.when | apply Keeps.wrN | (with_reducible apply Keeps.ite) | split | (dsimp +zetaDelta only)

theorem Keeps.vbakSample {mv : Nat} (h : Keeps G s t)  (w_regs : G .regs = true) (w_flt : G .flt = true) (w_ngl : G .ngl = true) :
    Keeps G s (State.vbakSample t mv) := by
  unfold State.vbakSample
  try lift_lets
  repeat' first | (with_reducible assumption) | intro _ | with_reducible first | apply Keeps.setBit | apply Keeps.raise0 | apply Keeps.blPut | apply Keeps.when | apply Keeps.wrN | apply Keeps.modNgl | (with_reducible apply Keeps.ite) | split | (dsimp +zetaDelta only)

theorem Keeps.dieTemp {t0 : Int} (h : Keeps G s t)  (w_regs : G .regs = true) (w_flt : G .flt = true) :
    Keeps G s (State.dieTemp t t0) := by
  unfold State.dieTemp
  try lift_lets
  repeat' first | (with_reducible assumption) | intro _ | with_reducible first | apply Keeps.setBit | apply Keeps.raise0 | apply Keeps.when | apply Keeps.wrN | (with_reducible apply Keeps.ite) | split | (dsimp +zetaDelta only)

theorem Keeps.autoGate {pg : Nat} {power : Bool} (h : Keeps G s t)  (w_regs : G .regs = true) :
    Keeps G s (State.autoGate t pg power) := by
  unfold State.autoGate
  try lift_lets
  repeat' first | (with_reducible assumption) | intro _ | with_reducible first | apply Keeps.setFld | (with_reducible apply Keeps.ite) | refine Keeps.of_fst (by with_reducible assumption) ?_ | split | (dsimp +zetaDelta only)

theorem Keeps.pmWake {pg : Nat} {late : Bool} (h : Keeps G s t)  (w_regs : G .regs = true) (w_flt : G .flt = true) :
    Keeps G s (State.pmWake t pg late) := by
  unfold State.pmWake
  repeat' first | (with_reducible assumption) | intro _ | with_reducible first | apply Keeps.wakePage | apply Keeps.raise | apply Keeps.when | (with_reducible apply Keeps.ite) | split

theorem Keeps.modXq {q : Nat} {f : XqSt → XqSt} (h : Keeps G s t)  (w_host : G .host = true) :
    Keeps G s (State.modXq t q f) := by
  unfold State.modXq
  repeat' first | (with_reducible assumption) | intro _ | with_reducible first | apply Keeps.modHost | (with_reducible apply Keeps.ite) | split

theorem Keeps.xqTail {q : Nat} {v : Word} (h : Keeps G s t)  (w_regs : G .regs = true) (w_flt : G .flt = true) :
    Keeps G s (State.xqTail t q v) := by
  unfold State.xqTail
  try lift_lets
  repeat' first | (with_reducible assumption) | intro _ | with_reducible first | apply Keeps.raise0 | apply Keeps.wrN | (with_reducible apply Keeps.ite) | split | (dsimp +zetaDelta only)

theorem Keeps.xqConfig {m : Master} {q : Nat} {reg : Nat} {v : Word} (h : Keeps G s t)  (w_regs : G .regs = true) (w_host : G .host = true) (w_flt : G .flt = true) :
    Keeps G s (State.xqConfig t m q reg v) := by
  unfold State.xqConfig
  try lift_lets
  repeat' first | (with_reducible assumption) | intro _ | with_reducible first | apply Keeps.modMaster | apply Keeps.raise0 | apply Keeps.wrN | apply Keeps.wr | (with_reducible apply Keeps.ite) | refine Keeps.of_fst (by with_reducible assumption) ?_ | split | (dsimp +zetaDelta only)

theorem Keeps.xfCtrl {v : Word} (h : Keeps G s t)  (w_regs : G .regs = true) (w_host : G .host = true) :
    Keeps G s (State.xfCtrl t v) := by
  unfold State.xfCtrl
  repeat' first | (with_reducible assumption) | intro _ | with_reducible first | apply Keeps.modXq | apply Keeps.each | apply Keeps.wrN | (with_reducible apply Keeps.ite) | split

theorem Keeps.xqEnd {q : Nat} {d : Desc} {code : Nat} {tstamp : Nat} (h : Keeps G s t)  (w_regs : G .regs = true) (w_mem : G .mem = true) (w_host : G .host = true) (w_flt : G .flt = true) (w_log : G .log = true) :
    Keeps G s (State.xqEnd t q d code tstamp) := by
  unfold State.xqEnd
  try lift_lets
  repeat' first | (with_reducible assumption) | intro _ | with_reducible first | apply Keeps.opEvent | apply Keeps.modXq | apply Keeps.when | apply Keeps.emit | apply Keeps.bump | apply Keeps.wrN | (with_reducible apply Keeps.ite) | split | (dsimp +zetaDelta only)

theorem Keeps.xqBegin {q : Nat} {d : Desc} {seen : Nat} (h : Keeps G s t)  (w_host : G .host = true) :
    Keeps G s (State.xqBegin t q d seen) := by
  unfold State.xqBegin
  repeat' first | (with_reducible assumption) | intro _ | with_reducible first | apply Keeps.modXq | (with_reducible apply Keeps.ite) | split

theorem Keeps.xqStart {q : Nat} {d : Desc} (h : Keeps G s t)  (w_regs : G .regs = true) (w_mem : G .mem = true) (w_host : G .host = true) (w_flt : G .flt = true) (w_log : G .log = true) :
    Keeps G s (State.xqStart t q d) := by
  unfold State.xqStart
  repeat' first | (with_reducible assumption) | intro _ | with_reducible first | apply Keeps.xqBegin | apply Keeps.raise0 | apply Keeps.modXq | apply Keeps.xqEnd | (with_reducible apply Keeps.ite) | refine Keeps.of_fst (by with_reducible assumption) ?_ | split

theorem Keeps.xqDone {q : Nat} (h : Keeps G s t)  (w_regs : G .regs = true) (w_mem : G .mem = true) (w_host : G .host = true) (w_flt : G .flt = true) (w_log : G .log = true) :
    Keeps G s (State.xqDone t q) := by
  unfold State.xqDone
  try lift_lets
  repeat' first | (with_reducible assumption) | intro _ | with_reducible first | apply Keeps.raise0 | apply Keeps.xqEnd | apply Keeps.when | apply Keeps.emit | (with_reducible apply Keeps.ite) | refine Keeps.of_fst (by with_reducible assumption) ?_ | split | (dsimp +zetaDelta only)

theorem Keeps.xferErr {q : Option (Fin 4)} {n : Nat} (h : Keeps G s t)  (w_regs : G .regs = true) (w_mem : G .mem = true) (w_host : G .host = true) (w_flt : G .flt = true) (w_log : G .log = true) :
    Keeps G s (State.xferErr t q n) := by
  unfold State.xferErr
  repeat' first | (with_reducible assumption) | intro _ | with_reducible first | apply Keeps.raise0 | apply Keeps.xqEnd | apply Keeps.emit | (with_reducible apply Keeps.ite) | refine Keeps.of_fst (by with_reducible assumption) ?_ | split

end Sys2Proof.Laws
end

