-- ==== Sys2Proof/Laws/KeepsConfig.lean ====
section
/-! SUPPORT. Which groups of the state the operations of Image, ProgScan, Profile, Load, Rules, Inject, Commit, Sets change. -/

namespace Sys2Proof.Laws

open Sys2Proof Sys2Proof.Machine

variable {G : Group → Bool} {s t : State}

theorem Keeps.putReg {a : Nat} {v : Word} (h : Keeps G s t)  (w_regs : G .regs = true) :
    Keeps G s (State.putReg t a v) := by
  unfold State.putReg
  try lift_lets
  repeat' first | (with_reducible assumption) | intro _ | with_reducible first | apply Keeps.wr | (with_reducible apply Keeps.ite) | refine Keeps.of_fst (by with_reducible assumption) ?_ | split | (dsimp +zetaDelta only)

theorem Keeps.putRec {r : RegRec} (h : Keeps G s t)  (w_regs : G .regs = true) (w_host : G .host = true) (w_evt : G .evt = true) :
    Keeps G s (State.putRec t r) := by
  unfold State.putRec
  try lift_lets
  repeat' first | (with_reducible assumption) | intro _ | with_reducible first | apply Keeps.routeWrite | apply Keeps.putReg | apply Keeps.wr | (with_reducible apply Keeps.ite) | refine Keeps.of_fst (by with_reducible assumption) ?_ | split | (dsimp +zetaDelta only)

theorem Keeps.flashTrims  (h : Keeps G s t)  (w_regs : G .regs = true) :
    Keeps G s (State.flashTrims t) := by
  unfold State.flashTrims
  try lift_lets
  repeat' first | (with_reducible assumption) | intro _ | with_reducible first | apply Keeps.each | apply Keeps.wr | (with_reducible apply Keeps.ite) | split | (dsimp +zetaDelta only)

theorem Keeps.loadParts {x : Sect} (h : Keeps G s t)  (w_regs : G .regs = true) (w_eng : G .eng = true) :
    Keeps G s (State.loadParts t x) := by
  unfold State.loadParts
  try lift_lets
  repeat' first | (with_reducible assumption) | intro _ | with_reducible first | apply Keeps.putReg | apply Keeps.each | apply Keeps.wrN | refine Keeps.modEng ?_ (fun _ => rfl) ?_ | apply Keeps.foldl | apply Keeps.foldlFst | (with_reducible apply Keeps.ite) | refine Keeps.of_fst (by with_reducible assumption) ?_ | split | (dsimp +zetaDelta only)

theorem Keeps.loadA {b : Nat} (h : Keeps G s t)  (w_regs : G .regs = true) :
    Keeps G s (State.loadA t b) := by
  unfold State.loadA
  try lift_lets
  repeat' first | (with_reducible assumption) | intro _ | with_reducible first | apply Keeps.wrN | apply Keeps.foldl | apply Keeps.foldlFst | (with_reducible apply Keeps.ite) | split | (dsimp +zetaDelta only)

theorem Keeps.loadSched {x : Sect} (h : Keeps G s t)  (w_regs : G .regs = true) (w_eng : G .eng = true) :
    Keeps G s (State.loadSched t x) := by
  unfold State.loadSched
  try lift_lets
  repeat' first | (with_reducible assumption) | intro _ | with_reducible first | apply Keeps.modPair | apply Keeps.putReg | apply Keeps.each | apply Keeps.wrN | refine Keeps.modEng ?_ (fun _ => rfl) ?_ | apply Keeps.foldl | apply Keeps.foldlFst | (with_reducible apply Keeps.ite) | split | (dsimp +zetaDelta only)

theorem Keeps.writeProgram {p : Nat} {bank : Nat} {ws : List Word} (h : Keeps G s t)  (w_mem : G .mem = true) :
    Keeps G s (State.writeProgram t p bank ws) := by
  unfold State.writeProgram
  try lift_lets
  repeat' first | (with_reducible assumption) | (intro hw; simp only [mems_wf_iff] at hw; obtain ⟨w1, w2, w3, w4, w5, w6, w7, w8⟩ := hw; simp [mems_wf_iff, mem_wf_write, *]; done) | intro _ | with_reducible first | apply Keeps.modMem | (with_reducible apply Keeps.ite) | split | (dsimp +zetaDelta only)

theorem Keeps.putProgram {p : Nat} {bank : Nat} {ws : List Word} (h : Keeps G s t)  (w_mem : G .mem = true) (w_eng : G .eng = true) :
    Keeps G s (State.putProgram t p bank ws) := by
  unfold State.putProgram
  repeat' first | (with_reducible assumption) | intro _ | with_reducible first | apply Keeps.writeProgram | apply Keeps.modPart | (with_reducible apply Keeps.ite) | split

theorem Keeps.loadPrograms {b : Nat} (h : Keeps G s t)  (w_regs : G .regs = true) (w_mem : G .mem = true) (w_eng : G .eng = true) :
    Keeps G s (State.loadPrograms t b) := by
  unfold State.loadPrograms
  try lift_lets
  repeat' first | (with_reducible assumption) | intro _ | with_reducible first | apply Keeps.putProgram | apply Keeps.setFld | apply Keeps.wr | apply Keeps.foldl | apply Keeps.foldlFst | (with_reducible apply Keeps.ite) | refine Keeps.of_fst (by with_reducible assumption) ?_ | split | (dsimp +zetaDelta only)

theorem Keeps.codeTimer {p : Nat} {t0 : Nat} (h : Keeps G s t)  (w_mem : G .mem = true) (w_eng : G .eng = true) :
    Keeps G s (State.codeTimer t p t0) := by
  unfold State.codeTimer
  try lift_lets
  repeat' first | (with_reducible assumption) | intro _ | with_reducible first | apply Keeps.imgBytes | (with_reducible apply Keeps.ite) | split | (dsimp +zetaDelta only)

theorem Keeps.codeVar {p : Nat} {k : Nat} (h : Keeps G s t)  (w_mem : G .mem = true) (w_eng : G .eng = true) :
    Keeps G s (State.codeVar t p k) := by
  unfold State.codeVar
  repeat' first | (with_reducible assumption) | intro _ | with_reducible first | apply Keeps.imgBytes | (with_reducible apply Keeps.ite) | split

theorem Keeps.loadLists {b : Nat} (h : Keeps G s t)  (w_regs : G .regs = true) (w_mem : G .mem = true) (w_eng : G .eng = true) :
    Keeps G s (State.loadLists t b) := by
  unfold State.loadLists
  try lift_lets
  repeat' first | (with_reducible assumption) | (intro hw; simp only [mems_wf_iff] at hw; obtain ⟨w1, w2, w3, w4, w5, w6, w7, w8⟩ := hw; simp [mems_wf_iff, mem_wf_clear, *]; done) | intro _ | with_reducible first | apply Keeps.codeTimer | apply Keeps.imgBytes | apply Keeps.codeVar | apply Keeps.each | apply Keeps.wrN | apply Keeps.modMem | refine Keeps.modEng ?_ (fun _ => rfl) ?_ | (with_reducible apply Keeps.ite) | split | (dsimp +zetaDelta only)

theorem Keeps.codeConsts {pool : Nat} (h : Keeps G s t)  (w_mem : G .mem = true) (w_eng : G .eng = true) :
    Keeps G s (State.codeConsts t pool) := by
  unfold State.codeConsts
  try lift_lets
  repeat' first | (with_reducible assumption) | intro _ | with_reducible first | apply Keeps.imgBytes | apply Keeps.each | (with_reducible apply Keeps.ite) | split | (dsimp +zetaDelta only)

theorem Keeps.loadMap {x : Sect} (h : Keeps G s t)  (w_regs : G .regs = true) (w_mem : G .mem = true) (w_eng : G .eng = true) :
    Keeps G s (State.loadMap t x) := by
  unfold State.loadMap
  try lift_lets
  repeat' first | (with_reducible assumption) | (intro hw; simp only [mems_wf_iff] at hw; obtain ⟨w1, w2, w3, w4, w5, w6, w7, w8⟩ := hw; simp [mems_wf_iff, mem_wf_clear, *]; done) | intro _ | with_reducible first | apply Keeps.codeConsts | apply Keeps.imgBytes | apply Keeps.each | apply Keeps.wrN | apply Keeps.modMem | refine Keeps.modEng ?_ (fun _ => rfl) ?_ | apply Keeps.foldl | apply Keeps.foldlFst | (with_reducible apply Keeps.ite) | split | (dsimp +zetaDelta only)

theorem Keeps.loadFb {b : Nat} (h : Keeps G s t)  (w_mem : G .mem = true) (w_eng : G .eng = true) :
    Keeps G s (State.loadFb t b) := by
  unfold State.loadFb
  repeat' first | (with_reducible assumption) | intro _ | with_reducible first | apply Keeps.imgBytes | apply Keeps.each | (with_reducible apply Keeps.ite) | refine Keeps.of_fst (by with_reducible assumption) ?_ | split

theorem Keeps.loadFabric {b : Nat} (h : Keeps G s t)  (w_regs : G .regs = true) (w_fab : G .fab = true) :
    Keeps G s (State.loadFabric t b) := by
  unfold State.loadFabric
  try lift_lets
  repeat' first | (with_reducible assumption) | intro _ | with_reducible first | apply Keeps.wrN | apply Keeps.modFab | apply Keeps.foldl | apply Keeps.foldlFst | (with_reducible apply Keeps.ite) | refine Keeps.of_fst (by with_reducible assumption) ?_ | split | (dsimp +zetaDelta only)

theorem Keeps.loadConns {b : Nat} (h : Keeps G s t)  (w_net : G .net = true) :
    Keeps G s (State.loadConns t b) := by
  unfold State.loadConns
  try lift_lets
  repeat' first | (with_reducible assumption) | intro _ | with_reducible first | apply Keeps.modConn | apply Keeps.each | apply Keeps.modNet | apply Keeps.foldl | apply Keeps.foldlFst | (with_reducible apply Keeps.ite) | refine Keeps.of_fst (by with_reducible assumption) ?_ | split | (dsimp +zetaDelta only)

theorem Keeps.loadPolicies {x : Sect} (h : Keeps G s t)  (w_flt : G .flt = true) :
    Keeps G s (State.loadPolicies t x) := by
  unfold State.loadPolicies
  repeat' first | (with_reducible assumption) | intro _ | with_reducible first | apply Keeps.setPol | apply Keeps.each | (with_reducible apply Keeps.ite) | split

theorem Keeps.loadRoles {b : Nat} (h : Keeps G s t)  (w_cfg : G .cfg = true) :
    Keeps G s (State.loadRoles t b) := by
  unfold State.loadRoles
  try lift_lets
  repeat' first | (with_reducible assumption) | intro _ | with_reducible first | apply Keeps.each | apply Keeps.modCfg | (with_reducible apply Keeps.ite) | refine Keeps.of_fst (by with_reducible assumption) ?_ | split | (dsimp +zetaDelta only)

theorem Keeps.bankFigures {b : Nat} (h : Keeps G s t)  (w_regs : G .regs = true) :
    Keeps G s (State.bankFigures t b) := by
  unfold State.bankFigures
  try lift_lets
  repeat' first | (with_reducible assumption) | intro _ | with_reducible first | apply Keeps.wrN | apply Keeps.foldl | apply Keeps.foldlFst | (with_reducible apply Keeps.ite) | split | (dsimp +zetaDelta only)

theorem Keeps.setPages  (h : Keeps G s t)  (w_regs : G .regs = true) (w_cfg : G .cfg = true) :
    Keeps G s (State.setPages t) := by
  unfold State.setPages
  try lift_lets
  repeat' first | (with_reducible assumption) | intro _ | with_reducible first | apply Keeps.setBit | apply Keeps.setFld | apply Keeps.each | apply Keeps.modCfg | (with_reducible apply Keeps.ite) | refine Keeps.of_fst (by with_reducible assumption) ?_ | split | (dsimp +zetaDelta only)

theorem Keeps.applyImage {b : Nat} (h : Keeps G s t)  (w_regs : G .regs = true) (w_mem : G .mem = true) (w_host : G .host = true) (w_eng : G .eng = true) (w_flt : G .flt = true) (w_evt : G .evt = true) (w_cfg : G .cfg = true) (w_fab : G .fab = true) (w_net : G .net = true) :
    Keeps G s (State.applyImage t b) := by
  unfold State.applyImage
  try lift_lets
  repeat' first | (with_reducible assumption) | (intro hw; simp only [mems_wf_iff] at hw; obtain ⟨w1, w2, w3, w4, w5, w6, w7, w8⟩ := hw; simp [mems_wf_iff, mem_wf_filter, *]; done) | intro _ | with_reducible first | apply Keeps.loadPrograms | apply Keeps.loadPolicies | apply Keeps.bankFigures | apply Keeps.loadFabric | apply Keeps.flashTrims | apply Keeps.loadLists | apply Keeps.loadConns | apply Keeps.loadParts | apply Keeps.loadRoles | apply Keeps.loadSched | apply Keeps.setPages | apply Keeps.loadMap | apply Keeps.loadFb | apply Keeps.putRec | apply Keeps.loadA | apply Keeps.each | apply Keeps.modRegs | apply Keeps.modMem | apply Keeps.modEvt | (with_reducible apply Keeps.ite) | refine Keeps.of_fst (by with_reducible assumption) ?_ | split | (dsimp +zetaDelta only)

theorem Keeps.setReact {b : Nat} (h : Keeps G s t)  (w_regs : G .regs = true) :
    Keeps G s (State.setReact t b) := by
  unfold State.setReact
  try lift_lets
  repeat' first | (with_reducible assumption) | intro _ | with_reducible first | apply Keeps.each | apply Keeps.wrN | (with_reducible apply Keeps.ite) | split | (dsimp +zetaDelta only)

theorem Keeps.candidate {k : Nat} (h : Keeps G s t)  (w_regs : G .regs = true) (w_mem : G .mem = true) (w_host : G .host = true) (w_eng : G .eng = true) (w_flt : G .flt = true) (w_evt : G .evt = true) (w_cfg : G .cfg = true) (w_fab : G .fab = true) (w_net : G .net = true) :
    Keeps G s (State.candidate t k) := by
  unfold State.candidate
  try lift_lets
  repeat' first | (with_reducible assumption) | intro _ | with_reducible first | apply Keeps.applyImage | apply Keeps.setReact | apply Keeps.modCfg | (with_reducible apply Keeps.ite) | split | (dsimp +zetaDelta only)

theorem Keeps.injMark {n : Nat} (h : Keeps G s t)  (w_flt : G .flt = true) :
    Keeps G s (State.injMark t n) := by
  unfold State.injMark
  repeat' first | (with_reducible assumption) | intro _ | with_reducible first | apply Keeps.modFlt | (with_reducible apply Keeps.ite) | split

theorem Keeps.injCh {n : Nat} {kind : Nat} {f : Bool} (h : Keeps G s t)  (w_regs : G .regs = true) (w_mem : G .mem = true) (w_host : G .host = true) (w_eng : G .eng = true) (w_flt : G .flt = true) (w_log : G .log = true) (w_field : G .field = true) :
    Keeps G s (State.injCh t n kind f) := by
  unfold State.injCh
  try lift_lets
  repeat' first | (with_reducible assumption) | intro _ | with_reducible first | apply Keeps.stuckHigh | apply Keeps.chHere | apply Keeps.chEnd | (with_reducible apply Keeps.ite) | split | (dsimp +zetaDelta only)

theorem Keeps.injShut {b : Nat} {kind : Nat} (h : Keeps G s t)  (w_regs : G .regs = true) (w_mem : G .mem = true) (w_host : G .host = true) (w_flt : G .flt = true) (w_log : G .log = true) (w_field : G .field = true) :
    Keeps G s (State.injShut t b kind) := by
  unfold State.injShut
  try lift_lets
  repeat' first | (with_reducible assumption) | intro _ | with_reducible first | apply Keeps.shutStuck | apply Keeps.bankShow | apply Keeps.shutFail | apply Keeps.modBank | apply Keeps.raise | (with_reducible apply Keeps.ite) | split | (dsimp +zetaDelta only)

theorem Keeps.injDrive {n : Nat} {kind : Nat} (h : Keeps G s t)  (w_dev : G .dev = true) (w_regs : G .regs = true) (w_mem : G .mem = true) (w_host : G .host = true) (w_eng : G .eng = true) (w_flt : G .flt = true) (w_log : G .log = true) (w_mer : G .mer = true) (w_field : G .field = true) (w_fab : G .fab = true) (w_net : G .net = true) (w_free : G .free = true) :
    Keeps G s (State.injDrive t n kind) := by
  unfold State.injDrive
  try lift_lets
  repeat' first | (with_reducible assumption) | intro _ | with_reducible first | apply Keeps.healthHere | apply Keeps.alarmPair | apply Keeps.raiseInj | apply Keeps.spdFault | apply Keeps.mismatch | apply Keeps.useFree | apply Keeps.injMark | apply Keeps.injShut | apply Keeps.injCh | (with_reducible apply Keeps.ite) | refine Keeps.of_fst (by with_reducible assumption) ?_ | split | (dsimp +zetaDelta only)

theorem Keeps.injRelease {n : Nat} {kind : Nat} (h : Keeps G s t)  (w_regs : G .regs = true) (w_mem : G .mem = true) (w_eng : G .eng = true) (w_flt : G .flt = true) (w_field : G .field = true) :
    Keeps G s (State.injRelease t n kind) := by
  unfold State.injRelease
  repeat' first | (with_reducible assumption) | intro _ | with_reducible first | apply Keeps.healthEnd | apply Keeps.bankShow | apply Keeps.modBank | apply Keeps.setAlm | apply Keeps.chGone | (with_reducible apply Keeps.ite) | split

theorem Keeps.injFire {pg : Nat} (h : Keeps G s t)  (w_dev : G .dev = true) (w_regs : G .regs = true) (w_mem : G .mem = true) (w_host : G .host = true) (w_eng : G .eng = true) (w_flt : G .flt = true) (w_log : G .log = true) (w_mer : G .mer = true) (w_field : G .field = true) (w_fab : G .fab = true) (w_net : G .net = true) (w_free : G .free = true) :
    Keeps G s (State.injFire t pg) := by
  unfold State.injFire
  try lift_lets
  repeat' first | (with_reducible assumption) | intro _ | with_reducible first | apply Keeps.injRelease | apply Keeps.injDrive | apply Keeps.modInj | (with_reducible apply Keeps.ite) | refine Keeps.of_fst (by with_reducible assumption) ?_ | split | (dsimp +zetaDelta only)

theorem Keeps.injCtrl {m : Master} {pg : Nat} {v : Word} (h : Keeps G s t)  (w_regs : G .regs = true) (w_mem : G .mem = true) (w_flt : G .flt = true) (w_cfg : G .cfg = true) :
    Keeps G s (State.injCtrl t m pg v) := by
  unfold State.injCtrl
  try lift_lets
  repeat' first | (with_reducible assumption) | intro _ | with_reducible first | apply Keeps.clogGuard | apply Keeps.clogNote | apply Keeps.modInj | apply Keeps.wr | (with_reducible apply Keeps.ite) | split | (dsimp +zetaDelta only)

theorem Keeps.injWrite {m : Master} {pg : Nat} {v : Word} (h : Keeps G s t)  (w_regs : G .regs = true) (w_mem : G .mem = true) (w_host : G .host = true) (w_flt : G .flt = true) (w_cfg : G .cfg = true) :
    Keeps G s (State.injWrite t m pg v) := by
  unfold State.injWrite
  repeat' first | (with_reducible assumption) | intro _ | with_reducible first | apply Keeps.expertCmd | apply Keeps.injCtrl | (with_reducible apply Keeps.ite) | split

theorem Keeps.injHoldEnd {pg : Nat} (h : Keeps G s t)  (w_regs : G .regs = true) (w_mem : G .mem = true) (w_eng : G .eng = true) (w_flt : G .flt = true) (w_mer : G .mer = true) (w_field : G .field = true) :
    Keeps G s (State.injHoldEnd t pg) := by
  unfold State.injHoldEnd
  try lift_lets
  repeat' first | (with_reducible assumption) | intro _ | with_reducible first | apply Keeps.injRelease | apply Keeps.advanceTo | apply Keeps.modInj | (with_reducible apply Keeps.ite) | refine Keeps.of_fst (by with_reducible assumption) ?_ | split | (dsimp +zetaDelta only)

theorem Keeps.stgResult {code : Nat} {sid : Nat} (h : Keeps G s t)  (w_regs : G .regs = true) :
    Keeps G s (State.stgResult t code sid) := by
  unfold State.stgResult
  repeat' first | (with_reducible assumption) | intro _ | with_reducible first | apply Keeps.wrN | (with_reducible apply Keeps.ite) | split

theorem Keeps.uncheck  (h : Keeps G s t)  (w_regs : G .regs = true) (w_cfg : G .cfg = true) :
    Keeps G s (State.uncheck t) := by
  unfold State.uncheck
  repeat' first | (with_reducible assumption) | intro _ | with_reducible first | apply Keeps.wr64 | apply Keeps.modCfg | (with_reducible apply Keeps.ite) | split

theorem Keeps.unstage  (h : Keeps G s t)  (w_regs : G .regs = true) (w_cfg : G .cfg = true) :
    Keeps G s (State.unstage t) := by
  unfold State.unstage
  repeat' first | (with_reducible assumption) | intro _ | with_reducible first | apply Keeps.uncheck | apply Keeps.modCfg | (with_reducible apply Keeps.ite) | split

theorem Keeps.stageNew  (h : Keeps G s t)  (w_regs : G .regs = true) (w_mem : G .mem = true) (w_cfg : G .cfg = true) :
    Keeps G s (State.stageNew t) := by
  unfold State.stageNew
  try lift_lets
  repeat' first | (with_reducible assumption) | (intro hw; simp only [mems_wf_iff] at hw; obtain ⟨w1, w2, w3, w4, w5, w6, w7, w8⟩ := hw; simp [mems_wf_iff, mem_wf_clear, *]; done) | intro _ | with_reducible first | apply Keeps.unstage | apply Keeps.modMem | apply Keeps.modCfg | (with_reducible apply Keeps.ite) | split | (dsimp +zetaDelta only)

theorem Keeps.stageBytes {off : Nat} {bs : List Byte} (h : Keeps G s t)  (w_regs : G .regs = true) (w_mem : G .mem = true) (w_cfg : G .cfg = true) :
    Keeps G s (State.stageBytes t off bs) := by
  unfold State.stageBytes
  repeat' first | (with_reducible assumption) | (intro hw; simp only [mems_wf_iff] at hw; obtain ⟨w1, w2, w3, w4, w5, w6, w7, w8⟩ := hw; simp [mems_wf_iff, mem_wf_write, *]; done) | intro _ | with_reducible first | apply Keeps.uncheck | apply Keeps.modMem | (with_reducible apply Keeps.ite) | split

theorem Keeps.stagePrograms {k : Nat} (h : Keeps G s t)  (w_mem : G .mem = true) :
    Keeps G s (State.stagePrograms t k) := by
  unfold State.stagePrograms
  repeat' first | (with_reducible assumption) | intro _ | with_reducible first | apply Keeps.writeProgram | apply Keeps.each | (with_reducible apply Keeps.ite) | refine Keeps.of_fst (by with_reducible assumption) ?_ | split

theorem Keeps.checkDone  (h : Keeps G s t)  (w_regs : G .regs = true) (w_mem : G .mem = true) (w_flt : G .flt = true) (w_cfg : G .cfg = true) :
    Keeps G s (State.checkDone t) := by
  unfold State.checkDone
  try lift_lets
  repeat' first | (with_reducible assumption) | intro _ | with_reducible first | apply Keeps.stagePrograms | apply Keeps.commitGuard | apply Keeps.stgResult | apply Keeps.clogNote | apply Keeps.uncheck | apply Keeps.raise0 | apply Keeps.modCfg | (with_reducible apply Keeps.ite) | split | (dsimp +zetaDelta only)

theorem Keeps.stgGate {m : Master} {action : Nat} {f : State → State} (h : Keeps G s t) (hf_f : ∀ x0, Keeps G s x0 → Keeps G s (f x0)) (w_regs : G .regs = true) (w_mem : G .mem = true) (w_cfg : G .cfg = true) :
    Keeps G s (State.stgGate t m action f) := by
  unfold State.stgGate
  repeat' first | (with_reducible assumption) | intro _ | (with_reducible apply hf_f) | with_reducible first | apply Keeps.clogNote | (with_reducible apply Keeps.ite) | split

theorem Keeps.stgBegin {m : Master} (h : Keeps G s t)  (w_regs : G .regs = true) (w_mem : G .mem = true) (w_cfg : G .cfg = true) :
    Keeps G s (State.stgBegin t m) := by
  unfold State.stgBegin
  repeat' first | (with_reducible assumption) | intro _ | with_reducible first | apply Keeps.stgResult | apply Keeps.stageNew | apply Keeps.clogNote | apply Keeps.stgGate | apply Keeps.wrN | (with_reducible apply Keeps.ite) | split

theorem Keeps.stgCheck {m : Master} (h : Keeps G s t)  (w_regs : G .regs = true) (w_mem : G .mem = true) (w_cfg : G .cfg = true) :
    Keeps G s (State.stgCheck t m) := by
  unfold State.stgCheck
  repeat' first | (with_reducible assumption) | intro _ | with_reducible first | apply Keeps.stgResult | apply Keeps.uncheck | apply Keeps.stgGate | (with_reducible apply Keeps.ite) | split

theorem Keeps.stgCommit {m : Master} (h : Keeps G s t)  (w_regs : G .regs = true) (w_mem : G .mem = true) (w_cfg : G .cfg = true) :
    Keeps G s (State.stgCommit t m) := by
  unfold State.stgCommit
  try lift_lets
  repeat' first | (with_reducible assumption) | intro _ | with_reducible first | apply Keeps.commitGuard | apply Keeps.stgResult | apply Keeps.stgGate | apply Keeps.modCfg | (with_reducible apply Keeps.ite) | split | (dsimp +zetaDelta only)

theorem Keeps.stgAbandon {m : Master} (h : Keeps G s t)  (w_regs : G .regs = true) (w_mem : G .mem = true) (w_cfg : G .cfg = true) :
    Keeps G s (State.stgAbandon t m) := by
  unfold State.stgAbandon
  repeat' first | (with_reducible assumption) | intro _ | with_reducible first | apply Keeps.stgResult | apply Keeps.clogNote | apply Keeps.unstage | apply Keeps.modCfg | (with_reducible apply Keeps.ite) | split

theorem Keeps.stgCmd {m : Master} {v : Word} (h : Keeps G s t)  (w_regs : G .regs = true) (w_mem : G .mem = true) (w_host : G .host = true) (w_flt : G .flt = true) (w_cfg : G .cfg = true) :
    Keeps G s (State.stgCmd t m v) := by
  unfold State.stgCmd
  try lift_lets
  repeat' first | (with_reducible assumption) | intro _ | with_reducible first | apply Keeps.stgAbandon | apply Keeps.stgCommit | apply Keeps.cmdWrite | apply Keeps.stgCheck | apply Keeps.stgBegin | (with_reducible apply Keeps.ite) | split | (dsimp +zetaDelta only)

theorem Keeps.stgData {m : Master} {v : Word} {ok : Bool} (h : Keeps G s t)  (w_regs : G .regs = true) (w_mem : G .mem = true) (w_host : G .host = true) (w_flt : G .flt = true) (w_cfg : G .cfg = true) :
    Keeps G s (State.stgData t m v ok) := by
  unfold State.stgData
  try lift_lets
  repeat' first | (with_reducible assumption) | intro _ | with_reducible first | apply Keeps.stageBytes | apply Keeps.stgResult | apply Keeps.cmdWrite | apply Keeps.wrN | apply Keeps.wr | (with_reducible apply Keeps.ite) | split | (dsimp +zetaDelta only)

theorem Keeps.configure {k : Nat} (h : Keeps G s t)  (w_dev : G .dev = true) (w_regs : G .regs = true) (w_mem : G .mem = true) (w_host : G .host = true) (w_eng : G .eng = true) (w_flt : G .flt = true) (w_log : G .log = true) (w_evt : G .evt = true) (w_cfg : G .cfg = true) (w_lcs : G .lcs = true) (w_fab : G .fab = true) (w_net : G .net = true) :
    Keeps G s (State.configure t k) := by
  unfold State.configure
  try lift_lets
  repeat' first | (with_reducible assumption) | intro _ | with_reducible first | apply Keeps.setHash16 | apply Keeps.candidate | apply Keeps.setGrade | apply Keeps.wrN | refine Keeps.modEng ?_ (fun _ => rfl) ?_ | (with_reducible apply Keeps.ite) | split | (dsimp +zetaDelta only)

theorem Keeps.recodeProduced {old : State} (h : Keeps G s t)  (w_mem : G .mem = true) (w_eng : G .eng = true) :
    Keeps G s (State.recodeProduced t old) := by
  unfold State.recodeProduced
  try lift_lets
  repeat' first | (with_reducible assumption) | intro _ | with_reducible first | apply Keeps.devWrite | apply Keeps.imgWr | apply Keeps.each | (with_reducible apply Keeps.ite) | refine Keeps.of_fst (by with_reducible assumption) ?_ | split | (dsimp +zetaDelta only)

theorem Keeps.newSlots {old : State} (h : Keeps G s t)  (w_mem : G .mem = true) (w_eng : G .eng = true) :
    Keeps G s (State.newSlots t old) := by
  unfold State.newSlots
  try lift_lets
  repeat' first | (with_reducible assumption) | intro _ | with_reducible first | apply Keeps.imgWr | apply Keeps.each | (with_reducible apply Keeps.ite) | split | (dsimp +zetaDelta only)

theorem Keeps.freshChannel {n : Nat} (h : Keeps G s t)  (w_regs : G .regs = true) (w_mem : G .mem = true) (w_eng : G .eng = true) (w_field : G .field = true) :
    Keeps G s (State.freshChannel t n) := by
  unfold State.freshChannel
  try lift_lets
  repeat' first | (with_reducible assumption) | intro _ | with_reducible first | apply Keeps.devWrite | apply Keeps.chShow | apply Keeps.swOff | apply Keeps.modCh | (with_reducible apply Keeps.ite) | split | (dsimp +zetaDelta only)

theorem Keeps.freshField {old : State} (h : Keeps G s t)  (w_regs : G .regs = true) (w_mem : G .mem = true) (w_eng : G .eng = true) (w_field : G .field = true) :
    Keeps G s (State.freshField t old) := by
  unfold State.freshField
  try lift_lets
  repeat' first | (with_reducible assumption) | intro _ | with_reducible first | apply Keeps.freshChannel | apply Keeps.spdEnable | apply Keeps.devWrite | apply Keeps.modBank | apply Keeps.each | (with_reducible apply Keeps.ite) | split | (dsimp +zetaDelta only)

theorem Keeps.freshTimers {old : State} (h : Keeps G s t)  (w_regs : G .regs = true) (w_tim : G .tim = true) :
    Keeps G s (State.freshTimers t old) := by
  unfold State.freshTimers
  repeat' first | (with_reducible assumption) | intro _ | with_reducible first | apply Keeps.tAutostart | apply Keeps.modTimer | apply Keeps.each | (with_reducible apply Keeps.ite) | split

theorem Keeps.firstTokens  (h : Keeps G s t)  (w_regs : G .regs = true) (w_fab : G .fab = true) :
    Keeps G s (State.firstTokens t) := by
  unfold State.firstTokens
  repeat' first | (with_reducible assumption) | intro _ | with_reducible first | apply Keeps.setTok | apply Keeps.each | (with_reducible apply Keeps.ite) | split

theorem Keeps.freshLinks  (h : Keeps G s t)  (w_regs : G .regs = true) (w_mem : G .mem = true) (w_eng : G .eng = true) (w_flt : G .flt = true) (w_fab : G .fab = true) (w_net : G .net = true) :
    Keeps G s (State.freshLinks t) := by
  unfold State.freshLinks
  try lift_lets
  repeat' first | (with_reducible assumption) | intro _ | with_reducible first | apply Keeps.portDetect | apply Keeps.connsMode | apply Keeps.modPart | apply Keeps.modPort | apply Keeps.portOff | apply Keeps.each | apply Keeps.wrN | refine Keeps.modEng ?_ (fun _ => rfl) ?_ | apply Keeps.modFab | (with_reducible apply Keeps.ite) | split | (dsimp +zetaDelta only)

theorem Keeps.pairRequests  (h : Keeps G s t)  (w_eng : G .eng = true) :
    Keeps G s (State.pairRequests t) := by
  unfold State.pairRequests
  try lift_lets
  repeat' first | (with_reducible assumption) | intro _ | with_reducible first | apply Keeps.modPair | apply Keeps.each | (with_reducible apply Keeps.ite) | split | (dsimp +zetaDelta only)

theorem Keeps.commitSwitch  (h : Keeps G s t)  (w_dev : G .dev = true) (w_regs : G .regs = true) (w_mem : G .mem = true) (w_host : G .host = true) (w_eng : G .eng = true) (w_flt : G .flt = true) (w_log : G .log = true) (w_evt : G .evt = true) (w_cfg : G .cfg = true) (w_mer : G .mer = true) (w_tim : G .tim = true) (w_lcs : G .lcs = true) (w_field : G .field = true) (w_fab : G .fab = true) (w_net : G .net = true) (w_vern : G .vern = true) :
    Keeps G s (State.commitSwitch t) := by
  unfold State.commitSwitch
  try lift_lets
  repeat' first | (with_reducible assumption) | intro _ | with_reducible first | apply Keeps.recodeProduced | apply Keeps.pairRequests | apply Keeps.freshTimers | apply Keeps.firstTokens | apply Keeps.endSessions | apply Keeps.tryOperate | apply Keeps.vernCommit | apply Keeps.freshField | apply Keeps.freshLinks | apply Keeps.swapRefuse | apply Keeps.configure | apply Keeps.stgResult | apply Keeps.newSlots | apply Keeps.stopAll | apply Keeps.opEvent | apply Keeps.unstage | apply Keeps.bump | apply Keeps.each | apply Keeps.modCfg | (with_reducible apply Keeps.ite) | split | (dsimp +zetaDelta only)

theorem Keeps.switchRefuse  (h : Keeps G s t)  (w_regs : G .regs = true) (w_mem : G .mem = true) (w_flt : G .flt = true) (w_cfg : G .cfg = true) :
    Keeps G s (State.switchRefuse t) := by
  unfold State.switchRefuse
  repeat' first | (with_reducible assumption) | intro _ | with_reducible first | apply Keeps.stgResult | apply Keeps.clogNote | apply Keeps.uncheck | apply Keeps.raise0 | apply Keeps.modCfg | (with_reducible apply Keeps.ite) | split

theorem Keeps.switchStep  (h : Keeps G s t)  (w_dev : G .dev = true) (w_regs : G .regs = true) (w_mem : G .mem = true) (w_host : G .host = true) (w_eng : G .eng = true) (w_flt : G .flt = true) (w_log : G .log = true) (w_evt : G .evt = true) (w_cfg : G .cfg = true) (w_mer : G .mer = true) (w_tim : G .tim = true) (w_lcs : G .lcs = true) (w_field : G .field = true) (w_fab : G .fab = true) (w_net : G .net = true) (w_vern : G .vern = true) :
    Keeps G s (State.switchStep t) := by
  unfold State.switchStep
  repeat' first | (with_reducible assumption) | intro _ | with_reducible first | apply Keeps.commitSwitch | apply Keeps.switchRefuse | (with_reducible apply Keeps.ite) | split

theorem Keeps.pwChanged {role : Nat} {part : Nat} {salt : BitVec 128} {iter : Nat} {v : BitVec 256} (h : Keeps G s t)  (w_cfg : G .cfg = true) :
    Keeps G s (State.pwChanged t role part salt iter v) := by
  unfold State.pwChanged
  repeat' first | (with_reducible assumption) | intro _ | with_reducible first | apply Keeps.modCfg | (with_reducible apply Keeps.ite) | split

theorem Keeps.actDone {a0 : PendAct} (h : Keeps G s t)  (w_dev : G .dev = true) (w_regs : G .regs = true) (w_mem : G .mem = true) (w_host : G .host = true) (w_eng : G .eng = true) (w_flt : G .flt = true) (w_log : G .log = true) (w_cfg : G .cfg = true) (w_mer : G .mer = true) (w_field : G .field = true) (w_fab : G .fab = true) (w_net : G .net = true) (w_ngl : G .ngl = true) (w_free : G .free = true) :
    Keeps G s (State.actDone t a0) := by
  unfold State.actDone
  repeat' first | (with_reducible assumption) | intro _ | with_reducible first | apply Keeps.modKeySlot | apply Keeps.mapEdited | apply Keeps.pwChanged | apply Keeps.forceEnd | apply Keeps.pwChange | apply Keeps.trimDone | apply Keeps.forceDo | apply Keeps.injFire | apply Keeps.frcStat | apply Keeps.vgAcked | apply Keeps.keyPut | apply Keeps.keyDel | apply Keeps.each | apply Keeps.modCfg | apply Keeps.id' | (with_reducible apply Keeps.ite) | refine Keeps.of_fst (by with_reducible assumption) ?_ | split

theorem Keeps.actRefused {a0 : PendAct} (h : Keeps G s t)  (w_regs : G .regs = true) (w_flt : G .flt = true) (w_cfg : G .cfg = true) (w_field : G .field = true) :
    Keeps G s (State.actRefused t a0) := by
  unfold State.actRefused
  repeat' first | (with_reducible assumption) | intro _ | with_reducible first | apply Keeps.keyResult | apply Keeps.stgResult | apply Keeps.setFld | apply Keeps.modInj | apply Keeps.modCh | apply Keeps.modCfg | (with_reducible apply Keeps.ite) | split

theorem Keeps.clogDone {ok : Bool} (h : Keeps G s t)  (w_dev : G .dev = true) (w_regs : G .regs = true) (w_mem : G .mem = true) (w_host : G .host = true) (w_eng : G .eng = true) (w_flt : G .flt = true) (w_log : G .log = true) (w_cfg : G .cfg = true) (w_mer : G .mer = true) (w_field : G .field = true) (w_fab : G .fab = true) (w_net : G .net = true) (w_ngl : G .ngl = true) (w_free : G .free = true) :
    Keeps G s (State.clogDone t ok) := by
  unfold State.clogDone
  try lift_lets
  repeat' first | (with_reducible assumption) | intro _ | with_reducible first | apply Keeps.actRefused | apply Keeps.clogWrite | apply Keeps.actDone | apply Keeps.raise0 | apply Keeps.modCfg | (with_reducible apply Keeps.ite) | refine Keeps.of_fst (by with_reducible assumption) ?_ | split | (dsimp +zetaDelta only)

theorem Keeps.setMsg {kind : Nat} {arg8 : Nat} {dest : Nat} {arg64 : Nat} (h : Keeps G s t)  (w_fab : G .fab = true) :
    Keeps G s (State.setMsg t kind arg8 dest arg64) := by
  unfold State.setMsg
  repeat' first | (with_reducible assumption) | intro _ | with_reducible first | apply Keeps.bulk | (with_reducible apply Keeps.ite) | split

theorem Keeps.setDrop  (h : Keeps G s t)  (w_regs : G .regs = true) (w_mem : G .mem = true) (w_cfg : G .cfg = true) :
    Keeps G s (State.setDrop t) := by
  unfold State.setDrop
  repeat' first | (with_reducible assumption) | intro _ | with_reducible first | apply Keeps.stgResult | apply Keeps.clogNote | apply Keeps.unstage | (with_reducible apply Keeps.ite) | split

theorem Keeps.coordAbort  (h : Keeps G s t)  (w_regs : G .regs = true) (w_mem : G .mem = true) (w_cfg : G .cfg = true) (w_fab : G .fab = true) :
    Keeps G s (State.coordAbort t) := by
  unfold State.coordAbort
  repeat' first | (with_reducible assumption) | intro _ | with_reducible first | apply Keeps.setDrop | apply Keeps.setMsg | (with_reducible apply Keeps.ite) | split

theorem Keeps.voteIn {slot : Nat} {yes : Nat} {arg : Nat} (h : Keeps G s t)  (w_regs : G .regs = true) (w_mem : G .mem = true) (w_cfg : G .cfg = true) (w_fab : G .fab = true) :
    Keeps G s (State.voteIn t slot yes arg) := by
  unfold State.voteIn
  try lift_lets
  repeat' first | (with_reducible assumption) | intro _ | with_reducible first | apply Keeps.setSwitchAt | apply Keeps.coordAbort | apply Keeps.modCfg | (with_reducible apply Keeps.ite) | split | (dsimp +zetaDelta only)

theorem Keeps.ownVote  (h : Keeps G s t)  (w_regs : G .regs = true) (w_mem : G .mem = true) (w_cfg : G .cfg = true) (w_fab : G .fab = true) :
    Keeps G s (State.ownVote t) := by
  unfold State.ownVote
  try lift_lets
  repeat' first | (with_reducible assumption) | intro _ | with_reducible first | apply Keeps.stgResult | apply Keeps.voteIn | apply Keeps.setMsg | apply Keeps.modCfg | (with_reducible apply Keeps.ite) | split | (dsimp +zetaDelta only)

theorem Keeps.coordCommit  (h : Keeps G s t)  (w_fab : G .fab = true) :
    Keeps G s (State.coordCommit t) := by
  unfold State.coordCommit
  repeat' first | (with_reducible assumption) | intro _ | with_reducible first | apply Keeps.setMsg | (with_reducible apply Keeps.ite) | refine Keeps.of_fst (by with_reducible assumption) ?_ | split

theorem Keeps.almSendPart {slot : Nat} {b : Nat} {off : Nat} {len : Nat} (h : Keeps G s t)  (w_fab : G .fab = true) :
    Keeps G s (State.almSendPart t slot b off len) := by
  unfold State.almSendPart
  repeat' first | (with_reducible assumption) | intro _ | with_reducible first | apply Keeps.bulk | (with_reducible apply Keeps.ite) | split

theorem Keeps.almOwnPart  (h : Keeps G s t)  (w_cfg : G .cfg = true) (w_fab : G .fab = true) :
    Keeps G s (State.almOwnPart t) := by
  unfold State.almOwnPart
  try lift_lets
  repeat' first | (with_reducible assumption) | intro _ | with_reducible first | apply Keeps.almSendPart | apply Keeps.modCfg | (with_reducible apply Keeps.ite) | refine Keeps.of_fst (by with_reducible assumption) ?_ | split | (dsimp +zetaDelta only)

theorem Keeps.almFragment  (h : Keeps G s t)  (w_cfg : G .cfg = true) (w_fab : G .fab = true) :
    Keeps G s (State.almFragment t) := by
  unfold State.almFragment
  try lift_lets
  repeat' first | (with_reducible assumption) | intro _ | with_reducible first | apply Keeps.almSendPart | apply Keeps.almOwnPart | apply Keeps.modCfg | (with_reducible apply Keeps.ite) | refine Keeps.of_fst (by with_reducible assumption) ?_ | split | (dsimp +zetaDelta only)

theorem Keeps.almAsk {off : Nat} (h : Keeps G s t)  (w_fab : G .fab = true) :
    Keeps G s (State.almAsk t off) := by
  unfold State.almAsk
  repeat' first | (with_reducible assumption) | intro _ | with_reducible first | apply Keeps.bulk | (with_reducible apply Keeps.ite) | split

theorem Keeps.rxBulk {p : Nat} {kind : Nat} {bs : List Byte} {ln : RxLine} (h : Keeps G s t)  (w_regs : G .regs = true) (w_host : G .host = true) (w_flt : G .flt = true) (w_cfg : G .cfg = true) (w_fab : G .fab = true) (w_net : G .net = true) :
    Keeps G s (State.rxBulk t p kind bs ln).1 := by
  unfold State.rxBulk
  try lift_lets
  repeat' first | (with_reducible assumption) | intro _ | with_reducible first | apply Keeps.rxPass | (with_reducible apply Keeps.ite) | split | (dsimp +zetaDelta only)

theorem Keeps.almData {pl : List Byte} (h : Keeps G s t)  (w_regs : G .regs = true) (w_mem : G .mem = true) (w_cfg : G .cfg = true) (w_fab : G .fab = true) :
    Keeps G s (State.almData t pl) := by
  unfold State.almData
  try lift_lets
  repeat' first | (with_reducible assumption) | (intro hw; simp only [mems_wf_iff] at hw; obtain ⟨w1, w2, w3, w4, w5, w6, w7, w8⟩ := hw; simp [mems_wf_iff, mem_wf_write, *]; done) | intro _ | with_reducible first | apply Keeps.stgResult | apply Keeps.stageNew | apply Keeps.almAsk | apply Keeps.modMem | apply Keeps.modCfg | (with_reducible apply Keeps.ite) | split | (dsimp +zetaDelta only)

theorem Keeps.almKeep {pl : List Byte} (h : Keeps G s t) (w_mem : G .mem = true) : Keeps G s (State.almKeep t pl) := by
  unfold State.almKeep
  refine Keeps.modMem h (fun hw => ?_) w_mem
  simp only [mems_wf_iff] at hw ⊢
  obtain ⟨w1, w2, w3, w4, w5, w6, w7, w8⟩ := hw
  by_cases h0 : leAt pl 8 4 = 0 <;> simp [h0, mem_wf_write, mem_wf_clear, *]

end Sys2Proof.Laws
end

