-- ==== Sys2Proof/Laws/KeepsBus.lean ====
section
/-! SUPPORT. Which groups of the state the operations of Startup, Boundary, Bus change. -/

namespace Sys2Proof.Laws

open Sys2Proof Sys2Proof.Machine

variable {G : Group → Bool} {s t : State}

theorem initImage_wf (slot : BitVec 12) (sf : Nat) : Memory.wf (initImage slot sf) = true := by
  unfold initImage; exact mem_wf_ofBytes _ _

theorem Keeps.initImg {slot : BitVec 12} {sf : Nat} (h : Keeps G s t) (w_mem : G .mem = true) :
    Keeps G s (t.modMem fun m => { m with img := initImage slot sf }) := by
  have hi := initImage_wf slot sf
  generalize initImage slot sf = im at hi ⊢
  exact Keeps.modMem h (fun w => (mems_wf_iff _).2 ⟨hi, ((mems_wf_iff _).1 w).2⟩) w_mem

/-- The memories after a reset. -/
theorem wiped_mem {logm : Mem} {same : Bool} : (t.wiped logm same).mem = { Mems.reset with
    img := initImage t.dev.slot 0
    logm := logm
    flash := t.mem.flash
    spill := t.mem.spill
    clog := t.mem.clog } := by
  unfold State.wiped; rfl

theorem Keeps.wiped {logm : Mem} {same : Bool} (h : Keeps G s t) (hl : t.mem.wf = true → Memory.wf logm = true) (w_dev : G .dev = true) (w_regs : G .regs = true) (w_mem : G .mem = true) (w_host : G .host = true) (w_eng : G .eng = true) (w_flt : G .flt = true) (w_log : G .log = true) (w_evt : G .evt = true) (w_cfg : G .cfg = true) (w_mer : G .mer = true) (w_tim : G .tim = true) (w_lcs : G .lcs = true) (w_field : G .field = true) (w_fab : G .fab = true) (w_net : G .net = true) (w_vern : G .vern = true) (w_ngl : G .ngl = true) :
    Keeps G s (State.wiped t logm same) := by
  constructor
  case pending => exact h.pending
  case free => exact h.free
  case part => exact fun _ => .inr (show 0 < 16 by decide)
  case wf =>
    intro w
    have k := (mems_wf_iff _).1 (h.wf w)
    have hi := initImage_wf t.dev.slot 0
    rw [wiped_mem]
    generalize initImage t.dev.slot 0 = im at hi ⊢
    exact (mems_wf_iff _).2 ⟨hi, hl (h.wf w), rfl, rfl, k.2.2.2.2.1, k.2.2.2.2.2.1, k.2.2.2.2.2.2.1, rfl⟩
  case dev => exact fun k => absurd k (by simp [w_dev])
  case regs => exact fun k => absurd k (by simp [w_regs])
  case mem => exact fun k => absurd k (by simp [w_mem])
  case host => exact fun k => absurd k (by simp [w_host])
  case eng => exact fun k => absurd k (by simp [w_eng])
  case flt => exact fun k => absurd k (by simp [w_flt])
  case log => exact fun k => absurd k (by simp [w_log])
  case evt => exact fun k => absurd k (by simp [w_evt])
  case cfg => exact fun k => absurd k (by simp [w_cfg])
  case mer => exact fun k => absurd k (by simp [w_mer])
  case tim => exact fun k => absurd k (by simp [w_tim])
  case lcs => exact fun k => absurd k (by simp [w_lcs])
  case field => exact fun k => absurd k (by simp [w_field])
  case fab => exact fun k => absurd k (by simp [w_fab])
  case net => exact fun k => absurd k (by simp [w_net])
  case vern => exact fun k => absurd k (by simp [w_vern])
  case ngl => exact fun k => absurd k (by simp [w_ngl])

theorem Keeps.bootRequest  (h : Keeps G s t)  (w_regs : G .regs = true) :
    Keeps G s (State.bootRequest t) := by
  unfold State.bootRequest
  repeat' first | (with_reducible assumption) | intro _ | with_reducible first | apply Keeps.setBit | apply Keeps.each | (with_reducible apply Keeps.ite) | split

theorem Keeps.porRelease {cause : Nat} {env : StartEnv} (h : Keeps G s t) (w_dev : G .dev = true) (w_regs : G .regs = true) (w_mem : G .mem = true) (w_host : G .host = true) (w_eng : G .eng = true) (w_flt : G .flt = true) (w_log : G .log = true) (w_evt : G .evt = true) (w_cfg : G .cfg = true) (w_mer : G .mer = true) (w_tim : G .tim = true) (w_lcs : G .lcs = true) (w_field : G .field = true) (w_fab : G .fab = true) (w_net : G .net = true) (w_vern : G .vern = true) (w_ngl : G .ngl = true) :
    Keeps G s (State.porRelease t cause env) := by
  unfold State.porRelease
  lift_lets
  have hm : t.mem.wf = true → Memory.wf (if cause = 1 || cause = 2 then t.mem.logm else []) = true := by
    intro w; split
    · exact ((mems_wf_iff _).1 w).2.1
    · rfl
  repeat' first | (with_reducible assumption) | exact hm | (with_reducible apply Keeps.initImg) | intro _ | with_reducible first | apply Keeps.wrN | apply Keeps.modNet | apply Keeps.bump | apply Keeps.modLcs | apply Keeps.modDev | apply Keeps.modMer | apply Keeps.setBit | apply Keeps.setNow | apply Keeps.rtcSet | apply Keeps.bootRequest | apply Keeps.wiped | (with_reducible apply Keeps.ite) | split | (dsimp +zetaDelta only)

theorem Keeps.sense {env : StartEnv} (h : Keeps G s t)  (w_regs : G .regs = true) (w_flt : G .flt = true) (w_lcs : G .lcs = true) :
    Keeps G s (State.sense t env) := by
  unfold State.sense
  try lift_lets
  repeat' first | (with_reducible assumption) | intro _ | with_reducible first | apply Keeps.otpShow | apply Keeps.setBit | apply Keeps.raise0 | apply Keeps.setFld | apply Keeps.when | apply Keeps.wrN | apply Keeps.modLcs | apply Keeps.foldl | apply Keeps.foldlFst | (with_reducible apply Keeps.ite) | refine Keeps.of_fst (by with_reducible assumption) ?_ | split | (dsimp +zetaDelta only)

theorem Keeps.lagBurn  (h : Keeps G s t)  (w_regs : G .regs = true) (w_lcs : G .lcs = true) :
    Keeps G s (State.lagBurn t) := by
  unfold State.lagBurn
  repeat' first | (with_reducible assumption) | intro _ | with_reducible first | apply Keeps.setBit | apply Keeps.modLcs | (with_reducible apply Keeps.ite) | split

theorem Keeps.logRebuild (h : Keeps G s t) (w_regs : G .regs = true) (w_mem : G .mem = true) (w_log : G .log = true) :
    Keeps G s (State.logRebuild t) := by
  unfold State.logRebuild
  lift_lets
  have hm (p : Nat × Byte → Bool) : t.mem.wf = true → Memory.wf (t.mem.logm.filter p) = true :=
    fun w => mem_wf_filter ((mems_wf_iff _).1 w).2.1
  repeat' first | (with_reducible assumption) | (intro hw; exact (mems_wf_iff _).2 ⟨((mems_wf_iff _).1 hw).1, hm _ hw, ((mems_wf_iff _).1 hw).2.2⟩) | intro _ | with_reducible first | apply Keeps.setFld | apply Keeps.wrN | apply Keeps.modMem | apply Keeps.modLog | (with_reducible apply Keeps.ite) | split | (dsimp +zetaDelta only)

theorem Keeps.bootData  (h : Keeps G s t)  (w_regs : G .regs = true) (w_lcs : G .lcs = true) :
    Keeps G s (State.bootData t).1 := by
  unfold State.bootData
  try lift_lets
  repeat' first | (with_reducible assumption) | intro _ | with_reducible first | apply Keeps.rngDraw | apply Keeps.nonce | (with_reducible apply Keeps.ite) | refine Keeps.of_fst (by with_reducible assumption) ?_ | split | (dsimp +zetaDelta only)

theorem Keeps.logFirst  (h : Keeps G s t)  (w_regs : G .regs = true) (w_mem : G .mem = true) (w_host : G .host = true) (w_flt : G .flt = true) (w_log : G .log = true) (w_lcs : G .lcs = true) :
    Keeps G s (State.logFirst t) := by
  unfold State.logFirst
  try lift_lets
  repeat' first | (with_reducible assumption) | intro _ | with_reducible first | apply Keeps.logRebuild | apply Keeps.bootData | apply Keeps.opEvent | (with_reducible apply Keeps.ite) | split | (dsimp +zetaDelta only)

theorem Keeps.logReopen  (h : Keeps G s t)  (w_regs : G .regs = true) (w_mem : G .mem = true) (w_host : G .host = true) (w_flt : G .flt = true) (w_log : G .log = true) (w_lcs : G .lcs = true) :
    Keeps G s (State.logReopen t) := by
  unfold State.logReopen
  repeat' first | (with_reducible assumption) | intro _ | with_reducible first | apply Keeps.logFirst | apply Keeps.opEvent | (with_reducible apply Keeps.ite) | split

theorem Keeps.clogVerify  (h : Keeps G s t)  (w_regs : G .regs = true) (w_flt : G .flt = true) (w_cfg : G .cfg = true) :
    Keeps G s (State.clogVerify t) := by
  unfold State.clogVerify
  repeat' first | (with_reducible assumption) | intro _ | with_reducible first | apply Keeps.raise0 | apply Keeps.modCfg | (with_reducible apply Keeps.ite) | refine Keeps.of_fst (by with_reducible assumption) ?_ | split

theorem Keeps.pairStart {n : Nat} (h : Keeps G s t)  (w_regs : G .regs = true) :
    Keeps G s (State.pairStart t n) := by
  unfold State.pairStart
  repeat' first | (with_reducible assumption) | intro _ | with_reducible first | apply Keeps.setFld | (with_reducible apply Keeps.ite) | split

theorem Keeps.imageInit  (h : Keeps G s t)  (w_mem : G .mem = true) (w_eng : G .eng = true) :
    Keeps G s (State.imageInit t) := by
  unfold State.imageInit
  repeat' first | (with_reducible assumption) | intro _ | with_reducible first | apply Keeps.devWrite | apply Keeps.each | (with_reducible apply Keeps.ite) | split

theorem Keeps.localCommit {k : Nat} (h : Keeps G s t)  (w_dev : G .dev = true) (w_regs : G .regs = true) (w_mem : G .mem = true) (w_host : G .host = true) (w_eng : G .eng = true) (w_flt : G .flt = true) (w_log : G .log = true) (w_evt : G .evt = true) (w_cfg : G .cfg = true) (w_lcs : G .lcs = true) (w_field : G .field = true) (w_fab : G .fab = true) (w_net : G .net = true) :
    Keeps G s (State.localCommit t k) := by
  unfold State.localCommit
  try lift_lets
  repeat' first | (with_reducible assumption) | intro _ | with_reducible first | apply Keeps.firstTokens | apply Keeps.imageInit | apply Keeps.configure | apply Keeps.spdEnable | apply Keeps.pairStart | apply Keeps.newSlots | apply Keeps.each | (with_reducible apply Keeps.ite) | split | (dsimp +zetaDelta only)

theorem Keeps.almanac  (h : Keeps G s t)  (w_dev : G .dev = true) (w_regs : G .regs = true) (w_mem : G .mem = true) (w_host : G .host = true) (w_eng : G .eng = true) (w_flt : G .flt = true) (w_log : G .log = true) (w_evt : G .evt = true) (w_cfg : G .cfg = true) (w_lcs : G .lcs = true) (w_field : G .field = true) (w_fab : G .fab = true) (w_net : G .net = true) :
    Keeps G s (State.almanac t) := by
  unfold State.almanac
  try lift_lets
  repeat' first | (with_reducible assumption) | intro _ | with_reducible first | apply Keeps.localCommit | apply Keeps.imageInit | apply Keeps.pairStart | apply Keeps.lagBurn | apply Keeps.setBit | apply Keeps.raise0 | apply Keeps.when | apply Keeps.each | apply Keeps.wrN | (with_reducible apply Keeps.ite) | refine Keeps.of_fst (by with_reducible assumption) ?_ | split | (dsimp +zetaDelta only)

theorem Keeps.bootStuck {step : Nat} (h : Keeps G s t)  (w_regs : G .regs = true) (w_lcs : G .lcs = true) :
    Keeps G s (State.bootStuck t step) := by
  unfold State.bootStuck
  repeat' first | (with_reducible assumption) | intro _ | with_reducible first | apply Keeps.wrN | apply Keeps.modLcs | (with_reducible apply Keeps.ite) | split

theorem Keeps.otpHalt  (h : Keeps G s t)  (w_dev : G .dev = true) (w_regs : G .regs = true) (w_mem : G .mem = true) (w_host : G .host = true) (w_eng : G .eng = true) (w_flt : G .flt = true) (w_log : G .log = true) (w_cfg : G .cfg = true) (w_mer : G .mer = true) (w_lcs : G .lcs = true) (w_fab : G .fab = true) (w_net : G .net = true) :
    Keeps G s (State.otpHalt t) := by
  unfold State.otpHalt
  repeat' first | (with_reducible assumption) | intro _ | with_reducible first | apply Keeps.newSvcChal | apply Keeps.modeCause | apply Keeps.logFirst | apply Keeps.setMode | apply Keeps.wrN | (with_reducible apply Keeps.ite) | split

theorem Keeps.pairsLoose {b : Bool} (h : Keeps G s t)  (w_regs : G .regs = true) :
    Keeps G s (State.pairsLoose t b) := by
  unfold State.pairsLoose
  repeat' first | (with_reducible assumption) | intro _ | with_reducible first | apply Keeps.setFld | apply Keeps.each | (with_reducible apply Keeps.ite) | split

theorem Keeps.testFail {step : Nat} {src : Nat} (h : Keeps G s t)  (w_dev : G .dev = true) (w_regs : G .regs = true) (w_mem : G .mem = true) (w_host : G .host = true) (w_eng : G .eng = true) (w_flt : G .flt = true) (w_log : G .log = true) (w_cfg : G .cfg = true) (w_mer : G .mer = true) (w_lcs : G .lcs = true) (w_fab : G .fab = true) (w_net : G .net = true) :
    Keeps G s (State.testFail t step src) := by
  unfold State.testFail
  repeat' first | (with_reducible assumption) | intro _ | with_reducible first | apply Keeps.pairsLoose | apply Keeps.newSvcChal | apply Keeps.safeState | apply Keeps.logReopen | apply Keeps.raise0 | apply Keeps.wrN | (with_reducible apply Keeps.ite) | split

theorem Keeps.fieldTest {f : FieldFind} (h : Keeps G s t)  (w_regs : G .regs = true) (w_mem : G .mem = true) (w_host : G .host = true) (w_eng : G .eng = true) (w_flt : G .flt = true) (w_log : G .log = true) (w_field : G .field = true) :
    Keeps G s (State.fieldTest t f) := by
  unfold State.fieldTest
  repeat' first | (with_reducible assumption) | intro _ | with_reducible first | apply Keeps.fieldCheck | apply Keeps.setBit | (with_reducible apply Keeps.ite) | split

theorem Keeps.localReady {env : StartEnv} (h : Keeps G s t)  (w_dev : G .dev = true) (w_regs : G .regs = true) (w_mem : G .mem = true) (w_host : G .host = true) (w_eng : G .eng = true) (w_flt : G .flt = true) (w_log : G .log = true) (w_cfg : G .cfg = true) (w_mer : G .mer = true) (w_tim : G .tim = true) (w_lcs : G .lcs = true) (w_fab : G .fab = true) (w_net : G .net = true) (w_vern : G .vern = true) (w_ngl : G .ngl = true) :
    Keeps G s (State.localReady t env) := by
  unfold State.localReady
  try lift_lets
  repeat' first | (with_reducible assumption) | intro _ | with_reducible first | apply Keeps.clogVerify | apply Keeps.newSvcChal | apply Keeps.tryOperate | apply Keeps.logReopen | apply Keeps.nglReady | apply Keeps.setMode | apply Keeps.raise0 | apply Keeps.vnShow | apply Keeps.when | apply Keeps.wrN | apply Keeps.modVern | (with_reducible apply Keeps.ite) | split | (dsimp +zetaDelta only)

theorem Keeps.selfTest {env : StartEnv} {transp : Bool} (h : Keeps G s t)  (w_dev : G .dev = true) (w_regs : G .regs = true) (w_mem : G .mem = true) (w_host : G .host = true) (w_eng : G .eng = true) (w_flt : G .flt = true) (w_log : G .log = true) (w_evt : G .evt = true) (w_cfg : G .cfg = true) (w_mer : G .mer = true) (w_tim : G .tim = true) (w_lcs : G .lcs = true) (w_field : G .field = true) (w_fab : G .fab = true) (w_net : G .net = true) (w_vern : G .vern = true) (w_ngl : G .ngl = true) :
    Keeps G s (State.selfTest t env transp) := by
  unfold State.selfTest
  try lift_lets
  repeat' first | (with_reducible assumption) | intro _ | with_reducible first | apply Keeps.pairsLoose | apply Keeps.localReady | apply Keeps.newSvcChal | apply Keeps.safeState | apply Keeps.logReopen | apply Keeps.fieldTest | apply Keeps.testFail | apply Keeps.almanac | apply Keeps.setBit | apply Keeps.wrN | apply Keeps.modDev | apply Keeps.modFlt | (with_reducible apply Keeps.ite) | refine Keeps.of_fst (by with_reducible assumption) ?_ | split | (dsimp +zetaDelta only)

theorem Keeps.lcNote  (h : Keeps G s t)  (w_regs : G .regs = true) (w_flt : G .flt = true) (w_lcs : G .lcs = true) :
    Keeps G s (State.lcNote t) := by
  unfold State.lcNote
  repeat' first | (with_reducible assumption) | intro _ | with_reducible first | apply Keeps.raise0 | apply Keeps.modLcs | (with_reducible apply Keeps.ite) | split

theorem Keeps.startUp {cause : Nat} {env : StartEnv} (h : Keeps G s t)  (w_dev : G .dev = true) (w_regs : G .regs = true) (w_mem : G .mem = true) (w_host : G .host = true) (w_eng : G .eng = true) (w_flt : G .flt = true) (w_log : G .log = true) (w_evt : G .evt = true) (w_cfg : G .cfg = true) (w_mer : G .mer = true) (w_tim : G .tim = true) (w_lcs : G .lcs = true) (w_field : G .field = true) (w_fab : G .fab = true) (w_net : G .net = true) (w_vern : G .vern = true) (w_ngl : G .ngl = true) :
    Keeps G s (State.startUp t cause env) := by
  unfold State.startUp
  try lift_lets
  repeat' first | (with_reducible assumption) | intro _ | with_reducible first | apply Keeps.porRelease | apply Keeps.bootStuck | apply Keeps.selfTest | apply Keeps.otpHalt | apply Keeps.lcNote | apply Keeps.sense | (with_reducible apply Keeps.ite) | split | (dsimp +zetaDelta only)

theorem Keeps.toBoot  (h : Keeps G s t)  (w_dev : G .dev = true) (w_regs : G .regs = true) (w_mem : G .mem = true) (w_host : G .host = true) (w_eng : G .eng = true) (w_flt : G .flt = true) (w_log : G .log = true) (w_mer : G .mer = true) (w_field : G .field = true) (w_fab : G .fab = true) (w_net : G .net = true) :
    Keeps G s (State.toBoot t) := by
  unfold State.toBoot
  try lift_lets
  repeat' first | (with_reducible assumption) | intro _ | with_reducible first | apply Keeps.devWrite | apply Keeps.setMode | apply Keeps.swOff | apply Keeps.each | (with_reducible apply Keeps.ite) | split | (dsimp +zetaDelta only)

theorem Keeps.lcBurn {state : Nat} {fails : Fin 3} (h : Keeps G s t)  (w_regs : G .regs = true) (w_flt : G .flt = true) (w_lcs : G .lcs = true) :
    Keeps G s (State.lcBurn t state fails) := by
  unfold State.lcBurn
  repeat' first | (with_reducible assumption) | intro _ | with_reducible first | apply Keeps.otpSet | apply Keeps.raise0 | apply Keeps.modLcs | (with_reducible apply Keeps.ite) | refine Keeps.of_fst (by with_reducible assumption) ?_ | split

theorem Keeps.restart {cause : Nat} {env : StartEnv} (h : Keeps G s t)  (w_dev : G .dev = true) (w_regs : G .regs = true) (w_mem : G .mem = true) (w_host : G .host = true) (w_eng : G .eng = true) (w_flt : G .flt = true) (w_log : G .log = true) (w_evt : G .evt = true) (w_cfg : G .cfg = true) (w_mer : G .mer = true) (w_tim : G .tim = true) (w_lcs : G .lcs = true) (w_field : G .field = true) (w_fab : G .fab = true) (w_net : G .net = true) (w_vern : G .vern = true) (w_ngl : G .ngl = true) :
    Keeps G s (State.restart t cause env) := by
  unfold State.restart
  repeat' first | (with_reducible assumption) | intro _ | with_reducible first | apply Keeps.startUp | apply Keeps.toBoot | (with_reducible apply Keeps.ite) | split

theorem Keeps.changed {cause : Nat} {env : StartEnv} (h : Keeps G s t)  (w_dev : G .dev = true) (w_regs : G .regs = true) (w_mem : G .mem = true) (w_host : G .host = true) (w_eng : G .eng = true) (w_flt : G .flt = true) (w_log : G .log = true) (w_evt : G .evt = true) (w_cfg : G .cfg = true) (w_mer : G .mer = true) (w_tim : G .tim = true) (w_lcs : G .lcs = true) (w_field : G .field = true) (w_fab : G .fab = true) (w_net : G .net = true) (w_vern : G .vern = true) (w_ngl : G .ngl = true) :
    Keeps G s (State.changed t cause env) := by
  unfold State.changed
  repeat' first | (with_reducible assumption) | intro _ | with_reducible first | apply Keeps.restart | apply Keeps.modLcs | (with_reducible apply Keeps.ite) | split

theorem Keeps.advance {m : Master} {fails : Fin 3} {next : State → State} (h : Keeps G s t) (hf_next : ∀ x0, Keeps G s x0 → Keeps G s (next x0)) (w_regs : G .regs = true) (w_mem : G .mem = true) (w_flt : G .flt = true) (w_cfg : G .cfg = true) (w_lcs : G .lcs = true) :
    Keeps G s (State.advance t m fails next) := by
  unfold State.advance
  try lift_lets
  repeat' first | (with_reducible assumption) | intro _ | (with_reducible apply hf_next) | with_reducible first | apply Keeps.clogNote | apply Keeps.lcBurn | (with_reducible apply Keeps.ite) | split | (dsimp +zetaDelta only)

theorem Keeps.svcFail {m : Master} (h : Keeps G s t)  (w_regs : G .regs = true) (w_mem : G .mem = true) (w_flt : G .flt = true) (w_cfg : G .cfg = true) (w_lcs : G .lcs = true) :
    Keeps G s (State.svcFail t m) := by
  unfold State.svcFail
  repeat' first | (with_reducible assumption) | intro _ | with_reducible first | apply Keeps.newSvcChal | apply Keeps.clogNote | apply Keeps.raise0 | apply Keeps.wrN | (with_reducible apply Keeps.ite) | split

theorem Keeps.svcReturn {m : Master} {fails : Fin 3} {next : State → State} (h : Keeps G s t) (hf_next : ∀ x0, Keeps G s x0 → Keeps G s (next x0)) (w_regs : G .regs = true) (w_mem : G .mem = true) (w_flt : G .flt = true) (w_cfg : G .cfg = true) (w_lcs : G .lcs = true) (w_net : G .net = true) :
    Keeps G s (State.svcReturn t m fails next) := by
  unfold State.svcReturn
  try lift_lets
  repeat' first | (with_reducible assumption) | (intro hw; simp only [mems_wf_iff] at hw; obtain ⟨w1, w2, w3, w4, w5, w6, w7, w8⟩ := hw; simp [mems_wf_iff, mem_wf_clear, *]; done) | intro _ | (with_reducible apply hf_next) | with_reducible first | apply Keeps.clogNote | apply Keeps.svcFail | apply Keeps.lcBurn | apply Keeps.modMem | apply Keeps.modCfg | apply Keeps.modNet | (with_reducible apply Keeps.ite) | split | (dsimp +zetaDelta only)

theorem Keeps.svcExec {m : Master} {fails : Fin 3} {reset : State → State} {returned : State → State} (h : Keeps G s t) (hf_reset : ∀ x0, Keeps G s x0 → Keeps G s (reset x0)) (hf_returned : ∀ x0, Keeps G s x0 → Keeps G s (returned x0)) (w_regs : G .regs = true) (w_mem : G .mem = true) (w_flt : G .flt = true) (w_cfg : G .cfg = true) (w_lcs : G .lcs = true) (w_net : G .net = true) :
    Keeps G s (State.svcExec t m fails reset returned) := by
  unfold State.svcExec
  try lift_lets
  repeat' first | (with_reducible assumption) | intro _ | (with_reducible apply hf_reset) | (with_reducible apply hf_returned) | with_reducible first | apply Keeps.newSvcChal | apply Keeps.svcReturn | apply Keeps.clogNote | apply Keeps.svcFail | apply Keeps.wrN | (with_reducible apply Keeps.ite) | split | (dsimp +zetaDelta only)

theorem Keeps.svcWrite {m : Master} {fails : Fin 3} {env : StartEnv} (h : Keeps G s t)  (w_dev : G .dev = true) (w_regs : G .regs = true) (w_mem : G .mem = true) (w_host : G .host = true) (w_eng : G .eng = true) (w_flt : G .flt = true) (w_log : G .log = true) (w_evt : G .evt = true) (w_cfg : G .cfg = true) (w_mer : G .mer = true) (w_tim : G .tim = true) (w_lcs : G .lcs = true) (w_field : G .field = true) (w_fab : G .fab = true) (w_net : G .net = true) (w_vern : G .vern = true) (w_ngl : G .ngl = true) :
    Keeps G s (State.svcWrite t m fails env) := by
  unfold State.svcWrite
  repeat' first | (with_reducible assumption) | intro _ | with_reducible first | apply Keeps.freeWrite | apply Keeps.svcExec | apply Keeps.restart | apply Keeps.changed | (with_reducible apply Keeps.ite) | split

theorem Keeps.status {idx : Nat} {v : Nat} (h : Keeps G s t)  (w_mem : G .mem = true) (w_eng : G .eng = true) :
    Keeps G s (State.status t idx v) := by
  unfold State.status
  repeat' first | (with_reducible assumption) | intro _ | with_reducible first | apply Keeps.devWrite | (with_reducible apply Keeps.ite) | split

theorem Keeps.statusWrite  (h : Keeps G s t)  (w_mem : G .mem = true) (w_eng : G .eng = true) :
    Keeps G s (State.statusWrite t) := by
  unfold State.statusWrite
  try lift_lets
  repeat' first | (with_reducible assumption) | intro _ | with_reducible first | apply Keeps.devWrite | apply Keeps.status | apply Keeps.each | (with_reducible apply Keeps.ite) | split | (dsimp +zetaDelta only)

theorem Keeps.forceWrite {p : Nat} (h : Keeps G s t)  (w_mem : G .mem = true) (w_eng : G .eng = true) :
    Keeps G s (State.forceWrite t p) := by
  unfold State.forceWrite
  repeat' first | (with_reducible assumption) | intro _ | with_reducible first | apply Keeps.devShow | apply Keeps.each | (with_reducible apply Keeps.ite) | split

theorem Keeps.superframe  (h : Keeps G s t)  (w_regs : G .regs = true) (w_mem : G .mem = true) (w_host : G .host = true) (w_eng : G .eng = true) (w_flt : G .flt = true) (w_log : G .log = true) (w_mer : G .mer = true) (w_tim : G .tim = true) (w_field : G .field = true) (w_fab : G .fab = true) (w_net : G .net = true) (w_free : G .free = true) :
    Keeps G s (State.superframe t) := by
  unfold State.superframe
  try lift_lets
  repeat' first | (with_reducible assumption) | intro _ | with_reducible first | apply Keeps.applyPartCmd | apply Keeps.chSuperframe | apply Keeps.statusWrite | apply Keeps.forceWrite | apply Keeps.tCaptures | apply Keeps.markFresh | apply Keeps.sendSync | apply Keeps.spdWrite | apply Keeps.modPort | apply Keeps.fwdTake | apply Keeps.each | refine Keeps.modEng ?_ (fun _ => rfl) ?_ | apply Keeps.modNet | (with_reducible apply Keeps.ite) | split | (dsimp +zetaDelta only)

theorem Keeps.swapStep {p : Nat} (h : Keeps G s t)  (w_regs : G .regs = true) (w_eng : G .eng = true) (w_flt : G .flt = true) :
    Keeps G s (State.swapStep t p) := by
  unfold State.swapStep
  repeat' first | (with_reducible assumption) | intro _ | with_reducible first | apply Keeps.swapRefuse | apply Keeps.swapDrop | apply Keeps.setBit | apply Keeps.setFld | apply Keeps.wr | (with_reducible apply Keeps.ite) | split

theorem Keeps.setCmode {n : Nat} {k : Nat} (h : Keeps G s t)  (w_regs : G .regs = true) :
    Keeps G s (State.setCmode t n k) := by
  unfold State.setCmode
  repeat' first | (with_reducible assumption) | intro _ | with_reducible first | apply Keeps.setFld | (with_reducible apply Keeps.ite) | split

theorem Keeps.setPhase {n : Nat} {k : Nat} (h : Keeps G s t)  (w_regs : G .regs = true) :
    Keeps G s (State.setPhase t n k) := by
  unfold State.setPhase
  repeat' first | (with_reducible assumption) | intro _ | with_reducible first | apply Keeps.setFld | (with_reducible apply Keeps.ite) | split

theorem Keeps.pairOffline {n : Nat} (h : Keeps G s t)  (w_regs : G .regs = true) (w_eng : G .eng = true) :
    Keeps G s (State.pairOffline t n) := by
  unfold State.pairOffline
  try lift_lets
  repeat' first | (with_reducible assumption) | intro _ | with_reducible first | apply Keeps.setPhase | apply Keeps.setCmode | apply Keeps.modPair | apply Keeps.setFld | (with_reducible apply Keeps.ite) | split | (dsimp +zetaDelta only)

theorem Keeps.verifyEnd {n : Nat} (h : Keeps G s t)  (w_regs : G .regs = true) (w_eng : G .eng = true) (w_flt : G .flt = true) :
    Keeps G s (State.verifyEnd t n) := by
  unfold State.verifyEnd
  try lift_lets
  repeat' first | (with_reducible assumption) | intro _ | with_reducible first | apply Keeps.setCmode | apply Keeps.setPhase | apply Keeps.modPair | apply Keeps.setBit | apply Keeps.raise | (with_reducible apply Keeps.ite) | split | (dsimp +zetaDelta only)

theorem Keeps.verifyBegin {n : Nat} (h : Keeps G s t)  (w_regs : G .regs = true) (w_eng : G .eng = true) :
    Keeps G s (State.verifyBegin t n) := by
  unfold State.verifyBegin
  try lift_lets
  repeat' first | (with_reducible assumption) | intro _ | with_reducible first | apply Keeps.setPhase | apply Keeps.setCmode | apply Keeps.modPair | (with_reducible apply Keeps.ite) | split | (dsimp +zetaDelta only)

theorem Keeps.pairAsk {n : Nat} (h : Keeps G s t)  (w_regs : G .regs = true) (w_eng : G .eng = true) :
    Keeps G s (State.pairAsk t n) := by
  unfold State.pairAsk
  try lift_lets
  repeat' first | (with_reducible assumption) | intro _ | with_reducible first | apply Keeps.setCmode | apply Keeps.setPhase | apply Keeps.modPair | apply Keeps.setBit | (with_reducible apply Keeps.ite) | refine Keeps.of_fst (by with_reducible assumption) ?_ | split | (dsimp +zetaDelta only)

theorem Keeps.pairStep {n : Nat} (h : Keeps G s t)  (w_regs : G .regs = true) (w_eng : G .eng = true) (w_flt : G .flt = true) :
    Keeps G s (State.pairStep t n) := by
  unfold State.pairStep
  try lift_lets
  repeat' first | (with_reducible assumption) | intro _ | with_reducible first | apply Keeps.pairOffline | apply Keeps.verifyBegin | apply Keeps.verifyEnd | apply Keeps.setCmode | apply Keeps.pairAsk | (with_reducible apply Keeps.ite) | split | (dsimp +zetaDelta only)

theorem Keeps.rcuStep  (h : Keeps G s t)  (w_lcs : G .lcs = true) :
    Keeps G s (State.rcuStep t) := by
  unfold State.rcuStep
  repeat' first | (with_reducible assumption) | intro _ | with_reducible first | apply Keeps.when | apply Keeps.modLcs | (with_reducible apply Keeps.ite) | split

theorem Keeps.handback {p : Nat} (h : Keeps G s t)  (w_regs : G .regs = true) (w_fab : G .fab = true) :
    Keeps G s (State.handback t p) := by
  unfold State.handback
  try lift_lets
  repeat' first | (with_reducible assumption) | intro _ | with_reducible first | apply Keeps.setTok | apply Keeps.modTok | (with_reducible apply Keeps.ite) | split | (dsimp +zetaDelta only)

theorem Keeps.rearmStep  (h : Keeps G s t)  (w_regs : G .regs = true) (w_mer : G .mer = true) (w_tim : G .tim = true) :
    Keeps G s (State.rearmStep t) := by
  unfold State.rearmStep
  repeat' first | (with_reducible assumption) | intro _ | with_reducible first | apply Keeps.each | apply Keeps.tArm | apply Keeps.modMer | (with_reducible apply Keeps.ite) | split

theorem Keeps.resumeStep  (h : Keeps G s t)  (w_dev : G .dev = true) (w_regs : G .regs = true) (w_mem : G .mem = true) (w_host : G .host = true) (w_eng : G .eng = true) (w_flt : G .flt = true) (w_log : G .log = true) (w_mer : G .mer = true) (w_tim : G .tim = true) (w_fab : G .fab = true) (w_net : G .net = true) :
    Keeps G s (State.resumeStep t) := by
  unfold State.resumeStep
  try lift_lets
  repeat' first | (with_reducible assumption) | intro _ | with_reducible first | apply Keeps.tAutostart | apply Keeps.setMode | apply Keeps.wrN | apply Keeps.modDev | apply Keeps.modFlt | (with_reducible apply Keeps.ite) | split | (dsimp +zetaDelta only)

theorem Keeps.majorFrame  (h : Keeps G s t)  (w_dev : G .dev = true) (w_regs : G .regs = true) (w_mem : G .mem = true) (w_host : G .host = true) (w_eng : G .eng = true) (w_flt : G .flt = true) (w_log : G .log = true) (w_evt : G .evt = true) (w_cfg : G .cfg = true) (w_mer : G .mer = true) (w_tim : G .tim = true) (w_lcs : G .lcs = true) (w_field : G .field = true) (w_fab : G .fab = true) (w_net : G .net = true) (w_vern : G .vern = true) (w_ngl : G .ngl = true) :
    Keeps G s (State.majorFrame t) := by
  unfold State.majorFrame
  try lift_lets
  repeat' first | (with_reducible assumption) | intro _ | with_reducible first | apply Keeps.flushCaches | apply Keeps.resumeGrade | apply Keeps.switchStep | apply Keeps.resumeStep | apply Keeps.gradeStep | apply Keeps.rearmStep | apply Keeps.pairStep | apply Keeps.handback | apply Keeps.dormEval | apply Keeps.swapStep | apply Keeps.rcuStep | apply Keeps.bump64 | apply Keeps.each | refine Keeps.modEng ?_ (fun _ => rfl) ?_ | (with_reducible apply Keeps.ite) | split | (dsimp +zetaDelta only)

theorem Keeps.resumeCmd {v : Word} (h : Keeps G s t)  (w_regs : G .regs = true) (w_flt : G .flt = true) :
    Keeps G s (State.resumeCmd t v) := by
  unfold State.resumeCmd
  try lift_lets
  repeat' first | (with_reducible assumption) | intro _ | with_reducible first | apply Keeps.wrN | apply Keeps.modFlt | (with_reducible apply Keeps.ite) | split | (dsimp +zetaDelta only)

theorem Keeps.resumeWrite {m : Master} {v : Word} (h : Keeps G s t)  (w_regs : G .regs = true) (w_host : G .host = true) (w_flt : G .flt = true) (w_cfg : G .cfg = true) :
    Keeps G s (State.resumeWrite t m v) := by
  unfold State.resumeWrite
  try lift_lets
  repeat' first | (with_reducible assumption) | intro _ | with_reducible first | apply Keeps.resumeCmd | apply Keeps.cmdWrite | apply Keeps.wrN | (with_reducible apply Keeps.ite) | split | (dsimp +zetaDelta only)

theorem Keeps.tRewrite {a : Nat} {v : Word} (h : Keeps G s t)  (w_regs : G .regs = true) (w_mem : G .mem = true) (w_host : G .host = true) (w_flt : G .flt = true) (w_log : G .log = true) (w_mer : G .mer = true) (w_tim : G .tim = true) (w_fab : G .fab = true) (w_net : G .net = true) :
    Keeps G s (State.tRewrite t a v) := by
  unfold State.tRewrite
  try lift_lets
  repeat' first | (with_reducible assumption) | intro _ | with_reducible first | apply Keeps.tMatch | apply Keeps.tHold | (with_reducible apply Keeps.ite) | refine Keeps.of_fst (by with_reducible assumption) ?_ | split | (dsimp +zetaDelta only)

theorem Keeps.store {m : Master} {a : Nat} {r : RegSpec} {v : Word} (h : Keeps G s t)  (w_regs : G .regs = true) (w_mem : G .mem = true) (w_host : G .host = true) (w_flt : G .flt = true) (w_log : G .log = true) (w_mer : G .mer = true) (w_tim : G .tim = true) (w_fab : G .fab = true) (w_net : G .net = true) :
    Keeps G s (State.store t m a r v) := by
  unfold State.store
  try lift_lets
  repeat' first | (with_reducible assumption) | intro _ | with_reducible first | apply Keeps.modMaster | apply Keeps.tRewrite | apply Keeps.wr | (with_reducible apply Keeps.ite) | refine Keeps.of_fst (by with_reducible assumption) ?_ | split | (dsimp +zetaDelta only)

theorem Keeps.storeLocked {m : Master} {a : Nat} {r : RegSpec} {v : Word} (h : Keeps G s t)  (w_regs : G .regs = true) (w_mem : G .mem = true) (w_host : G .host = true) (w_flt : G .flt = true) (w_log : G .log = true) (w_mer : G .mer = true) (w_tim : G .tim = true) (w_fab : G .fab = true) (w_net : G .net = true) :
    Keeps G s (State.storeLocked t m a r v) := by
  unfold State.storeLocked
  try lift_lets
  repeat' first | (with_reducible assumption) | intro _ | with_reducible first | apply Keeps.denied | apply Keeps.store | (with_reducible apply Keeps.ite) | split | (dsimp +zetaDelta only)

theorem Keeps.plainWrite {m : Master} {a : Nat} {r : RegSpec} {v : Word} (h : Keeps G s t)  (w_regs : G .regs = true) (w_mem : G .mem = true) (w_host : G .host = true) (w_flt : G .flt = true) (w_log : G .log = true) (w_cfg : G .cfg = true) (w_mer : G .mer = true) (w_tim : G .tim = true) (w_fab : G .fab = true) (w_net : G .net = true) :
    Keeps G s (State.plainWrite t m a r v) := by
  unfold State.plainWrite
  try lift_lets
  repeat' first | (with_reducible assumption) | intro _ | with_reducible first | apply Keeps.expertDenied | apply Keeps.storeLocked | apply Keeps.noteWrite | apply Keeps.modMaster | apply Keeps.denied | apply Keeps.store | (with_reducible apply Keeps.ite) | split | (dsimp +zetaDelta only)

theorem Keeps.pgEn {m : Master} {pg : Nat} {en : Bool} (h : Keeps G s t)  (w_regs : G .regs = true) (w_flt : G .flt = true) :
    Keeps G s (State.pgEn t m pg en) := by
  unfold State.pgEn
  try lift_lets
  repeat' first | (with_reducible assumption) | intro _ | with_reducible first | apply Keeps.setBit | apply Keeps.denied | (with_reducible apply Keeps.ite) | split | (dsimp +zetaDelta only)

theorem Keeps.pgExpert {m : Master} {pg : Nat} {ex : Bool} (h : Keeps G s t)  (w_regs : G .regs = true) (w_flt : G .flt = true) :
    Keeps G s (State.pgExpert t m pg ex) := by
  unfold State.pgExpert
  try lift_lets
  repeat' first | (with_reducible assumption) | intro _ | with_reducible first | apply Keeps.expertDenied | apply Keeps.setBit | (with_reducible apply Keeps.ite) | split | (dsimp +zetaDelta only)

theorem Keeps.pgLock {pg : Nat} (h : Keeps G s t)  (w_regs : G .regs = true) :
    Keeps G s (State.pgLock t pg) := by
  unfold State.pgLock
  repeat' first | (with_reducible assumption) | intro _ | with_reducible first | apply Keeps.setBit | (with_reducible apply Keeps.ite) | split

theorem Keeps.pgCtrl {m : Master} {pg : Nat} {v : Word} (h : Keeps G s t)  (w_regs : G .regs = true) (w_host : G .host = true) (w_flt : G .flt = true) (w_cfg : G .cfg = true) :
    Keeps G s (State.pgCtrl t m pg v) := by
  unfold State.pgCtrl
  repeat' first | (with_reducible assumption) | intro _ | with_reducible first | apply Keeps.cmdWrite | apply Keeps.pgExpert | apply Keeps.pgLock | apply Keeps.when | apply Keeps.pgEn | (with_reducible apply Keeps.ite) | split

theorem Keeps.pgCtrlAt {m : Master} {pg : Nat} {v : Word} (h : Keeps G s t)  (w_regs : G .regs = true) (w_host : G .host = true) (w_flt : G .flt = true) (w_cfg : G .cfg = true) :
    Keeps G s (State.pgCtrlAt t m pg v) := by
  unfold State.pgCtrlAt
  repeat' first | (with_reducible assumption) | intro _ | with_reducible first | apply Keeps.pgCtrl | (with_reducible apply Keeps.ite) | split

theorem Keeps.wrCommon {m : Master} {pg : Nat} {o : Nat} {v : Word} (h : Keeps G s t)  (w_regs : G .regs = true) (w_mem : G .mem = true) (w_host : G .host = true) (w_flt : G .flt = true) (w_cfg : G .cfg = true) :
    ∀ u, State.wrCommon t m pg o v = some u → Keeps G s u := by
  unfold State.wrCommon
  intro u
  repeat' first | (with_reducible assumption)  | split | refine Keeps.some' ?_ | exact Keeps.none' | with_reducible first | apply Keeps.freeWrite | apply Keeps.injWrite | apply Keeps.injKey | apply Keeps.pgCtrl | intro _ | (with_reducible apply Keeps.ite) | refine Keeps.of_fst (by with_reducible assumption) ?_ | split

theorem Keeps.wrW1c {m : Master} {a : Nat} {v : Word} {hw : Word} (h : Keeps G s t)  (w_regs : G .regs = true) (w_host : G .host = true) (w_cfg : G .cfg = true) :
    Keeps G s (State.wrW1c t m a v hw) := by
  unfold State.wrW1c
  repeat' first | (with_reducible assumption) | intro _ | with_reducible first | apply Keeps.pendClear | apply Keeps.freeWrite | apply Keeps.w1c | (with_reducible apply Keeps.ite) | split

theorem Keeps.wrXfer {m : Master} {o : Nat} {v : Word} (h : Keeps G s t)  (w_regs : G .regs = true) (w_host : G .host = true) (w_flt : G .flt = true) (w_cfg : G .cfg = true) :
    ∀ u, State.wrXfer t m o v = some u → Keeps G s u := by
  unfold State.wrXfer
  intro u
  try lift_lets
  repeat' first | (with_reducible assumption)  | split | refine Keeps.some' ?_ | exact Keeps.none' | with_reducible first | apply Keeps.xqConfig | apply Keeps.regCmd | apply Keeps.xfCtrl | apply Keeps.xqTail | intro _ | (with_reducible apply Keeps.ite) | refine Keeps.of_fst (by with_reducible assumption) ?_ | split | (dsimp +zetaDelta only)

theorem Keeps.wrDbgData {m : Master} {n : Nat} {v : Word} (h : Keeps G s t)  (w_regs : G .regs = true) (w_mem : G .mem = true) (w_host : G .host = true) (w_eng : G .eng = true) (w_flt : G .flt = true) (w_cfg : G .cfg = true) :
    Keeps G s (State.wrDbgData t m n v) := by
  unfold State.wrDbgData
  try lift_lets
  repeat' first | (with_reducible assumption) | intro _ | with_reducible first | apply Keeps.dbgRegWrite | apply Keeps.modMaster | apply Keeps.expertCmd | (with_reducible apply Keeps.ite) | refine Keeps.of_fst (by with_reducible assumption) ?_ | split | (dsimp +zetaDelta only)

theorem Keeps.wrPair {m : Master} {n : Nat} {o : Nat} {v : Word} {env : WriteEnv} (h : Keeps G s t)  (w_regs : G .regs = true) (w_mem : G .mem = true) (w_host : G .host = true) (w_eng : G .eng = true) (w_flt : G .flt = true) (w_cfg : G .cfg = true) (w_tim : G .tim = true) :
    ∀ u, State.wrPair t m n o v env = some u → Keeps G s u := by
  unfold State.wrPair
  intro u
  repeat' first | (with_reducible assumption)  | split | refine Keeps.some' ?_ | exact Keeps.none' | with_reducible first | apply Keeps.splitCtrl | apply Keeps.wrDbgData | apply Keeps.cmdWrite | apply Keeps.dbgCtrl | apply Keeps.dbgCmd | intro _ | (with_reducible apply Keeps.ite) | refine Keeps.of_fst (by with_reducible assumption) ?_ | split

theorem Keeps.wrMap {m : Master} {o : Nat} {v : Word} (h : Keeps G s t)  (w_regs : G .regs = true) (w_mem : G .mem = true) (w_host : G .host = true) (w_eng : G .eng = true) (w_flt : G .flt = true) (w_cfg : G .cfg = true) :
    ∀ u, State.wrMap t m o v = some u → Keeps G s u := by
  unfold State.wrMap
  intro u
  repeat' first | (with_reducible assumption)  | split | refine Keeps.some' ?_ | exact Keeps.none' | with_reducible first | apply Keeps.flushCaches | apply Keeps.cqWrite | apply Keeps.regCmd | apply Keeps.deCmd | apply Keeps.when | intro _ | (with_reducible apply Keeps.ite) | refine Keeps.of_fst (by with_reducible assumption) ?_ | split

theorem Keeps.wrTmr {m : Master} {g : Nat} {o : Nat} {v : Word} (h : Keeps G s t)  (w_regs : G .regs = true) (w_mem : G .mem = true) (w_host : G .host = true) (w_flt : G .flt = true) (w_log : G .log = true) (w_cfg : G .cfg = true) (w_mer : G .mer = true) (w_tim : G .tim = true) (w_fab : G .fab = true) (w_net : G .net = true) :
    ∀ u, State.wrTmr t m g o v = some u → Keeps G s u := by
  unfold State.wrTmr
  intro u
  try lift_lets
  repeat' first | (with_reducible assumption)  | split | refine Keeps.some' ?_ | exact Keeps.none' | with_reducible first | apply Keeps.tCntSet | apply Keeps.regCmd | apply Keeps.tCmd | intro _ | (with_reducible apply Keeps.ite) | refine Keeps.of_fst (by with_reducible assumption) ?_ | split | (dsimp +zetaDelta only)

theorem Keeps.wrLaneTest {m : Master} {l : Nat} {v : Word} (h : Keeps G s t)  (w_regs : G .regs = true) (w_host : G .host = true) (w_flt : G .flt = true) (w_cfg : G .cfg = true) (w_mer : G .mer = true) (w_fab : G .fab = true) (w_net : G .net = true) :
    Keeps G s (State.wrLaneTest t m l v) := by
  unfold State.wrLaneTest
  try lift_lets
  repeat' first | (with_reducible assumption) | intro _ | with_reducible first | apply Keeps.expertDenied | apply Keeps.expertCmd | apply Keeps.wrN | (with_reducible apply Keeps.ite) | refine Keeps.of_fst (by with_reducible assumption) ?_ | split | (dsimp +zetaDelta only)

theorem Keeps.wrKeys {m : Master} {o : Nat} {v : Word} (h : Keeps G s t)  (w_regs : G .regs = true) (w_mem : G .mem = true) (w_host : G .host = true) (w_flt : G .flt = true) (w_cfg : G .cfg = true) (w_net : G .net = true) :
    ∀ u, State.wrKeys t m o v = some u → Keeps G s u := by
  unfold State.wrKeys
  intro u
  try lift_lets
  repeat' first | (with_reducible assumption)  | split | refine Keeps.some' ?_ | exact Keeps.none' | with_reducible first | apply Keeps.cmdWrite | apply Keeps.keyCmd | apply Keeps.wr64 | apply Keeps.wrN | apply Keeps.modNet | intro _ | (with_reducible apply Keeps.ite) | split | (dsimp +zetaDelta only)

theorem Keeps.wrManSel {m : Master} {v : Word} (h : Keeps G s t)  (w_regs : G .regs = true) (w_host : G .host = true) (w_flt : G .flt = true) (w_cfg : G .cfg = true) :
    Keeps G s (State.wrManSel t m v) := by
  unfold State.wrManSel
  try lift_lets
  repeat' first | (with_reducible assumption) | intro _ | with_reducible first | apply Keeps.expertCmd | apply Keeps.cmdWrite | apply Keeps.wrN | (with_reducible apply Keeps.ite) | split | (dsimp +zetaDelta only)

theorem Keeps.wrLcs {m : Master} {o : Nat} {v : Word} {env : WriteEnv} (h : Keeps G s t)  (w_dev : G .dev = true) (w_regs : G .regs = true) (w_mem : G .mem = true) (w_host : G .host = true) (w_eng : G .eng = true) (w_flt : G .flt = true) (w_log : G .log = true) (w_evt : G .evt = true) (w_cfg : G .cfg = true) (w_mer : G .mer = true) (w_tim : G .tim = true) (w_lcs : G .lcs = true) (w_field : G .field = true) (w_fab : G .fab = true) (w_net : G .net = true) (w_vern : G .vern = true) (w_ngl : G .ngl = true) :
    ∀ u, State.wrLcs t m o v env = some u → Keeps G s u := by
  unfold State.wrLcs
  intro u
  repeat' first | (with_reducible assumption)  | split | refine Keeps.some' ?_ | exact Keeps.none' | with_reducible first | apply Keeps.cmdWrite | apply Keeps.wrManSel | apply Keeps.advance | apply Keeps.changed | apply Keeps.manCmd | apply Keeps.when | intro _ | (with_reducible apply Keeps.ite) | refine Keeps.of_fst (by with_reducible assumption) ?_ | split

theorem Keeps.wrCfg {m : Master} {o : Nat} {v : Word} {env : WriteEnv} (h : Keeps G s t)  (w_dev : G .dev = true) (w_regs : G .regs = true) (w_mem : G .mem = true) (w_host : G .host = true) (w_eng : G .eng = true) (w_flt : G .flt = true) (w_log : G .log = true) (w_evt : G .evt = true) (w_cfg : G .cfg = true) (w_mer : G .mer = true) (w_tim : G .tim = true) (w_lcs : G .lcs = true) (w_field : G .field = true) (w_fab : G .fab = true) (w_net : G .net = true) (w_vern : G .vern = true) (w_ngl : G .ngl = true) :
    ∀ u, State.wrCfg t m o v env = some u → Keeps G s u := by
  unfold State.wrCfg
  intro u
  repeat' first | (with_reducible assumption)  | split | refine Keeps.some' ?_ | exact Keeps.none' | with_reducible first | apply Keeps.partWrite | apply Keeps.freeWrite | apply Keeps.cmdWrite | apply Keeps.svcWrite | apply Keeps.frcWrite | apply Keeps.sessReq | apply Keeps.sessCmd | apply Keeps.fnWrite | apply Keeps.stgData | apply Keeps.stgCmd | apply Keeps.wr | apply Keeps.id' | intro _ | (with_reducible apply Keeps.ite) | refine Keeps.of_fst (by with_reducible assumption) ?_ | split

theorem Keeps.wrFlt {m : Master} {b : Block} {o : Nat} {v : Word} (h : Keeps G s t)  (w_regs : G .regs = true) (w_mem : G .mem = true) (w_host : G .host = true) (w_flt : G .flt = true) (w_log : G .log = true) (w_cfg : G .cfg = true) :
    ∀ u, State.wrFlt t m b o v = some u → Keeps G s u := by
  unfold State.wrFlt
  intro u
  repeat' first | (with_reducible assumption)  | split | refine Keeps.some' ?_ | exact Keeps.none' | with_reducible first | apply Keeps.resumeWrite | apply Keeps.cmdWrite | apply Keeps.polWrite | apply Keeps.regCmd | apply Keeps.cntCmd | intro _ | (with_reducible apply Keeps.ite) | refine Keeps.of_fst (by with_reducible assumption) ?_ | split

theorem Keeps.wrLog {m : Master} {o : Nat} {v : Word} (h : Keeps G s t)  (w_regs : G .regs = true) (w_mem : G .mem = true) (w_host : G .host = true) (w_flt : G .flt = true) (w_log : G .log = true) (w_cfg : G .cfg = true) :
    ∀ u, State.wrLog t m o v = some u → Keeps G s u := by
  unfold State.wrLog
  intro u
  repeat' first | (with_reducible assumption)  | split | refine Keeps.some' ?_ | exact Keeps.none' | with_reducible first | apply Keeps.logFlush | apply Keeps.regCmd | apply Keeps.flRead | apply Keeps.hostRp | apply Keeps.when | intro _ | (with_reducible apply Keeps.ite) | refine Keeps.of_fst (by with_reducible assumption) ?_ | split

theorem Keeps.dormWrite {m : Master} {v : Word} {field : FieldFind} (h : Keeps G s t)  (w_dev : G .dev = true) (w_regs : G .regs = true) (w_mem : G .mem = true) (w_host : G .host = true) (w_eng : G .eng = true) (w_flt : G .flt = true) (w_log : G .log = true) (w_cfg : G .cfg = true) (w_mer : G .mer = true) (w_tim : G .tim = true) (w_lcs : G .lcs = true) (w_field : G .field = true) (w_fab : G .fab = true) (w_net : G .net = true) (w_vern : G .vern = true) (w_ngl : G .ngl = true) (w_free : G .free = true) :
    Keeps G s (State.dormWrite t m v field) := by
  unfold State.dormWrite
  try lift_lets
  repeat' first | (with_reducible assumption) | intro _ | with_reducible first | apply Keeps.noteWrite | apply Keeps.cmdWrite | apply Keeps.wakeCmd | apply Keeps.dormAsk | apply Keeps.id' | (with_reducible apply Keeps.ite) | split | (dsimp +zetaDelta only)

theorem Keeps.wrField {m : Master} {b : Block} {i : Nat} {o : Nat} {v : Word} {env : WriteEnv} (h : Keeps G s t)  (w_regs : G .regs = true) (w_mem : G .mem = true) (w_host : G .host = true) (w_eng : G .eng = true) (w_flt : G .flt = true) (w_log : G .log = true) (w_cfg : G .cfg = true) (w_field : G .field = true) :
    ∀ u, State.wrField t m b i o v env = some u → Keeps G s u := by
  unfold State.wrField
  intro u
  repeat' first | (with_reducible assumption)  | split | refine Keeps.some' ?_ | exact Keeps.none' | with_reducible first | apply Keeps.bankCmd | apply Keeps.trimCmd | apply Keeps.spdCmd | apply Keeps.chCmd | intro _ | (with_reducible apply Keeps.ite) | refine Keeps.of_fst (by with_reducible assumption) ?_ | split

theorem Keeps.wrLinks {m : Master} {b : Block} {i : Nat} {o : Nat} {v : Word} (h : Keeps G s t)  (w_regs : G .regs = true) (w_mem : G .mem = true) (w_host : G .host = true) (w_flt : G .flt = true) (w_cfg : G .cfg = true) (w_mer : G .mer = true) (w_fab : G .fab = true) (w_net : G .net = true) :
    ∀ u, State.wrLinks t m b i o v = some u → Keeps G s u := by
  unfold State.wrLinks
  intro u
  repeat' first | (with_reducible assumption)  | split | refine Keeps.some' ?_ | exact Keeps.none' | with_reducible first | apply Keeps.wrLaneTest | apply Keeps.tokenCmd | apply Keeps.portCmd | apply Keeps.safeCmd | (apply Keeps.wrKeys <;> with_reducible assumption) | intro _ | (with_reducible apply Keeps.ite) | refine Keeps.of_fst (by with_reducible assumption) ?_ | split

theorem Keeps.wrDevice {m : Master} {b : Block} {o : Nat} {v : Word} {env : WriteEnv} (h : Keeps G s t)  (w_dev : G .dev = true) (w_regs : G .regs = true) (w_mem : G .mem = true) (w_host : G .host = true) (w_eng : G .eng = true) (w_flt : G .flt = true) (w_log : G .log = true) (w_evt : G .evt = true) (w_cfg : G .cfg = true) (w_mer : G .mer = true) (w_tim : G .tim = true) (w_lcs : G .lcs = true) (w_field : G .field = true) (w_fab : G .fab = true) (w_net : G .net = true) (w_vern : G .vern = true) (w_ngl : G .ngl = true) (w_free : G .free = true) :
    ∀ u, State.wrDevice t m b o v env = some u → Keeps G s u := by
  unfold State.wrDevice
  intro u
  repeat' first | (with_reducible assumption)  | split | refine Keeps.some' ?_ | exact Keeps.none' | with_reducible first | apply Keeps.routeWrite | apply Keeps.vgAckWrite | apply Keeps.burnWrite | apply Keeps.dormWrite | apply Keeps.cmdWrite | apply Keeps.regCmd | apply Keeps.vecAck | (apply Keeps.wrCfg <;> with_reducible assumption) | (apply Keeps.wrLcs <;> with_reducible assumption) | intro _ | (with_reducible apply Keeps.ite) | refine Keeps.of_fst (by with_reducible assumption) ?_ | split

theorem Keeps.wrBlock {m : Master} {b : Block} {i : Nat} {o : Nat} {v : Word} {env : WriteEnv} (h : Keeps G s t)  (w_dev : G .dev = true) (w_regs : G .regs = true) (w_mem : G .mem = true) (w_host : G .host = true) (w_eng : G .eng = true) (w_flt : G .flt = true) (w_log : G .log = true) (w_evt : G .evt = true) (w_cfg : G .cfg = true) (w_mer : G .mer = true) (w_tim : G .tim = true) (w_lcs : G .lcs = true) (w_field : G .field = true) (w_fab : G .fab = true) (w_net : G .net = true) (w_vern : G .vern = true) (w_ngl : G .ngl = true) (w_free : G .free = true) :
    ∀ u, State.wrBlock t m b i o v env = some u → Keeps G s u := by
  unfold State.wrBlock
  intro u
  repeat' first | (with_reducible assumption)  | split | refine Keeps.some' ?_ | exact Keeps.none' | (apply Keeps.wrDevice <;> with_reducible assumption) | (apply Keeps.wrField <;> with_reducible assumption) | (apply Keeps.wrLinks <;> with_reducible assumption) | (apply Keeps.wrPair <;> with_reducible assumption) | (apply Keeps.wrXfer <;> with_reducible assumption) | (apply Keeps.wrFlt <;> with_reducible assumption) | (apply Keeps.wrMap <;> with_reducible assumption) | (apply Keeps.wrTmr <;> with_reducible assumption) | (apply Keeps.wrLog <;> with_reducible assumption) | intro _ | (with_reducible apply Keeps.ite) | refine Keeps.of_fst (by with_reducible assumption) ?_ | split

theorem Keeps.busWrite {m : Master} {a : Nat} {v : Word} {env : WriteEnv} (h : Keeps G s t) (w_dev : G .dev = true) (w_regs : G .regs = true) (w_mem : G .mem = true) (w_host : G .host = true) (w_eng : G .eng = true) (w_flt : G .flt = true) (w_log : G .log = true) (w_evt : G .evt = true) (w_cfg : G .cfg = true) (w_mer : G .mer = true) (w_tim : G .tim = true) (w_lcs : G .lcs = true) (w_field : G .field = true) (w_fab : G .fab = true) (w_net : G .net = true) (w_vern : G .vern = true) (w_ngl : G .ngl = true) (w_free : G .free = true) :
    Keeps G s (State.busWrite t m a v env) := by
  unfold State.busWrite
  lift_lets
  intro o
  have key (b : Block) (i : Nat) : ∀ u,
      (if o < 0x40 then t.wrCommon m (a / 0x1000) o v else t.wrBlock m b i o v env) = some u → Keeps G s u := by
    intro u
    split <;> intro e
    · apply Keeps.wrCommon <;> with_reducible assumption
    · apply Keeps.wrBlock <;> with_reducible assumption
  repeat' first | (with_reducible assumption) | exact key _ _ _ (by with_reducible assumption) | with_reducible first | apply Keeps.plainWrite | apply Keeps.noteWrite | apply Keeps.wrW1c | split

theorem Keeps.busWrite64 {m : Master} {a : Nat} {lo : Word} {hi : Word} {env : WriteEnv} (h : Keeps G s t)  (w_dev : G .dev = true) (w_regs : G .regs = true) (w_mem : G .mem = true) (w_host : G .host = true) (w_eng : G .eng = true) (w_flt : G .flt = true) (w_log : G .log = true) (w_evt : G .evt = true) (w_cfg : G .cfg = true) (w_mer : G .mer = true) (w_tim : G .tim = true) (w_lcs : G .lcs = true) (w_field : G .field = true) (w_fab : G .fab = true) (w_net : G .net = true) (w_vern : G .vern = true) (w_ngl : G .ngl = true) (w_free : G .free = true) :
    Keeps G s (State.busWrite64 t m a lo hi env) := by
  unfold State.busWrite64
  repeat' first | (with_reducible assumption) | intro _ | with_reducible first | apply Keeps.noteWrite | apply Keeps.modMaster | apply Keeps.busWrite | (with_reducible apply Keeps.ite) | split

theorem Keeps.badSize {m : Master} (h : Keeps G s t)  (w_regs : G .regs = true) (w_flt : G .flt = true) :
    Keeps G s (State.badSize t m) := by
  unfold State.badSize
  repeat' first | (with_reducible assumption) | intro _ | with_reducible first | apply Keeps.raise0 | apply Keeps.bump | (with_reducible apply Keeps.ite) | refine Keeps.of_fst (by with_reducible assumption) ?_ | split

theorem Keeps.writeIn {m : Master} {a : Nat} {v : Word} {hi : Option Word} {env : WriteEnv} (h : Keeps G s t)  (w_dev : G .dev = true) (w_regs : G .regs = true) (w_mem : G .mem = true) (w_host : G .host = true) (w_eng : G .eng = true) (w_flt : G .flt = true) (w_log : G .log = true) (w_evt : G .evt = true) (w_cfg : G .cfg = true) (w_mer : G .mer = true) (w_tim : G .tim = true) (w_lcs : G .lcs = true) (w_field : G .field = true) (w_fab : G .fab = true) (w_net : G .net = true) (w_vern : G .vern = true) (w_ngl : G .ngl = true) (w_free : G .free = true) :
    Keeps G s (State.writeIn t m a v hi env) := by
  unfold State.writeIn
  repeat' first | (with_reducible assumption) | intro _ | with_reducible first | apply Keeps.busWrite64 | apply Keeps.busWrite | apply Keeps.badSize | (with_reducible apply Keeps.ite) | refine Keeps.of_fst (by with_reducible assumption) ?_ | split

theorem Keeps.rcClear {a : Nat} {r : RegSpec} (h : Keeps G s t)  (w_regs : G .regs = true) (w_net : G .net = true) :
    Keeps G s (State.rcClear t a r) := by
  unfold State.rcClear
  repeat' first | (with_reducible assumption) | intro _ | with_reducible first | apply Keeps.modConn | apply Keeps.wr | (with_reducible apply Keeps.ite) | refine Keeps.of_fst (by with_reducible assumption) ?_ | split

theorem Keeps.touch {a : Nat} (h : Keeps G s t)  (w_regs : G .regs = true) :
    Keeps G s (State.touch t a) := by
  unfold State.touch
  repeat' first | (with_reducible assumption) | intro _ | with_reducible first | apply Keeps.wakePage | (with_reducible apply Keeps.ite) | split

theorem Keeps.readLive {m : Master} {a : Nat} (h : Keeps G s t)  (w_regs : G .regs = true) (w_mem : G .mem = true) (w_eng : G .eng = true) (w_flt : G .flt = true) (w_lcs : G .lcs = true) (w_net : G .net = true) :
    Keeps G s (State.readLive t m a).1 := by
  unfold State.readLive
  try lift_lets
  repeat' first | (with_reducible assumption) | intro _ | with_reducible first | apply Keeps.replayPush | apply Keeps.rngRead | apply Keeps.rcClear | apply Keeps.touch | (with_reducible apply Keeps.ite) | refine Keeps.of_fst (by with_reducible assumption) ?_ | split | (dsimp +zetaDelta only)

theorem Keeps.busRead {m : Master} {a : Nat} (h : Keeps G s t)  (w_regs : G .regs = true) (w_mem : G .mem = true) (w_host : G .host = true) (w_eng : G .eng = true) (w_flt : G .flt = true) (w_lcs : G .lcs = true) (w_net : G .net = true) :
    Keeps G s (State.busRead t m a).1 := by
  unfold State.busRead
  try lift_lets
  repeat' first | (with_reducible assumption) | intro _ | with_reducible first | apply Keeps.modMaster | apply Keeps.readLive | (with_reducible apply Keeps.ite) | refine Keeps.of_fst (by with_reducible assumption) ?_ | split | (dsimp +zetaDelta only)

theorem Keeps.busRead64 {m : Master} {a : Nat} (h : Keeps G s t)  (w_regs : G .regs = true) (w_mem : G .mem = true) (w_eng : G .eng = true) (w_flt : G .flt = true) (w_lcs : G .lcs = true) (w_net : G .net = true) :
    Keeps G s (State.busRead64 t m a).1 := by
  unfold State.busRead64
  try lift_lets
  repeat' first | (with_reducible assumption) | intro _ | with_reducible first | apply Keeps.readLive | (with_reducible apply Keeps.ite) | refine Keeps.of_fst (by with_reducible assumption) ?_ | split | (dsimp +zetaDelta only)

theorem Keeps.readOut {m : Master} {a : Nat} {wide : Bool} (h : Keeps G s t)  (w_regs : G .regs = true) (w_mem : G .mem = true) (w_host : G .host = true) (w_eng : G .eng = true) (w_flt : G .flt = true) (w_lcs : G .lcs = true) (w_net : G .net = true) :
    Keeps G s (State.readOut t m a wide) := by
  unfold State.readOut
  try lift_lets
  repeat' first | (with_reducible assumption) | intro _ | with_reducible first | apply Keeps.busRead64 | apply Keeps.badSize | apply Keeps.busRead | apply Keeps.emit | (with_reducible apply Keeps.ite) | refine Keeps.of_fst (by with_reducible assumption) ?_ | split | (dsimp +zetaDelta only)

theorem Keeps.bar4Out {off : Nat} {wide : Bool} (h : Keeps G s t)  (w_host : G .host = true) :
    Keeps G s (State.bar4Out t off wide) := by
  unfold State.bar4Out
  repeat' first | (with_reducible assumption) | intro _ | with_reducible first | apply Keeps.emit | (with_reducible apply Keeps.ite) | split

theorem Keeps.spiDone {r : Nat} (h : Keeps G s t)  (w_host : G .host = true) :
    Keeps G s (State.spiDone t r) := by
  unfold State.spiDone
  repeat' first | (with_reducible assumption) | intro _ | with_reducible first | apply Keeps.modHost | (with_reducible apply Keeps.ite) | split

theorem Keeps.spiBad {r : Nat} (h : Keeps G s t)  (w_regs : G .regs = true) (w_host : G .host = true) :
    Keeps G s (State.spiBad t r) := by
  unfold State.spiBad
  repeat' first | (with_reducible assumption) | intro _ | with_reducible first | apply Keeps.spiDone | apply Keeps.bump | apply Keeps.emit | (with_reducible apply Keeps.ite) | split

theorem Keeps.undenied  (h : Keeps G s t)  (w_flt : G .flt = true) :
    Keeps G s (State.undenied t) := by
  unfold State.undenied
  repeat' first | (with_reducible assumption) | intro _ | with_reducible first | apply Keeps.modFlt | (with_reducible apply Keeps.ite) | split

theorem Keeps.spiApply {a : Nat} {w64 : Bool} {data : BitVec 64} {env : WriteEnv} (h : Keeps G s t)  (w_dev : G .dev = true) (w_regs : G .regs = true) (w_mem : G .mem = true) (w_host : G .host = true) (w_eng : G .eng = true) (w_flt : G .flt = true) (w_log : G .log = true) (w_evt : G .evt = true) (w_cfg : G .cfg = true) (w_mer : G .mer = true) (w_tim : G .tim = true) (w_lcs : G .lcs = true) (w_field : G .field = true) (w_fab : G .fab = true) (w_net : G .net = true) (w_vern : G .vern = true) (w_ngl : G .ngl = true) (w_free : G .free = true) :
    Keeps G s (State.spiApply t a w64 data env) := by
  unfold State.spiApply
  repeat' first | (with_reducible assumption) | intro _ | with_reducible first | apply Keeps.busWrite64 | apply Keeps.busWrite | (with_reducible apply Keeps.ite) | split

theorem Keeps.spiWrite {a : Nat} {w64 : Bool} {data : BitVec 64} {env : WriteEnv} (h : Keeps G s t)  (w_dev : G .dev = true) (w_regs : G .regs = true) (w_mem : G .mem = true) (w_host : G .host = true) (w_eng : G .eng = true) (w_flt : G .flt = true) (w_log : G .log = true) (w_evt : G .evt = true) (w_cfg : G .cfg = true) (w_mer : G .mer = true) (w_tim : G .tim = true) (w_lcs : G .lcs = true) (w_field : G .field = true) (w_fab : G .fab = true) (w_net : G .net = true) (w_vern : G .vern = true) (w_ngl : G .ngl = true) (w_free : G .free = true) :
    Keeps G s (State.spiWrite t a w64 data env) := by
  unfold State.spiWrite
  try lift_lets
  repeat' first | (with_reducible assumption) | intro _ | with_reducible first | apply Keeps.undenied | apply Keeps.spiApply | apply Keeps.spiDone | apply Keeps.emit | (with_reducible apply Keeps.ite) | refine Keeps.of_fst (by with_reducible assumption) ?_ | split | (dsimp +zetaDelta only)

theorem Keeps.spiRead {hdr : BitVec 32} {a : Nat} {w64 : Bool} (h : Keeps G s t)  (w_regs : G .regs = true) (w_mem : G .mem = true) (w_host : G .host = true) (w_eng : G .eng = true) (w_flt : G .flt = true) (w_lcs : G .lcs = true) (w_net : G .net = true) :
    Keeps G s (State.spiRead t hdr a w64) := by
  unfold State.spiRead
  try lift_lets
  repeat' first | (with_reducible assumption) | intro _ | with_reducible first | apply Keeps.busRead64 | apply Keeps.spiDone | apply Keeps.busRead | apply Keeps.emit | (with_reducible apply Keeps.ite) | split | (dsimp +zetaDelta only)

theorem Keeps.spiFrame {hdr : BitVec 32} {data : BitVec 64} {crc : Byte} {whole : Bool} {env : WriteEnv} (h : Keeps G s t)  (w_dev : G .dev = true) (w_regs : G .regs = true) (w_mem : G .mem = true) (w_host : G .host = true) (w_eng : G .eng = true) (w_flt : G .flt = true) (w_log : G .log = true) (w_evt : G .evt = true) (w_cfg : G .cfg = true) (w_mer : G .mer = true) (w_tim : G .tim = true) (w_lcs : G .lcs = true) (w_field : G .field = true) (w_fab : G .fab = true) (w_net : G .net = true) (w_vern : G .vern = true) (w_ngl : G .ngl = true) (w_free : G .free = true) :
    Keeps G s (State.spiFrame t hdr data crc whole env) := by
  unfold State.spiFrame
  try lift_lets
  repeat' first | (with_reducible assumption) | intro _ | with_reducible first | apply Keeps.spiWrite | apply Keeps.spiRead | apply Keeps.spiBad | apply Keeps.raise0 | (with_reducible apply Keeps.ite) | split | (dsimp +zetaDelta only)

end Sys2Proof.Laws
end

