-- ==== Sys2Proof/WellFormed.lean ====
section
/-! DEFINITION. What the operand types do not already bound: the lengths of frames, control blocks and PDUs, the lists of a
Vernier second, and the alignment of an 8-byte write. -/

namespace Sys2Proof

/-- A frame: at most what its 16-bit LEN, in 8-byte units, can give, with header, CRC and tag (R347). -/
def frameLenOk (bs : List Byte) : Bool := bs.length ≤ 524320

/-- A control block: 32 bytes (R351). -/
def blockLenOk (bs : List Byte) : Bool := bs.length = 32

/-- A PDU: what an Ethernet frame of the standard's largest payload can carry (R379). -/
def pduLenOk (bs : List Byte) : Bool := bs.length ≤ 1500

/-- Is the command one that the outside can send? -/
def Instr.wf : Instr → Bool
  | .mirrorFrameReceive _ bs _ | .imageFrameReceive _ bs _ | .spineFrameReceive _ bs _ | .syncFrameReceive _ bs _ _
  | .eventFrameReceive _ bs _ | .almReqReceive _ bs _ | .almDataReceive _ bs _ | .voteReceive _ bs _
  | .commitMsgReceive _ bs _ | .abortReceive _ bs _ => frameLenOk bs
  | .helloReceive _ bs _ | .heartbeatReceive _ bs _ | .linkNoticeReceive _ bs _ | .tokenReceive _ bs _ => blockLenOk bs
  | .safeFrameReceive _ _ bs => pduLenOk bs
  | .vernierSecond slack shift _ => slack.length = 24 && shift.length = 8
  | .registerWrite _ a _ (some _) _ => a.i.toNat % 2 = 0
  | _ => true

end Sys2Proof
end

