-- ==== Sys2Proof/Tests/Slice0.lean ====
section
/-! SUPPORT. Tests: small states that meet the statements' hypotheses, ill-formed commands that the check refuses, and results the
spec's own words, tables and worked examples give. -/

namespace Sys2Proof.Tests

open Sys2Proof Sys2Proof.Machine

-- One test after the other: a kernel evaluation waits for all before it, and each waiting one holds a thread.
set_option Elab.async false

-- The kernel's evaluation of memory lists goes deeper than Lean's default lets it.
set_option maxRecDepth 100000

/-! States -/

/-- Core 0 in a slot of partition 0 at index 10 of a window of 100 instructions, 1,000 cycles left; A_0 is 0xE4F5. -/
def coreReady : State :=
  ((((State.reset.wr (rPart_PGM_SIZE 0) 100).wr (rPart_A_P 0) 0xE4F5).wr (rPart_PT_CFG 0) 0).wr (rPart_PT_MODE 0) 1).modCore 0 fun _ =>
    { CoreSt.reset with inSlot := true, pc := 10, budget := 1000 }

/-- The same with C1 = 40,000, C2 = 7 and C3 = 9, the last STALE. -/
def codedReady : State :=
  (((coreReady.writeC 0 1 40000 .good).1.writeC 0 2 7 .good).1).modCore 0 fun c =>
    { c with ctx := { c.ctx with c := Tab.set (fun _ => 0) c.ctx.c 3 (mkCsw 0xE4F5 (tagReg 3) 9 0 .stale) } }

/-- A descriptor of ID 5: a field signal at index 5, for partition 0, at most 100 superframes old. -/
def loadDesc : Csw := dSeal (BitVec.ofNat 64 (1 + 16 * 5 + 2 ^ 18 + 100 * 2 ^ 34)) 5

/-- An instance record of a block, everything else zero. -/
def fbRecord (code : Nat) : List Byte :=
  let b := natLe 1 code ++ List.replicate 59 (0 : Byte)
  b ++ natLe 4 (crc32c b).toNat

/-- An entry of a list with its ECHK (R132, R133). -/
def listEntry (w0 n idx : Nat) : List Byte := natLe 4 w0 ++ natLe 4 (crc12Go n idx (crc12Go 32 w0 0xFFF#12)).toNat

/-- A window of partition 0 at 0x4_0000, one page, that passes its checks: one import entry, ID 5; the export entries of indices 300 and
301, the second SAFE_INT; room for 18 instance records; a timer of each type, 5 units of 1 ms; a variable of 77. -/
def windowHead : List Byte :=
  let b := [0x100, 0x40, 1, 0x48, 2, 0x100, 18, 0x600, 3, 0x700, 1, 0, 0, 0].flatMap (natLe 4)
  b ++ natLe 4 (crc32c b).toNat

def windowed (s : State) : State :=
  let s1 := ((s.wr (rPart_WIN_BASE 0) 0x40000).wr (rPart_WIN_SIZE 0) 0x1000).wr (rPart_LIST_CNT 0) 0x20001
  let s2 := (s1.imgBytes 0x40000 windowHead).imgBytes 0x40040 (listEntry 5 12 0 ++ listEntry 812 9 0 ++ listEntry 1837 9 1)
  let s4 := s2.each (List.range 3) fun x k =>
    x.imgBytes (0x40600 + 32 * k) (timerBytes ⟨mkCsw 0xE4F5 (tagTimer k) 5 0 .good, 0, k, 1, 0, true⟩)
  s4.imgBytes 0x40700 (natLe 8 (mkCsw 0xE4F5 (tagVar 0) 77 0 .good).toNat)

/-- Index 5 holds 0, FAULT; its descriptor is cached. -/
def loadReady : State :=
  ((windowed codedReady).imgBytes 40 (natLe 8 (mkCsw aT 5 0 0 .fault).toNat)).modPair 0 fun x => { x with cache := [(5, loadDesc)] }

/-- `codedReady` with that window. -/
def storeReady : State := windowed codedReady

/-- The same with a record of each block, C1 to C9 good, partition 0 SAFE. -/
def fbReady : State :=
  let s1 := storeReady.each (List.range 18) fun x k => x.imgBytes (0x40100 + 64 * k) (fbRecord (k + 1))
  ((List.range 9).foldl (fun s k => (s.writeC 0 (k + 1) (100 + k) .good).1) s1).setBit (rPart_PT_CFG 0) 0 true

/-- A block of `code`, its inputs from C1, its outputs from C20, its instance `code - 1`: can core 0 run it? -/
def fbRow (code nIn nOut : Nat) (used : FbRec → Nat → Bool) : Bool :=
  match fbReady.fbInputs 0 1 nIn (used (fbRec (fbReady.fbNow 0 (code - 1)))) with
  | some ins => decide (FbReady fbReady 0 20 1 (code - 1) code nIn nOut used ins)
  | none => false

/-- Core 0's next instruction, MUL P3, P1, P2, is due at the next tick. -/
def idleReady : State :=
  (((coreReady.wr (rPair_SE_W1 0 0) 0x640000).modCore 0 fun c => { c with cyc := 8 }).modDev fun d => { d with pllLocked := true }).modMem fun m =>
    { m with pgm := Mem.write m.pgm (pgmAt 0 0 10) [0, 0x10, 0x61, 0xC0] }

/-- OPERATE, DEPLOYED, its clocks locked, an image in force. -/
def operating : State :=
  ((State.reset.modDev fun d => { d with mode := .operate, vlogValid := true, pllLocked := true }).modCfg fun c =>
    { c with inForce := true }).wr rLcs_LC_STAT 2

/-- The PCIe host holds ADMIN with expert privilege, and some pages accept expert writes. -/
def adminReady : State :=
  (operating.modSess .pcie fun x => { x with role := 2, expert := true }).each [0x002, 0x003, 0x00B, 0x021, 0x022] fun x pg =>
    x.setBit (rPg_PG_CTRL pg) 1 true

/-- The PCIe host has armed the injection of page 0x021; a HOLD runs on page 0x022. -/
def injReady : State :=
  let s1 := (adminReady.wr rLcs_LC_STAT 1).setBit (rPg_PG_CTRL 0x073) 1 true
  (s1.modInj 0x021 fun x => { x with armedBy := some .pcie, armedUntil := 1000 }).modInj 0x022 fun x => { x with hold := some (932, 0, 100) }

/-- MAINT instead, and partition 0 in RUN with an FN_RESET of its instance 3 held. -/
def maintReady : State :=
  ((operating.modSess .pcie fun x => { x with role := 1 }).wr (rPart_PT_MODE 0) 1).modPart 0 fun x => { x with fnReset := [(3, 0)] }

/-- A record of role 1 stands; the PCIe host asks for it, holds challenge 7 and gives 10,000 iterations for a new password. -/
def sessReady : State :=
  ((((adminReady.wr rCfg_SESS_REQ 1).wr (rCfg_PW_DATA 4) 10000).modSess .pcie fun x => { x with chal := some 7 })).modCfg fun c => { c with
    roles := Tab.modify (fun _ => RoleRec.reset) c.roles 16 fun r => { r with present := true } }

/-- The same with a response written. -/
def respReady (a b c d : Word) : State :=
  [(0, a), (1, b), (2, c), (3, d)].foldl (fun s e => s.wr (rCfg_SESS_RESP e.1) e.2) sessReady

theorem leNat_lt (bs : List Byte) : leNat bs < 2 ^ (8 * bs.length) := by
  induction bs with
  | nil => simp [leNat]
  | cons b bs ih =>
    have hb := b.isLt
    simp only [leNat, List.length_cons, Nat.mul_add, Nat.pow_add]
    omega

theorem respReady_expected (a b c d : Word) : (respReady a b c d).expectedResp .pcie 7 = sessReady.expectedResp .pcie 7 := by
  have h (x : Nat) (hx : ∀ i < 4, x ≠ rCfg_SESS_RESP i) : (respReady a b c d).rd x = sessReady.rd x := by
    have := hx 0; have := hx 1; have := hx 2; have := hx 3
    simp_all [respReady, Laws.rd_wr]
  have hr (i j) : (respReady a b c d).roleRec i j = sessReady.roleRec i j := rfl
  simp only [State.expectedResp, State.reqRole, State.reqPart, State.fld, State.rd64, hr]
  rw [h rOtp_DEV_ID_LO (by decide), h (rOtp_DEV_ID_LO + 4) (by decide), h (bk .pcie rCfg_SESS_REQ) (by decide)]

theorem respReady_given (a b c d : Word) : (respReady a b c d).givenResp .pcie = a.toNat + 2 ^ 32 * b.toNat + 2 ^ 64 * c.toNat + 2 ^ 96 * d.toNat := by
  simp [State.givenResp, respReady, Laws.rd_wr, bk, rCfg_SESS_RESP, page, List.range, List.range.loop]

/-- `adminReady` in SYNC and PROVISIONING. -/
def syncReady : State := (adminReady.modDev fun d => { d with mode := .sync }).wr rLcs_LC_STAT 1

/-- Entry 0 of the schedule of pair 0 is partition 0's, which is in RUN. -/
def startReady : State := windowed ((operating.wr (rPair_SE_W0 0 0) 0x10).wr (rPart_PT_MODE 0) 1)

/-- `coreReady` with a checkpoint record of GEN 1. -/
def checkedReady : State :=
  coreReady.modMem fun m => { m with eph := Mem.write m.eph (ephAt 0 1) (ctxRecord 0 1 1 0 0 Ctx.reset false false) }

/-- Superframe 10,000; the fabric and the safe frames have a receive entry each, slots 8 and 3. -/
def sweepReady : State :=
  let s1 := ((operating.setNow (6250 * 10000)).modFab fun f => { f with
    tbl := Tab.set (fun _ => 0) f.tbl 0 (BitVec.ofNat 64 (777 + 2 ^ 39 * 8 + 2 ^ 53)), tblCnt := Tab.set (fun _ => 0) f.tblCnt 0 1 })
  s1.modNet fun x => { x with
    tbl := Tab.set (fun _ => 0) x.tbl 0 (BitVec.ofNat 64 (778 + 2 ^ 34 * 3 + 2 ^ 44)), tblCnt := Tab.set (fun _ => 0) x.tblCnt 0 1 }

/-- ID 5 has a descriptor, and DE_LO and DE_HI name one. -/
def mapReady : State :=
  ((((adminReady.imgBytes 0x24000 (natLe 8 (2 ^ 32 + 0x30000))).imgBytes 0x30028 (natLe 8 loadDesc.toNat)).wr rMap_DE_ID 5).wr rMap_DE_LO
    (BitVec.ofNat 32 (1 + 16 * 5 + 2 ^ 18))).wr rMap_DE_HI 400

/-- Speed units: 0 runs, 1 has an active window, 2 stands in a latched FAULT, 3 has a full queue. -/
def speedReady : State :=
  let s1 := (((((adminReady.wr (rSpd_SPD_CFG 0) 1).wr (rSpd_SPD_STAT 0) 3).wr (rSpd_SPD_CFG 1) 3).wr (rSpd_SPD_STAT 1) 0x10).wr
    (rSpd_WIN 1 0) 0x80010000).wr (rSpd_SPD_STAT 2) 0x100005
  let s2 := ((s1.wr (rSpd_SPD_CH 0) 0).wr (rCh_EDGE_CFG 0) 5).wr (rSpd_SPD_CH 3) 0
  ((s2.wr (rSpd_SPD_CFG 3) 1).wr (rSpd_SPD_STAT 3) 3).modSpd 3 fun x => { x with q := List.replicate 4 ⟨150, false, false, false⟩ }

/-- Channels of `speedReady`. Bank 0: inputs of each kind (0, 2, 3, 4, 5), TP outputs idle (1) and in a pulse (6, 7). Bank 1, its Shutter
closed: outputs off and permitted (8), on (9), arm asked (10), owned by none (11), in a pulse (12 to 14), a proof open (11, 14). Channel 16 is
stuck, 17 also reads back, 18 is an analogue output; 40 and 41 are a pair that is on. Banks 3 to 7: open, held, in a test, just closed. -/
def fieldReady : State :=
  let c0 := [(0, 1), (1, 2), (2, 1), (3, 5), (4, 6), (5, 1), (6, 2), (7, 2), (8, 3), (9, 3), (10, 3), (11, 3), (12, 3), (13, 3), (14, 3), (18, 13),
    (40, 3), (41, 4)]
  let s1 := speedReady.each c0 fun x e => x.wrN (rCh_CH_CFG e.1) e.2
  let s2 := s1.each [(0, 0xFF0002), (2, 0xFF0001), (3, 0xFF0001), (4, 0xFF0001), (5, 0xFF2001)] fun x e => x.wrN (rCh_DI_CFG e.1) e.2
  let s3 := s2.each [8, 9, 13, 14] fun x n => x.wr (rPg_OWNER (0x100 + n)) 0x30080
  let s4 := ((s3.wr (rPart_PT_MODE 0) 1).modPart 0 fun x => { x with impFresh := true }).devWrite 9 1 .good
  let s5 := s4.each [(8, 9), (9, 0x809), (10, 0x409), (13, 0x10009), (14, 0x10009), (40, 0x209)] fun x e => x.wrN (rCh_DO_CFG e.1) e.2
  let s6 := s5.each [(9, 4), (16, 0x80), (17, 0x80), (40, 4)] fun x e => x.wrN (rCh_CH_STAT e.1) e.2
  let s7 := s6.each [(1, 0x2000001), (4, 0x40), (6, 0x20), (7, 1)] fun x e => x.wrN (rBank_BK_STAT e.1) e.2
  let s8 := ((s7.modBank 6 fun x => { x with testAt := some 0 }).modBank 7 fun x => { x with rising := some 0 }).modCh 0 fun x =>
    { x with differ := some 0 }
  let s9 := (s8.modCh 3 fun x => { x with wl := [(8, some 0)], fl := [(1, some 0)], frames := 10 }).modCh 6 fun x =>
    { x with pulse := some 0, seen := false }
  let sA := ((s9.modCh 7 fun x => { x with pulse := some 0, seen := true }).modCh 9 fun x => { x with onSince := some 0 }).modCh 11 fun x =>
    { x with proof := some 0 }
  let sB := ([12, 13, 14].foldl (fun (x : State) n => x.modCh n fun c => { c with pulse := some 0 }) sA).modCh 14 fun x => { x with proof := some 0 }
  (sB.modCh 16 fun x => { x with wl := [(4, none)] }).modCh 17 fun x => { x with wl := [(4, none)], rb := true }

/-- Bank 0: analogue inputs (0, with a reading of 1,000 and its buttons at 4; 3, with none), loop supplies (1, 2 folded back), an analogue output
(9). Bank 2 has a sequence in progress, and timer 0 has fired. Partition 0 owns the bank, in MAINTENANCE. -/
def anReady : State :=
  let s1 := adminReady.each [(0, 8), (1, 9), (2, 9), (3, 8), (4, 1), (9, 13), (16, 8)] fun x e => x.wrN (rCh_CH_CFG e.1) e.2
  let s2 := ((s1.wr (rCh_AN_CFG 1) 0x800).wr (rCh_TRIM_BTN 0) 0x0404).wr (rBank_SEQ_CFG 2) 1
  let s3 := ((s2.each [0, 4] fun x n => x.wr (rPg_OWNER (0x100 + n)) 0x30080).wr (rPart_PT_MODE 0) 2)
  let s4 := (s3.modTimer 0 fun x => { x with fired := 1 }).modBank 2 fun x => { x with todo := [16] }
  ((s4.modCh 2 fun x => { x with fold := some 0 }).modCh 0 fun x => { x with x := some 1000 }).modCh 4 fun x => { x with press := some (0, ms 2000) }

/-- Timer 0 is PERIODIC and runs, 1 has a full capture queue, 2 and 3 are below and above their match, 4 has a CMP of 0, 5 is held by its owner's
debug halt, 6 is in mode 0, a sequence names 7. -/
def timReady : State :=
  let s1 := adminReady.each [(0, 2), (2, 1), (3, 1), (4, 1), (5, 0x10401), (7, 1)] fun x e => x.wrN (rTmr_T_CFG e.1) e.2
  let s2 := ((((s1.wr (rTmr_CMP 0) 1000).wr (rTmr_CMP 3) 5).wr (rTmr_CMP 4) 0).wr (rPair_DBG_STAT 0) 1).wr (rBank_SEQ_CFG 0) 15
  let s3 := [0, 2, 4].foldl (fun (x : State) n => x.modTimer n fun c => { c with run := .running }) s2
  (s3.modTimer 1 fun x => { x with q := [1, 2, 3, 4] }).modTimer 3 fun x => { x with run := .running, cnt := 7 }

/-- LOCKED, off by more than SYNC_LIM since 0, a correction pending. -/
def merReady : State :=
  (operating.setFld rMer_SYNC_STAT 0 3 2).modMer fun m => { m with slew := 5, offSince := some 0 }

/-- The fault collector runs; detector 1 holds a message. -/
def fltReady : State := (operating.modFlt fun f => { f with running := true }).raise 1 0 0

/-- Ports in each state; position 1 is another member; a token of partition 3's mirror is held. -/
def fabReady : State :=
  let cfg := adminReady.each (List.range 8) fun x p => x.wr (rPort_PT_CFG p) 1
  let st := cfg.each [(0, 5), (1, 1), (2, 6), (5, 2), (6, 3), (7, 4)] fun x e => x.wrN (rPort_PT_STAT e.1) e.2
  let s1 := (((st.wr rFab_CONF_MAP 3).wr rFab_FAB_CFG 0x10).wr rEph_MIR_RX_CFG 8).setTok 3 ⟨1, 0, true, false⟩
  (((s1.wr (rPart_PT_CFG 5) 2).wr (rLane_LN_CFG 0) 0x0A000000).wr (rLane_EYE_H 0) 255).wr (rLane_EYE_H 1) 255 |>.setNow 100

/-- A block or frame as the wire gave it, its tag right. -/
def cleanLine : RxLine := ⟨true, 0, 0, 0, 0⟩

/-- Control blocks as a neighbour at position 1 sends them on a ring port of plane 0, and a HELLO of ring 1 on a spine port of plane 1. -/
def heartbeat : List Byte := ctlBytes 0x81 0 0 0 1 (List.replicate 6 (0 : Byte)) []
def hello : List Byte := ctlBytes 0x84 0 0 1 1 [0, 0, 0, 0, 0, 1] []
def spineHello : List Byte := ctlBytes 0x84 1 0 6 32 [0, 0, 0, 0, 1, 1] []
def linkNotice : List Byte := ctlBytes 0x82 0 1 2 1 (List.replicate 6 (0 : Byte)) []
def tokenBlock : List Byte := ctlBytes 0x83 0 1 0 1 [7, 0, 0, 0, 5, 0] []

/-- A frame's payload of an image class with one word, its SAFE_MAP bit set. -/
def wordPayload (spine : Bool) (w : Csw) : List Byte :=
  [1] ++ List.replicate (wordsAt spine - 9) (0 : Byte) ++ natLe 8 1 ++ natLe 8 w.toNat
def ringWord (v : Nat) : Csw := mkCsw aT 777 v 0 .good

/-- Frames as position 1, or ring 1, sends them. -/
def imageFrame : List Byte := frameBytes ⟨2, 0, 0, 1, 1, 0, 0⟩ 0 (wordPayload false (ringWord 7)) false
def badFrame : List Byte := frameBytes ⟨2, 0, 0, 1, 1, 0, 0⟩ 0 (wordPayload false (ringWord 7)) true
def spineFrame : List Byte := frameBytes ⟨3, 0, 0, 1, 32, 0, 0⟩ 0 (wordPayload true (ringWord 7)) false
def syncFrame : List Byte := frameBytes ⟨1, 0, 0, 1, 1, 0, 0⟩ 0 (List.replicate 32 (0 : Byte)) false
def mirrorFrame (off : Nat) : List Byte :=
  frameBytes ⟨4, 0, 0, 1, 1, 0, 0⟩ 0 (natLe 4 1 ++ natLe 4 off ++ natLe 4 100 ++ List.replicate 52 (0 : Byte)) false
def eventFrame (hops : Nat) : List Byte :=
  frameBytes ⟨5, 0, hops, 1, 1, 0, 0⟩ 0 (natLe 8 1 ++ List.replicate 32 (1 : Byte)) false
def bulkFrame (kind arg8 off len arg64 : Nat) (data : List Byte) : List Byte :=
  frameBytes ⟨6, 0, 0, 1, 1, 0, 0⟩ 0 (bulkPayload kind arg8 0xFFFF 7 off len arg64 data) false
def abortFrame : List Byte := bulkFrame 5 0 0 0 0 []

/-- A bridge of ring 0: ports 1 and 4 are up too; word 0 of ring 1 goes to slot 8. -/
def spineReady : State :=
  let s1 := ((fabReady.wr rFab_FAB_CFG 0x1012).wrN (rPort_PT_STAT 1) 5).wrN (rPort_PT_STAT 4) 5
  s1.modFab fun f => { f with
    tbl := Tab.set (fun _ => 0) f.tbl 0 (BitVec.ofNat 64 (777 + 2 ^ 22 + 2 ^ 23 + 2 ^ 39 * 8 + 2 ^ 53)), tblCnt := Tab.set (fun _ => 0) f.tblCnt 0 1 }

/-- Two planes; word 0 of position 1 goes to slot 8; the words `ws` of it have arrived, one on each plane. -/
def planeReady (ws : List Csw) : State :=
  (fabReady.wr rFab_FAB_CFG 0x11).modFab fun f => { f with
    tbl := Tab.set (fun _ => 0) f.tbl 0 (BitVec.ofNat 64 (777 + 2 ^ 23 + 2 ^ 39 * 8 + 2 ^ 53)), tblCnt := Tab.set (fun _ => 0) f.tblCnt 0 1
    bad := Tab.set (fun _ => 0) f.bad 0 4
    frames := ws.zipIdx.map fun e => ⟨false, e.2, 1, wordPayload false e.1⟩ }

/-- The header of a staged image set of two members, its SET section its only one. -/
def setHeader : List Byte :=
  natLe 4 0x4E4D4C41 ++ natLe 2 1 ++ natLe 1 1 ++ natLe 1 2 ++ natLe 4 1 ++ natLe 2 0 ++ natLe 2 1 ++ natLe 4 160 ++ natLe 4 0 ++ natLe 4 0 ++ natLe 4 7
    ++ List.replicate 32 (0 : Byte) ++ natLe 4 0x0D ++ natLe 4 80 ++ natLe 4 76 ++ natLe 4 0 ++ natLe 4 2 ++ natLe 36 0 ++ natLe 36 1

/-- The ticks of a superframe at which a synchronisation frame and a BULK frame come; the device coordinates a set and has given its yes. -/
def syncTime : State := fabReady.setNow 10
def bulkTime : State :=
  let s1 := (fabReady.setNow 6000).modCfg fun c => { c with staging := true, yesAt := some 0 }
  (s1.modMem fun m => { m with flash := Mem.write m.flash s1.staged setHeader }).modFab fun f => { f with
    bulk := [bulkPayload 5 0 0xFFFF 7 0 0 0 []] }

/-- A device in SYNC without an image, that has the first 8 bytes of one of 100. -/
def askReady : State :=
  let s1 := ((fabReady.setNow 6000).setMode .sync).modCfg fun c => { c with inForce := false, staging := true, almLen := 100, almNext := 8 }
  s1.setBit rFab_FAB_CFG 21 true

/-- A device whose partition 0 is mirrored at position 1; `keepReady` at the BULK frames. -/
def mirReady : State := (fabReady.wr rFab_FAB_CFG 0x210010).wr rEph_MIR_TX_CFG 1
def keepReady : State := mirReady.setNow 6000

/-- A safe frame of the connection of ID 9, of one word. -/
def safePdu (seq ts : Nat) (w : Csw) : List Byte := pduBody 0 1 9 seq ts 100 0 0 (natLe 8 w.toNat)

/-- Ethernet ports up: 0 a PTP slave in an exchange, 1 a PTP master. Connection 0 produces, 2 tagged; 1 consumes one word in RUN and holds the copy
of SEQ 3; 3 is over UDP and in SAFE, 4 in WAIT. Owner 5 holds a key that retires. -/
def netReady : State :=
  let s1 := (((adminReady.wr (rEth_ETH_CFG 0) 0x81).wr (rEth_ETH_STAT 0) 9).wr (rEth_ETH_CFG 1) 0x181).wr (rEth_ETH_STAT 1) 13
  let s2 := ((s1.setFld rMer_SYNC_STAT 0 3 2).setNow 200000).modNet fun x => { x with
    tbl := Tab.set (fun _ => 0) x.tbl 0 (BitVec.ofNat 64 (777 + 2 ^ 22 + 2 ^ 34 * 3 + 2 ^ 44)), tblCnt := Tab.set (fun _ => 0) x.tblCnt 0 1
    keys := Tab.set (fun _ => KeySlot.reset) (Tab.set (fun _ => KeySlot.reset) x.keys 4 ⟨true, 5, 1, 0, 0⟩) 11 ⟨true, 6, 1, 0, 300000⟩
    ptp := Tab.set (fun _ => PtpSt.reset) x.ptp 0 ⟨some 5, some 7, 0⟩ }
  let s3 := (s2.modConn 0 fun x => { x with cfg := 7 }).modConn 2 fun x => { x with cfg := 39, id := 2 }
  let s4 := (s3.modConn 3 fun x => { x with cfg := 21, id := 3, st := 4 }).modConn 4 fun x => { x with cfg := 5, id := 4, st := 1, wd := 20 }
  s4.modConn 1 fun x => { x with cfg := 5, id := 9, st := 2, wd := 100, seqL := 3, tsL := 199000, held := pdWords (safePdu 3 199000 (ringWord 7)) }

/-- A queue with a descriptor posted, the link up and mastering allowed. -/
def xferReady : State :=
  (((adminReady.wr rXfer_XF_CTRL 1).wr (rXfer_XQ_TAIL 0) 1).wr rHost_LINK_STAT 0x101).wr (rPg_PG_CTRL 0x014) 1

/-- A copy of 64 bytes of image SRAM. -/
def okDesc : Desc := ⟨0, 64, 0, 0, 0x10000⟩

/-- The same, at the next match of timer 0. -/
def trigDesc : Desc := { okDesc with ctrl := 0x10 }

/-- A start-up in which nothing is found amiss. -/
def quietStart : StartEnv := ⟨0, [], [], [], 0, true, none, true, true, [], ⟨[], [], [], [], []⟩, 0⟩

/-- PROVISIONING: a burn of word 12, which is weak and holds 1. -/
def burnReady : State := (syncReady.wr rOtp_BURN_ADDR 12).modLcs fun l => { l with
  weak := [12], est := Tab.set (fun _ => none) l.est 12 (some 1) }

/-- BLANK, ready in SYNC. -/
def blankReady : State := State.reset.setMode .sync

/-- An image is staged and checked, and settles. -/
def commitReady : State := adminReady.modCfg fun c => { c with staging := true, checked := true, settle := true }

/-- The same with a check that runs, and a change-log entry that waits. -/
def checkRuns : State := commitReady.wr rCfg_STG_RESULT 1
def waiting (act : PendAct) : State := adminReady.modCfg fun c => { c with queue := [([], act)] }

/-- A Logbook record of SEQ 5 in flash, and in the Logbook SRAM one of priority 3, not yet spilled. -/
def logRecord : List Byte :=
  let b := List.replicate 8 (0 : Byte) ++ natLe 4 5 ++ List.replicate 16 (0 : Byte)
  b ++ natLe 4 (crc32c b).toNat
def logReady : State :=
  (adminReady.modLog fun l => { l with fill := 1 }).modMem fun m => { m with
    spill := Mem.write m.spill 160 logRecord, logm := Mem.write m.logm 15 [3] }

/-- MSI-X enabled, vectors 0 and 1 unmasked; event 5, pending, goes to vector 0; vector 1 has a held message. -/
def vecReady : State :=
  (((adminReady.setBit rHost_LINK_STAT 8 true).wr (rEvt_PEND 0) 32).modEvt fun e => { e with
    route := Tab.set (fun _ => 0) e.route 5 0x40 }).modHost fun h => { h with
      msixEn := true, vmask := Tab.set (fun _ => true) (Tab.set (fun _ => true) h.vmask 0 false) 1 false, vpend := Tab.set (fun _ => false) h.vpend 1 true }

/-- A write that finds nothing else. -/
def quietWrite : WriteEnv := ⟨true, 0, quietStart, 0, 0, 0, 0, 0⟩

/-- DORMANT, the count kept, its alarm armed; vigil inputs 0 and 3 are enabled. -/
def dormantReady : State :=
  ((adminReady.setMode .dormant).wr rNgl_VG_CFG 9).modNgl fun n => { n with armed := true, kept := true }

/-- A start-up that runs, its step to be retried. -/
def retryReady : State := (State.reset.modDev fun d => { d with vlogValid := true }).modLcs fun l => { l with retry := true }

/-- Every word that ADVANCE asks for in PROVISIONING is burned. -/
def advanceReady : State := syncReady.modLcs fun l => { l with
  est := (List.range 28).foldl (fun t k => Tab.set (fun _ => none) t k (some 1)) l.est }

/-- A service command's action and challenge stand in SVC_BUF; the device is DEPLOYED. -/
def svcReady (action : Nat) : State :=
  (((adminReady.wrN (rCfg_SVC_BUF 0) action).wr (rCfg_SVC_BUF 3) 1).modCfg fun c => { c with svcChal := 1 }).modLcs fun l => { l with
    est := Tab.set (fun _ => none) l.est 2 (some 0xFF) }

/-- The start-up finds no value of the lifecycle word. -/
def lostStart : StartEnv := { quietStart with lost := [(2, false), (2, true)] }

/-- A field check that finds a Shutter that does not open. -/
def badField : FieldFind := ⟨[], [], [], [], [0]⟩

/-! What meets the statements' hypotheses -/

theorem witness_StepKeepsInvariant : State.reset.Inv ∧ ∃ t, step State.reset = .next t :=
  ⟨⟨by decide, fun _ => (by decide : (0 : Nat) < 16)⟩, _, rfl⟩

theorem witness_StepRunsFront : (State.reset.modPending fun _ => [.pllLockLoss]).pending = .pllLockLoss :: [] := rfl

theorem witness_IdleTick : idleReady.pending = [] ∧ (∀ p < 8, idleReady.portState p ≠ 4 ∧ idleReady.portState p ≠ 5) ∧
    (∀ u < 8, (State.reset.core u).inSlot = false) ∧ (∀ v < 8, idleReady.tick.coreDue v = true ↔ v = 0) ∧
    (match exec (idleReady.tick.fetched 0 FetchEnv.clean) idleReady.tick with
      | .next t => !anyBelow 8 fun v => t.coreDue v
      | _ => false) = true := by decide +kernel

theorem witness_PlainTwoSource : Ready coreReady 0 1 0 ∧ Ready coreReady 0 3 0 := by decide

theorem witness_PlainOneSource : Ready coreReady 0 1 0 ∧ Ready coreReady 0 2 8 := by decide

theorem witness_MfsValues : Ready coreReady 0 1 0 := by decide

theorem witness_BranchesAndLoops :
    Ready coreReady 0 2 0 ∧ 0 < (5 : BitVec 16).toNat ∧ coreReady.inPgm 0 (10 + 5) = true ∧ 0 < (89 : BitVec 12).toNat ∧
      (5 : BitVec 5).toNat < 6 ∧ coreReady.inPgm 0 (10 + 89) = true ∧ coreReady.inPgm 0 (10 + 90) = false ∧
      (255 : BitVec 8) ≠ 0 ∧ (89 : BitVec 8) ≠ 0 ∧ flagInLoop (coreReady.core 0).ctx.flags = false := by
  decide

theorem witness_CodedOneSource : Ready codedReady 0 4 0 ∧ Ready codedReady 0 2 0 ∧ codedReady.readC 0 1 = some (40000, .good) := by decide +kernel

theorem witness_CodedTwoSource :
    Ready codedReady 0 3 0 ∧ codedReady.readC 0 1 = some (40000, .good) ∧ codedReady.readC 0 2 = some (7, .good) := by decide +kernel

theorem witness_CodedThreeSource :
    Ready codedReady 0 4 0 ∧ Ready codedReady 0 3 0 ∧ codedReady.readC 0 1 = some (40000, .good) ∧
      codedReady.readC 0 2 = some (7, .good) ∧ codedReady.readC 0 3 = some (9, .stale) ∧ (7 : Nat) ≤ 9 ∧ (9 : Nat) < 40000 ∧
      (40000 : Int) - 65536 ≤ 9 ∧ (40000 : Int) - 65536 < 7 := by decide +kernel

theorem witness_LoadsAndStores_entry : loadReady.importEntry 0 0 = .ok (5, false) := by
  have h : (match loadReady.importEntry 0 0 with
    | .ok x => x == (5, false)
    | .error _ => false) = true := by decide +kernel
  generalize loadReady.importEntry 0 0 = y at h ⊢
  cases y <;> simp_all

theorem witness_LoadsAndStores_lds : Ready loadReady 0 4 12 ∧ loadReady.runsSafe 0 = false ∧
    LoadHit loadReady 0 0 ⟨0, .clean, false, .clean, .clean⟩ 5 loadDesc 0 .fault := by
  refine ⟨by decide +kernel, by decide +kernel, false, some .quality, 5, witness_LoadsAndStores_entry, ?_, rfl, ?_, .inl rfl, .inl rfl, ?_, by decide +kernel, .inr rfl⟩
  · decide +kernel
  · decide +kernel
  · decide +kernel

theorem witness_LoadsAndStores : Ready storeReady 0 2 3 ∧ Ready storeReady 0 3 4 ∧ 0 < storeReady.winHdr 0 40 ∧
    storeReady.readC 0 1 = some (40000, .good) ∧ storeReady.readC 0 3 = some (9, .stale) ∧
    cswValid (storeReady.aP 0) (storeReady.imgCsw (storeReady.varAt 0 0) (tagVar 0)) (tagVar 0) = true ∧
    (match storeReady.exportEntry 0 0 with
      | .ok x => x == (300, true, false)
      | .error _ => false) = true ∧
    (match (storeReady.setBit (rPart_PT_CFG 0) 0 true).exportEntry 0 1 with
      | .ok x => x == (301, true, true)
      | .error _ => false) = true ∧ (storeReady.setBit (rPart_PT_CFG 0) 0 true).runsSafe 0 = true ∧
    (((storeReady.readP 0 2).toNat + 4095) % 4096 = 4095) := by decide +kernel

theorem witness_CodedTimers : ∀ k : Fin 3, let s := storeReady
    Ready s 0 4 6 ∧ k.val < s.winHdr 0 32 ∧ s.readC 0 1 = some (40000, .good) ∧ s.readC 0 3 = some (9, .stale) ∧
    let b := Mem.bytes s.mem.img (s.tmrAt 0 k.val) 32
    stagedTimer k.val (s.core 0).staged = none ∧ timerRecOk b = true ∧ s.imgFlawed (s.tmrAt 0 k.val) 32 = false ∧
      cswValid (s.aP 0) (timerRec b).preset (tagTimer k.val) = true ∧ (timerRec b).unit ≠ 3 ∧ (timerRec b).typ = k.val := by
  decide +kernel

theorem witness_SystemInstructions : Ready coreReady 0 2 0 ∧ Ready loadReady 0 2 2 ∧ loadReady.importEntry 0 0 = .ok (5, false) ∧
    loadReady.cfg.staging = false ∧ 131087 / 131072 ≠ loadReady.actBank 0 ∧ loadReady.inPgm 0 15 = true ∧
    loadReady.oneCopy 0 = false ∧ (loadReady.setFld (rPair_PR_STAT 0) 0 3 2).oneCopy 0 = true ∧
    Ready (loadReady.modCfg fun c => { c with staging := true }) 0 2 2 := by
  refine ⟨by decide +kernel, by decide +kernel, by rfl, by decide +kernel, by decide +kernel, by decide +kernel, by decide +kernel, by decide +kernel, by decide +kernel⟩

theorem witness_IllegalForms : (0 : BitVec 16) = 0 ∧ coreReady.inPgm 0 (10 + (90 : BitVec 16).toNat) = false ∧
    coreReady.inPgm 0 (10 + (90 : BitVec 12).toNat) = false ∧ 6 ≤ (31 : BitVec 5).toNat ∧
    (loadReady.setBit (rPart_PT_CFG 0) 0 true).runsSafe 0 = true ∧ 30 ≤ (30 : Fin 32).val ∧ 24 ≤ (24 : Fin 32).val ∧ 29 ≤ (29 : Fin 32).val ∧
    loadReady.runsSafe 0 = false ∧ 1 < storeReady.winHdr 0 16 ∧
    natBit (Mem.w32 storeReady.mem.img (storeReady.expAt 0 1)).toNat 10 = true ∧
    0xA0611001 % 2048 ≠ 0 ∧ (0xA0711000 : Word).getLsbD 20 = true ∧ (0x04200005 : Word).toNat = 0x04000000 + 2097152 * 1 + 5 ∧
    (0xA0611000 : Word).toNat = 0xA0000000 + 2097152 * 3 + 65536 * 1 + 2048 * 2 ∧
    (0x8C000001 : Word).toNat = 0x8C000000 + 1 := by decide +kernel

theorem witness_SlotTraps : coreReady.canRun 0 = true ∧ (coreReady.core 0).cyc + 1 < (coreReady.core 0).budget ∧
    (coreReady.core 0).part < 16 ∧ Ready coreReady 0 2 0 ∧ (coreReady.core 0).inSlot = true ∧
    ∀ k < 4, (coreReady.setFld (rPart_PT_CFG 0) 12 2 k).ptLive 0 = true ∧ (coreReady.setFld (rPart_PT_CFG 0) 12 2 k).ptTrapRx 0 = k := by
  decide

theorem witness_FbContactBlocks : ∀ x ∈ [fbRow 1 3 3 (fun _ _ => true), fbRow 2 4 4 (fun r k => k < 3 || r.opt8),
    fbRow 3 3 3 (fun _ _ => true), fbRow 4 6 4 (fun r k => k ≠ 4 || r.opt8), fbRow 5 4 3 (fun r k => k < 3 || r.opt8)], x = true := by
  decide +kernel

theorem witness_FbOtherBlocks : ∀ x ∈ [fbRow 6 5 2 (fun r k => k < 2 || (k < 4 && r.opt8) || (k = 4 && r.opt9)), fbRow 7 2 2 (fun _ _ => true),
    fbRow 8 8 2 (fun r k => k < r.w0), fbRow 9 4 2 (fun r k => k % 2 = 0 || r.opt8), fbRow 10 2 2 (fun _ _ => true),
    fbRow 11 4 3 (fun r k => k ≠ 2 || r.opt8), fbRow 12 3 4 (fun _ _ => true), fbRow 13 3 3 (fun _ _ => true), fbRow 14 4 4 (fun _ _ => true),
    fbRow 15 2 3 (fun _ _ => true), fbRow 16 2 2 (fun _ _ => true), fbRow 17 1 3 (fun _ _ => true),
    fbRow 18 9 4 (fun r k => k = 0 || (k = 1 && !r.opt8) || (2 ≤ k && k < r.w0 + 1))], x = true := by
  decide +kernel

theorem witness_ContactPermit :
    let permit := ({ fbRec [] with st := 2, bothSeen := true } : FbRec)
    let lock := ({ fbRec [] with st := 5 } : FbRec)
    let on := [some (1, .good), some (1, .good), some (0, .good)]
    (rstStep (fbRec []) (some (1, .good)) 0 true).valid = true ∧ (evalEstop permit ⟨on, 1000000, 160, false⟩).r.st = 4 ∧
      (evalEstop permit ⟨on, 1000000, 160, false⟩).outs[0]? = some (1, .good) ∧
      (⟨[some (1, .fault), some (1, .good), some (0, .good)], 0, 0, false⟩ : FbEnv).faulted = true ∧ permit.st ≠ 5 ∧
      (evalEstop lock ⟨on, 1000000, 160, true⟩).r.st = 2 := by decide +kernel

theorem witness_SlotStart : startReady.sePart 0 0 = 0 ∧ startReady.coreFor 0 0 = 0 ∧ startReady.seValid 0 0 = true ∧
    startReady.seRuns 0 0 = true ∧ startReady.seTaken 0 0 = false ∧ startReady.now ≤ startReady.sf * 6250 + startReady.seStart 0 0 ∧
    startReady.seStart 0 0 < 6250 ∧ startReady.now + 6250 < 2 ^ 64 ∧ State.reset.seValid 0 0 = false ∧ State.reset.seRuns 0 0 = false ∧
    (startReady.core 0).inSlot = false ∧ startReady.ptLive 0 = true ∧ startReady.pairCan 0 0 = true ∧ startReady.winOk 0 = true ∧
    (startReady.wr (rPart_WIN_BASE 0) 0x50000).winOk 0 = false ∧ (startReady.wr (rPart_PT_MODE 0) 0).ptLive 0 = false ∧
    (startReady.setFld (rPair_PR_STAT 0) 0 3 6).pairCan 0 0 = false ∧ startReady.ptSafe 0 = false ∧
    ((startReady.modCore 0 fun c => { c with inSlot := true, reexec := true }).core 0).reexec = true := by decide +kernel

theorem witness_SlotEnds : coreReady.canRun 0 = true ∧ coreReady.inPgm 0 10 = true ∧ coreReady.cmode 0 ≠ 1 ∧
    (coreReady.core 0).cyc + cycles coreReady.dev.grade 2 2 ≤ (coreReady.core 0).budget ∧ coreReady.suspendedAt 0 = false ∧
    coreReady.forced 300 = false ∧ coreReady.dbgFault 0 = false ∧ (coreReady.pair 0).dbgPend = false ∧
    (coreReady.setFld (rPair_PR_STAT 0) 0 3 1).cmode 0 = 1 ∧ misrStep misrInit 1 ≠ misrStep misrInit 2 ∧
    misrStep misrInit 1 = misrStep misrInit 1 := by decide +kernel

theorem witness_MismatchRecovery : coreReady.cmode 0 = 0 ∧ (coreReady.core 0).inSlot = true ∧ (coreReady.core 0).part < 16 ∧
    coreReady.ephPick 0 = none ∧ checkedReady.ephPick 0 = some 1 ∧ (checkedReady.core 0).inSlot = true ∧
    (State.reset.core 0).inSlot = false ∧ (State.reset.setFld (rPair_PR_STAT 0) 0 3 4).cmode 0 = 4 := by decide +kernel

theorem witness_Scrubs : (coreReady.core 0).inSlot = true ∧ (coreReady.core 2).inSlot = false ∧ (coreReady.core 3).inSlot = false ∧
    (coreReady.pgmOwners 0 50) = [0] ∧ inMapRegion (8 * (0x4800 : BitVec 18).toNat) = true ∧ inMapRegion (8 * (0 : BitVec 18).toNat) = false ∧
    (0 : Nat) ∉ State.reset.eng.ephRep ∧ 8 * (0x4800 : BitVec 18).toNat ∉ State.reset.eng.mapRep ∧
    (let s := sweepReady; s.hasWriter 0 = true ∧ s.hasWriter 400 = false ∧ 8192 ≤ s.sf - Tab.get (fun _ => 0) s.eng.lastWr 0 ∧
      State.reset.sf - Tab.get (fun _ => 0) State.reset.eng.lastWr 0 < 8192 ∧
      (((List.range (s.fabCount 0)).map (s.fabEntry 0)).find? fun v => feValid v && feSlot v = 520 - 512).isSome = true ∧
      (((List.range (Tab.get (fun _ => 0) s.net.tblCnt 0)).map s.safeEntry).find? fun v =>
        natBit v 44 && natBits v 34 10 = 0x4203 - 0x4200).isSome = true) := by decide +kernel

theorem witness_Boundaries : operating.frames = true ∧ operating.now + 6250 < 2 ^ 64 ∧ operating.now + operating.majorTicks < 2 ^ 64 ∧
    operating.dev.dormPend = false ∧ State.reset.frames = false ∧ State.reset.cfg.switchT = none ∧ State.reset.holdsMA .pcie = false ∧
    State.reset.asleep rFlt0_FLT_CTRL = false ∧ adminReady.holdsMA .pcie = true ∧ adminReady.asleep rFlt0_FLT_CTRL = false ∧
    adminReady.mayWrite .pcie rFlt0_FLT_CTRL true = true ∧
    (operating.modCfg fun c => { c with switchT := some 100000 }).cfg.switchT = some 100000 := by decide +kernel

theorem witness_MapCommands : Admitted mapReady .pcie rMap_DE_CMD (mapReady.privAt .pcie rMap_DE_CMD) ∧ mapReady.descAt 5 ≠ none ∧
    mapReady.editCode 5 (setBits (BitVec.ofNat 64 ((mapReady.rd rMap_DE_LO).toNat + 2 ^ 32 * ((mapReady.rd rMap_DE_HI).toNat % 2 ^ 24)) : Csw) 46 8 0) = none ∧
    (mapReady.lcProvDep && mapReady.modeIs .operate) = true ∧ mapReady.editBusy = false ∧
    (mapReady.modCfg fun c => { c with queue := [([], .mapEdit 5 (BitVec.ofNat 64 (1 + 16 * 5 + 2 ^ 18 + 100 * 2 ^ 34)) true)] }).editBusy = true ∧
    mapReady.editCode 5 (setBits (BitVec.ofNat 64 (1 + 16 * 5 + 2 ^ 18 + 100 * 2 ^ 34)) 46 8 0) = none ∧
    (State.reset.lcProvDep && (State.reset.modeIs .operate || State.reset.modeIs .harebell)) = false ∧
    State.reset.descAt 0 = none ∧ State.reset.editCode 0 0 ≠ none ∧
    Admitted mapReady .pcie rMap_CQ_ID (mapReady.privAt .pcie rMap_CQ_ID) ∧ Admitted mapReady .pcie rMap_INV_ALL (mapReady.privAt .pcie rMap_INV_ALL) := by
  decide +kernel

theorem witness_SplitAndRejoin : Admitted adminReady .pcie (rPair_SPLIT_CTRL 1) (adminReady.holdsAdmin .pcie) ∧ adminReady.splitRefused 1 = false ∧
    adminReady.rejoinRefused 1 = false ∧ (adminReady.modCfg fun c => { c with staging := true }).splitRefused 1 = true ∧
    (adminReady.modCfg fun c => { c with staging := true }).rejoinRefused 1 = true ∧
    (adminReady.setFld (rPair_SPLIT_CTRL 1) 5 2 1).fld (rPair_SPLIT_CTRL 1) 5 2 = 1 ∧ adminReady.fld (rPair_SPLIT_CTRL 1) 5 2 ≠ 1 ∧
    Memory.wf adminReady.mem.pgm = true := by decide

theorem witness_Debug : Admitted adminReady .pcie (rPair_DBG_CTRL 1) (adminReady.holdsAdmin .pcie) ∧ adminReady.expertAt .pcie (rPair_DBG_CTRL 1) = true ∧
    adminReady.bit (rPair_DBG_CTRL 1) 0 = false ∧ adminReady.bit (rPair_DBG_CTRL 0) 0 = false ∧
    adminReady.expertAt .pcie (rPair_DBG_CTRL 0) = true ∧ (syncReady.dbgAllowed 0) = true ∧ adminReady.dbgAllowed 1 = true ∧
    State.reset.dbgAllowed 1 = false ∧ adminReady.bit (rPair_DBG_STAT 1) 2 = false ∧ (adminReady.core 2).inSlot = false ∧
    Admitted adminReady .pcie (rPair_DBG_DATA_HI 1) (adminReady.holdsAdmin .pcie) ∧ adminReady.expertAt .pcie (rPair_DBG_DATA_HI 1) = true ∧
    let d := ((adminReady.setBit (rPair_DBG_CTRL 1) 0 true).wr (rPair_DBG_BP 1 0) 0x80000000).modCore 2 fun c => { c with inSlot := true }
    let b := rPair_DBG_BP 1 0
    d.bit (rPair_DBG_CTRL 1) 0 = true ∧ d.bit (rPair_DBG_STAT 1) 0 = false ∧ d.bit b 31 = true ∧ d.bit b 30 = false ∧
      (d.setBit b 30 true).bit b 30 = true ∧ (d.core 2).inSlot = true ∧ d.fld b 0 17 = (d.core 2).pc ∧
      d.fld b 17 1 = d.actBank 0 ∧ d.fld b 18 4 = (d.core 2).part ∧ (d.setBit (rPair_DBG_STAT 1) 0 true).bit (rPair_DBG_STAT 1) 0 = true ∧
      Admitted (d.setBit (rPair_DBG_STAT 1) 0 true) .pcie (rPair_DBG_CTRL 1) true := by decide +kernel

theorem witness_Sessions : adminReady.modeIs .dormant = false ∧ adminReady.asleep rCfg_SESS_CMD = false ∧ (adminReady.sess .pcie).role = 2 ∧ (adminReady.sess .pcie).lastWr + 90000000000 < 2 ^ 64 ∧
    State.reset.rngReady = false ∧ (State.reset.setBit rRng_RNG_STAT 0 true).rngReady = true ∧ (State.reset.sess .pcie).role = 0 ∧
    State.reset.reqRole .pcie = 0 ∧ sessReady.reqRole .pcie = 1 ∧ (sessReady.roleRec 1 0).present = true ∧
    sessReady.asleep rCfg_SESS_CMD = false ∧ sessReady.bit rOtp_OTP_STAT 4 = false ∧
    Tab.get (fun _ => 0) sessReady.cfg.lockUntil (sessReady.failKey .pcie) ≤ sessReady.now ∧
    sessReady.now < Tab.get (fun _ => 0) (Tab.set (fun _ => 0) sessReady.cfg.lockUntil (sessReady.failKey .pcie) 10) (sessReady.failKey .pcie) ∧
    sessReady.modeIs .dormant = false ∧ (sessReady.modDev fun d => { d with mode := .dormant }).modeIs .dormant = true ∧
    (sessReady.sess .pcie).chal = some 7 ∧ (sessReady.sess .pcie).chalUsed = false ∧ (sessReady.sess .pcie).role = 2 ∧
    sessReady.pwData .pcie 4 1 = 10000 := by decide +kernel

/-- A response that opens that session: the one the device expects, whatever the opaque HMAC gives. -/
theorem witness_Sessions_resp : ∃ a b c d, (respReady a b c d).givenResp .pcie = (respReady a b c d).expectedResp .pcie 7 := by
  have hlt : sessReady.expectedResp .pcie 7 < 2 ^ 128 := by
    refine Nat.lt_of_lt_of_le (leNat_lt _) (Nat.pow_le_pow_right (by decide) ?_)
    simp only [List.length_take]
    omega
  generalize hv : sessReady.expectedResp .pcie 7 = v at hlt
  refine ⟨BitVec.ofNat 32 v, BitVec.ofNat 32 (v / 2 ^ 32), BitVec.ofNat 32 (v / 2 ^ 64), BitVec.ofNat 32 (v / 2 ^ 96), ?_⟩
  rw [respReady_expected, respReady_given, hv]
  simp only [BitVec.toNat_ofNat]
  omega

theorem witness_PartitionCommands : adminReady.modeIs .dormant = false ∧ Admitted adminReady .pcie rCfg_PART_CMD (adminReady.holdsMA .pcie || adminReady.holdsOwner .pcie 0) ∧
    adminReady.partRefuse 0 .start = none ∧ adminReady.partRefuse 0 .stop = some 2 ∧ adminReady.ptMode 0 = 0 ∧ partNext 0 .start = some 1 ∧
    (State.reset.part 0).cmd = none ∧
    ((adminReady.modPart 0 fun x => { x with cmd := some (.start, .pcie, 0) }).part 0).cmd = some (.start, .pcie, 0) ∧
    ((adminReady.modPart 0 fun x => { x with cmd := some (.stop, .pcie, 1) }).part 0).cmd = some (.stop, .pcie, 1) ∧
    adminReady.now + 6250 < 2 ^ 64 := by decide

theorem witness_ResetsAndForces : maintReady.modeIs .dormant = false ∧ Admitted adminReady .pcie rCfg_FRC_CMD (adminReady.holdsMA .pcie) ∧ adminReady.forceRefuse 0 0 = some 1 ∧
    Admitted maintReady .pcie rCfg_FN_CMD (maintReady.holdsMA .pcie || maintReady.holdsOwner .pcie 0) ∧ maintReady.lcProvDep = true ∧ maintReady.ptMode 0 = 1 ∧
    maintReady.holdsMaint .pcie = true ∧ maintReady.dev.mode = .operate ∧ adminReady.holdsMaint .pcie = false ∧
    Admitted adminReady .pcie rCfg_FN_CMD true ∧ (maintReady.part 0).fnReset.find? (fun y => y.1 = 3) = some (3, 0) ∧
    (maintReady.part 0).fnReset.find? (fun y => y.1 = 4) = none ∧
    ((adminReady.wr (rPart_PT_MODE 0) 2).modEng fun e => { e with prod := Tab.set (fun _ => 0) e.prod 300 1 }).forceRefuse 0 300 = none := by
  decide +kernel

theorem witness_SpeedUnits : speedReady.fieldLive = true ∧ speedReady.spdMode 0 = 1 ∧ (speedReady.spd 0).q = [] ∧
    10 * speedReady.fld (rCh_EDGE_CFG (speedReady.fld (rSpd_SPD_CH 0) 0 8)) 0 16 = 50 ∧ speedReady.eng.lastSf = 0 ∧
    (speedReady.setNow 150).now - 50 = 100 ∧ (speedReady.setNow 6300).now - 50 = 6250 ∧ (speedReady.setNow 6300).eng.lastSf = 0 := by decide +kernel

theorem witness_SpeedUnits_full : (speedReady.setNow 150).spdMode 3 = 1 ∧ ((speedReady.setNow 150).spd 3).q.length = 4 ∧
    (∀ y ∈ ((speedReady.setNow 150).spd 3).q, (speedReady.setNow 150).now < y.time + (speedReady.setNow 150).filterDelay 3 y.idx + 200) := by
  decide +kernel

theorem witness_SpeedUnits_rest : speedReady.spdState 0 = 3 ∧ (speedReady.spd 0).since + ms (speedReady.fld (rSpd_T_STAND 0) 0 16) < 2 ^ 64 ∧
    speedReady.spdMode 1 = 3 ∧ (speedReady.spd 1).q = [] ∧ speedReady.spdState 1 ≠ 5 ∧ speedReady.winActive 1 0 = true ∧
    (speedReady.spd 1).since + ms (speedReady.fld (rSpd_DWELL 1 0) 0 16) < 2 ^ 64 ∧
    speedReady.spdState 2 = 5 ∧ speedReady.bit (rSpd_SPD_STAT 2) 20 = true ∧
    Admitted speedReady .pcie (rSpd_CMD 2) (speedReady.privAt .pcie (rSpd_CMD 2)) := by decide +kernel

theorem witness_ChannelInputs : fieldReady.fieldLive = true ∧ fieldReady.now + 2000000 < 2 ^ 64 ∧
    (∀ n ∈ [0, 2, 3, 4, 5], (fieldReady.ch n).sampled ≤ fieldReady.now + 1000 ∧ fieldReady.tpSrc n = none ∧ fieldReady.bit (rCh_CH_STAT n) 1 = false) ∧
    (∀ n ∈ [0, 2, 5], fieldReady.role n = 1) ∧ fieldReady.role 3 = 5 ∧ fieldReady.role 4 = 6 ∧ fieldReady.bit (rCh_DI_CFG 5) 13 = true ∧
    fieldReady.fld (rCh_DI_CFG 0) 0 13 = 2 ∧ fieldReady.fld (rCh_DI_CFG 2) 0 13 = 1 ∧ (fieldReady.ch 0).run = 0 ∧ (fieldReady.ch 2).run = 0 := by
  decide +kernel

theorem witness_ChannelInputs_levels : fieldReady.levels 2 ⟨false, false, false⟩ ⟨2400, 0, 0, false, false⟩ = (true, true) ∧
    fieldReady.levels 5 ⟨false, false, false⟩ ⟨1100, 0, 0, false, false⟩ = (true, true) ∧
    fieldReady.levels 4 ⟨true, true, false⟩ ⟨0, 120, 0, false, false⟩ = (false, false) := by decide +kernel

theorem witness_ChannelInputs_pulses : fieldReady.role 1 = 2 ∧ (fieldReady.ch 1).pulse = none ∧
    (∀ n ∈ [6, 7], fieldReady.role n = 2 ∧ (fieldReady.ch n).pulse = some 0) ∧ (fieldReady.ch 6).seen = false ∧ (fieldReady.ch 7).seen = true := by
  decide +kernel

theorem witness_ChannelInputs_kinds : (fieldReady.ch 0).differ = some 0 ∧ hasKind (fieldReady.ch 0).fl 1 = false ∧ wiringTimed 8 = true ∧
    (fieldReady.ch 3).wl.find? (fun e => e.1 = 8) = some (8, some 0) ∧ (fieldReady.ch 3).fl.find? (fun e => e.1 = 1) = some (1, some 0) ∧
    10 ≤ (fieldReady.ch 3).frames ∧ (∀ n ∈ [16, 17], Admitted fieldReady .pcie (rCh_CMD n) (fieldReady.privAt .pcie (rCh_CMD n)) ∧
      fieldReady.bit (rCh_CH_STAT n) 7 = true ∧ fieldReady.swIsOn n = false) ∧ (fieldReady.ch 16).rb = false ∧ (fieldReady.ch 17).rb = true := by
  decide +kernel

theorem witness_OutputChannels : fieldReady.fieldLive = true ∧ fieldReady.now + 2000 < 2 ^ 64 ∧
    (∀ n ∈ [8, 9, 10, 11], fieldReady.role n = 3 ∧ (fieldReady.ch n).pulse = none) ∧ fieldReady.outPermit 11 = false ∧
    fieldReady.outPermit 8 = true ∧ fieldReady.swIsOn 8 = false ∧ fieldReady.bit (rCh_DO_CFG 8) 10 = false ∧
    fieldReady.outPermit 9 = true ∧ fieldReady.swIsOn 9 = true ∧ fieldReady.bit (rCh_DO_CFG 10) 10 = true ∧
    Tab.get (fun _ => 0) fieldReady.eng.armWr 10 = 0 ∧ fieldReady.swIsOn 10 = false := by decide +kernel

theorem witness_OutputChannels_safe : let s := fieldReady.modFlt fun f => { f with safeLine := true }
    s.fieldLive = true ∧ s.role 18 = 13 ∧ s.flt.safeLine = true := by decide +kernel

theorem witness_OutputChannels_pulses :
    fieldReady.frameAt (100000 * fieldReady.transitSlot 9 + 4000 * (9 / 8)) (opFrames (fieldReady.fld (rCh_DO_CFG 9) 12 3)) 9 = 104000 ∧
    fieldReady.pulses 9 = true ∧ (fieldReady.ch 9).pulse = none ∧ (fieldReady.ch 9).onSince = some 0 ∧
    (∀ n ∈ [12, 13, 14], fieldReady.role n = 3 ∧ (fieldReady.ch n).pulse = some 0 ∧ fieldReady.swIsOn n = false ∧ fieldReady.outChans n = [n]) ∧
    fieldReady.outPermit 12 = false ∧ fieldReady.outPermit 13 = true ∧ (fieldReady.ch 13).proof = none ∧ (fieldReady.ch 14).proof = some 0 ∧
    max fieldReady.now (0 + 10000 * fieldReady.fld (rCh_DO_CFG 14) 16 4) = 10000 := by decide +kernel

theorem witness_OutputChannels_monitors : fieldReady.isDo 11 = true ∧ fieldReady.swIsOn 11 = false ∧ fieldReady.bit (rCh_CH_STAT 11) 7 = false ∧
    (fieldReady.ch 11).proof = some 0 ∧ hasKind (fieldReady.ch 16).wl 4 = true ∧ (fieldReady.ch 16).stuckAt = 0 ∧ fieldReady.isDo 9 = true ∧
    fieldReady.swIsOn 9 = true ∧ (fieldReady.ch 9).pulse = none ∧ fieldReady.bit (rCh_DO_CFG ((fieldReady.pairOf 9).getD 9)) 11 = true ∧
    fieldReady.pairOf 40 = some 40 ∧ fieldReady.swIsOn 40 = true := by decide +kernel

theorem witness_BanksAndShutters : fieldReady.fieldLive = true ∧ fieldReady.shutOk 1 = true ∧ (fieldReady.bank 1).testAt = none ∧
    fieldReady.frameAt (900000 + 4000) (shutFrames (fieldReady.fld (rBank_BK_CFG 1) 0 3)) 1 < 2 ^ 64 ∧ hasKind (fieldReady.bank 1).sl 1 = false ∧
    fieldReady.bit (rBank_BK_STAT 4) 6 = true ∧ fieldReady.fld (rBank_BK_STAT 4) 1 5 = 0 ∧
    Admitted fieldReady .pcie (rBank_CMD 4) (fieldReady.privAt .pcie (rBank_CMD 4)) := by decide +kernel

theorem witness_BanksAndShutters_closing : (fieldReady.bank 6).testAt = some 0 ∧ fieldReady.fld (rBank_BK_STAT 6) 1 6 = 16 ∧
    fieldReady.bankOff 6 = true ∧ fieldReady.bit (rBank_BK_STAT 6) 0 = false ∧ (fieldReady.bank 3).retryAt = none ∧
    fieldReady.shutAsked 3 = false ∧ fieldReady.bankOff 3 = true ∧ fieldReady.bit (rBank_BK_STAT 3) 0 = false ∧ fieldReady.shutAsked 4 = true ∧
    fieldReady.bankOff 1 = false ∧ (fieldReady.bank 7).rising = some 0 ∧ fieldReady.bit (rBank_BK_STAT 7) 0 = true ∧
    max fieldReady.now (0 + ms 2) < 2 ^ 64 := by decide +kernel

theorem witness_BanksAndShutters_supply : asSigned 16 (1799 : BitVec 16).toNat < 1800 ∧ 3200 < asSigned 16 (3201 : BitVec 16).toNat ∧
    asSigned 16 (65435 : BitVec 16).toNat < -100 ∧ asSigned 16 (1900 : BitVec 16).toNat = 1900 ∧ asSigned 16 (3100 : BitVec 16).toNat = 3100 ∧
    (∀ k ∈ [1, 2, 3], hasKind (fieldReady.bank 1).hl k = false) ∧ 10000 < (10001 : BitVec 16).toNat ∧ fieldReady.dev.vlogValid = true ∧
    fieldReady.almActs 14 = true ∧ fieldReady.alm 14 = .normal ∧ fieldReady.isDo 8 = true := by decide +kernel

theorem witness_AnalogueChannels : anReady.fieldLive = true ∧ anReady.seqUsed 0 = true ∧ anReady.bit (rBank_SEQ_CFG 0) 0 = false ∧
    (anReady.bank 0).todo = [] ∧ (anReady.bank 0).slotAt = 0 ∧ anReady.seqUsed 2 = true ∧ anReady.bit (rBank_SEQ_CFG 2) 0 = true ∧
    (anReady.bank 2).todo = 16 :: [] ∧ (anReady.bank 2).seen < (anReady.timer (anReady.fld (rBank_SEQ_CFG 2) 1 6)).fired ∧
    (anReady.bank 2).slotAt + anReady.slotTicks 16 < 2 ^ 64 ∧ anReady.forced 16 = false ∧ anReady.role 9 = 13 ∧ (anReady.ch 9).measAt + 10000 < 2 ^ 64 ∧
    anReady.role 1 = 9 ∧ anReady.bit (rCh_AN_CFG 1) 11 = true ∧ (anReady.ch 1).fold = none ∧ (anReady.ch 2).fold = some 0 := by decide +kernel

theorem witness_AnalogueChannels_trim : anReady.lcProvDep = true ∧ anReady.modeIs .operate = true ∧ (∀ n ∈ [0, 3], anReady.isAi n = true ∧
      (anReady.ch n).trimAt = none ∧ Admitted anReady .pcie (rCh_TRIM_CMD n) (anReady.privAt .pcie (rCh_TRIM_CMD n))) ∧
    (match anReady.trimOf 0 1 1010, anReady.trimOf 3 1 1010, anReady.trimOf 0 2 1010 with
      | .ok v, .error r, .ok w => v == (10, 1010, 0) && r == 1 && w == (0, 0, 10000)
      | _, _, _ => false) = true ∧ (anReady.ch 0).x ≠ none ∧ (anReady.ch 3).x = none := by decide +kernel

theorem witness_AnalogueChannels_button : anReady.fld (rCh_TRIM_BTN 0) 0 8 = 4 ∧ anReady.fld (rCh_TRIM_BTN 0) 8 8 = 4 ∧
    (anReady.ch 4).press = some (0, ms 2000) ∧ anReady.role 4 = 1 ∧ (anReady.ch 0).pressUsed < 1 ∧ anReady.chOwner 0 = some 0 ∧
    anReady.chOwner 4 = some 0 ∧ anReady.ptMode 0 = 2 ∧ (anReady.wr (rPart_PT_MODE 0) 1).ptMode 0 ≠ 2 ∧
    (anReady.wr (rPart_PT_MODE 0) 1).chOwner 0 = some 0 ∧ anReady.fld (rCh_TRIM_REFS 0) 0 16 = 0 ∧
    (match anReady.trimOf 0 1 0 with
      | .ok _ => false
      | .error r => r == 2) = true ∧
    (let s := anReady.wr (rCh_TRIM_REFS 0) 1010
     match s.trimOf 0 1 (s.fld (rCh_TRIM_REFS 0) 0 16) with
      | .ok v => v == (10, 1010, 0)
      | .error _ => false) = true := by decide +kernel

theorem witness_TimerChannels : (∀ t ∈ [0, 1, 5, 6, 7], Admitted timReady .pcie (rTmr_T_CMD t) (timReady.privAt .pcie (rTmr_T_CMD t)) ∧
      Admitted timReady .pcie (rTmr_CNT_SET t) (timReady.privAt .pcie (rTmr_CNT_SET t))) ∧
    (∀ t ∈ [0, 1, 5, 6], timReady.tSeq t = false) ∧ timReady.tMode 0 = 2 ∧ timReady.tHeld 0 = false ∧ timReady.tMode 5 = 1 ∧
    timReady.tHeld 5 = true ∧ timReady.tMode 6 = 0 ∧ timReady.tSeq 7 = true ∧ (timReady.timer 1).q.length = 4 ∧ (timReady.timer 0).q = [] ∧
    timReady.tChain 0 = false ∧ timReady.bit (rTmr_TRIG 0) 6 = false := by decide +kernel

theorem witness_TimerChannels_fires : (∀ t ∈ [1, 3, 4, 5], timReady.tChain t = false) ∧ timReady.tCounting 0 (timReady.tGoal 0) = true ∧
    timReady.tAt 0 (timReady.tGoal 0) < 2 ^ 64 ∧ (∀ t ∈ [0, 2, 3, 4], timReady.bit (rTmr_TRIG t) 6 = false ∧ timReady.bit (rTmr_TRIG t) 7 = false) ∧
    (∀ t ∈ [2, 3, 4], timReady.tCounting t (2 ^ 32) = true ∧ timReady.tMode t = 1 ∧ timReady.tAt t (2 ^ 32) < 2 ^ 64) ∧
    (timReady.timer 2).cnt < timReady.tCmp 2 ∧ timReady.tCmp 3 ≤ (timReady.timer 3).cnt ∧ timReady.tCmp 3 ≠ 0 ∧ timReady.tCmp 4 = 0 := by
  decide +kernel

theorem witness_MeridianSync : merReady.mer.slew ≠ 0 ∧ merReady.synced = true ∧ merReady.modeIs .dormant = false ∧ merReady.now + 2000 < 2 ^ 64 ∧
    operating.mer.slew = 0 ∧ (1 : BitVec 64) ≠ 0 ∧ merReady.syncState = 2 ∧ merReady.mer.lastSync + 25000 < 2 ^ 64 ∧
    merReady.mer.offSince = some 0 ∧ merReady.mer.offHigh = false := by decide +kernel

theorem witness_CriticalSources : fltReady.dev.pllLocked = true ∧ fltReady.modeIs .dormant = false ∧
    (∀ k < 18, fltReady.almActs k = true ∧ fltReady.alm k = .normal) ∧ fltReady.almActs 31 = true ∧ fltReady.flt.running = true ∧
    (fltReady.setMode .dormant).almActs 0 = false ∧ (fltReady.setMode .dormant).almActs 20 = false ∧
    fltReady.cmode 0 ≠ 3 ∧ (fltReady.core 0).reexec = false ∧ (fltReady.modCore 0 fun c => { c with reexec := true }).almActs 8 = true ∧
    ((fltReady.modCore 0 fun c => { c with reexec := true }).core 0).reexec = true := by decide +kernel

theorem witness_CriticalSources_messages : (fltReady.det 1).held = true ∧ (fltReady.det 9).held = false ∧ polBase (fltReady.pol 1) = 4 ∧
    ((fltReady.modFlt fun f => { f with det := Tab.modify (fun _ => Det.reset) f.det 1 fun d => { d with bad := 2 } }).det 1).bad = 2 := by
  decide +kernel

theorem witness_FaultControl : Admitted adminReady .pcie rFlt2_CNT_CMD (adminReady.holdsMA .pcie) ∧
    Admitted adminReady .pcie rFlt3_POL_LO (adminReady.privAt .pcie rFlt3_POL_LO) ∧ adminReady.locked rFlt3_POL_LO = false ∧
    adminReady.fld rFlt3_POL_SEL 0 10 = 0 ∧ adminReady.polOk 0 (setBits (adminReady.pol 0) 0 32 (adminReady.pol 0).toNat) = true ∧
    adminReady.polOk 0 (setBits (adminReady.pol 0) 0 32 0) = false := by decide +kernel

theorem witness_FaultControl_locked : let s := adminReady.setBit (rPg_PG_STAT 0x009) 1 true
    Admitted s .pcie rFlt3_POL_LO (s.privAt .pcie rFlt3_POL_LO) ∧ s.locked rFlt3_POL_LO = true ∧
    setBits (s.pol 0) 0 32 0 ≠ s.pol 0 := by decide +kernel

theorem witness_FaultControl_injection : injReady.modeIs .dormant = false ∧ (pageBlock 0x021).isSome = true ∧ injReady.asleep (rPg_INJ_KEY 0x021) = false ∧
    (injReady.inj 0x021).armedBy ≠ none ∧ (injReady.inj 0x021).armedUntil < 2 ^ 64 ∧
    Admitted injReady .pcie (rPg_INJ_CTRL 0x021) (injReady.privAt .pcie (rPg_INJ_CTRL 0x021)) ∧ injReady.expertAt .pcie (rPg_INJ_CTRL 0x021) = true ∧
    injReady.injResult .pcie 0x021 96 1 1 = 0 ∧ injReady.injResult .pcie 0x021 0 1 1 ≠ 0 ∧ (injReady.inj 0x022).hold = some (932, 0, 100) := by
  decide +kernel

theorem witness_FaultControl_keys : Admitted injReady .pcie (rPg_INJ_CTRL 0x073) (injReady.holdsAdmin .pcie) ∧ (pageBlock 0x073).isSome = true ∧
    injReady.expertAt .pcie (rPg_INJ_CTRL 0x073) = true := by decide +kernel

theorem witness_PortStates : fabReady.trainMode = true ∧ fabReady.modeIs .dormant = false ∧ fabReady.bit (rPort_PT_CFG 4) 0 = true ∧ fabReady.portState 4 = 0 ∧
    fabReady.portState 1 = 1 ∧ (fabReady.port 1).retryAt = none ∧ (∀ p ∈ [1, 5, 6, 7], (fabReady.port p).since + 10000000 < 2 ^ 64) ∧
    fabReady.portState 5 = 2 ∧ fabReady.portState 6 = 3 ∧ fabReady.portState 7 = 4 ∧ fabReady.portUp 7 = false ∧ fabReady.fabAuth = false ∧
    fabReady.portState 2 = 6 ∧ Admitted fabReady .pcie (rPort_CMD 2) (fabReady.privAt .pcie (rPort_CMD 2)) ∧
    Admitted fabReady .pcie (rPort_CMD 0) (fabReady.privAt .pcie (rPort_CMD 0)) ∧ fabReady.portUp 0 = true ∧ (fabReady.port 0).lastRx + 200 < 2 ^ 64 ∧
    (fabReady.port 0).fecAt = [] := by decide +kernel

theorem witness_PortStates_retry : let s := fabReady.modPort 1 fun x => { x with retryAt := some 500 }
    (s.port 1).retryAt = some 500 ∧ s.portState 1 = 1 ∧ s.modeIs .dormant = false ∧ fabReady.fld (rLane_LN_CFG 0) 24 8 ≠ 0 ∧ fabReady.fld (rLane_LN_CFG 0) 24 8 ≤ 255 ∧
    fabReady.eyeLow 0 = false := by decide +kernel

theorem witness_PortBlocks : fabReady.portUp 0 = true ∧ BlockOk fabReady 0 0x81 heartbeat cleanLine ∧ (⟨true, 0, 1, 0, 0⟩ : RxLine).bad ≠ 0 ∧
    leAt (List.replicate 32 (1 : Byte)) 12 4 ≠ (crc32c ((List.replicate 32 (1 : Byte)).take 12)).toNat ∧
    BlockOk fabReady 0 0x84 hello cleanLine ∧ fabReady.fabAuth = false ∧ BlockOk fabReady 0 0x82 linkNotice cleanLine ∧
    BlockOk fabReady 0 0x83 tokenBlock cleanLine ∧ fabReady.tokLocal (leAt tokenBlock 11 1 % 32) (leAt tokenBlock 10 1 % 16) = some 5 := by
  decide +kernel

theorem witness_PortBlocks_check : spineReady.portState 7 = 4 ∧ BlockOk spineReady 7 0x84 spineHello cleanLine ∧
    spineReady.helloOk 7 spineHello = true ∧ (spineReady.port 7).hellos = 0 ∧
    ((spineReady.modPort 7 fun x => { x with hellos := 2 }).port 7).hellos = 2 ∧ BlockOk spineReady 7 0x84 hello cleanLine ∧
    spineReady.helloOk 7 hello = false := by decide +kernel

theorem witness_PortBlocks_token : Admitted fabReady .pcie rFab_TOKEN_CMD (fabReady.holdsAdmin .pcie) ∧ fabReady.hasTok 3 = true ∧
    (fabReady.tok 3).held = true ∧ fabReady.bit rEph_MIR_RX_CFG 3 = true := by decide +kernel

theorem witness_ImageClasses : spineReady.trainMode = true ∧ spineReady.isBridge = true ∧ spineReady.conf spineReady.selfPos = true ∧
    spineReady.fabAuth = false ∧ 4 ∈ spineReady.spinePorts ∧ spineReady.portUp 4 = true ∧ 0 ∈ spineReady.ringPorts ∧ spineReady.portUp 0 = true ∧
    spineReady.tickAt 50 < 2 ^ 64 ∧ frTyp imageFrame = 2 ∧ frTyp badFrame = 2 ∧ frCrcOk badFrame = false := by decide +kernel

theorem witness_ImageClasses_frames : FrameOk fabReady 0 2 50 3350 imageFrame cleanLine ∧ frOrigin imageFrame / 32 = fabReady.dev.slot.toNat / 32 ∧
    fabReady.otherMember false (frOrigin imageFrame % 32) = true ∧ payloadOk false (frPayload imageFrame) = true := by decide +kernel

theorem witness_ImageClasses_spine : FrameOk spineReady 4 3 50 5625 spineFrame cleanLine ∧ frOrigin spineFrame / 512 = spineReady.selfCluster ∧
    spineReady.otherMember true (frOrigin spineFrame / 32 % 16) = true ∧ payloadOk true (frPayload spineFrame) = true ∧
    spineReady.rxEntries true (frOrigin spineFrame / 32 % 16) = [777 + 2 ^ 22 + 2 ^ 23 + 2 ^ 39 * 8 + 2 ^ 53] ∧ spineReady.fabDual = false ∧
    spineReady.modeIs .harebell = false ∧ spineReady.fab.written = [] ∧
    payloadWord true (frPayload spineFrame) 0 = some (ringWord 7) ∧ cswValid aT (ringWord 7) 777 = true := by decide +kernel

theorem witness_ImageClasses_deadline : let v := 777 + 2 ^ 23 + 2 ^ 39 * 8 + 2 ^ 53
    ∀ ws ∈ [[ringWord 7, ringWord 8], [ringWord 7, ringWord 7], [ringWord 7]], let s := planeReady ws
      s.trainMode = true ∧ s.otherMember false 1 = true ∧ s.fab.passed = [] ∧ s.tickAt (s.deadline false 1) < 2 ^ 64 ∧ s.rxEntries false 1 = [v] ∧
        s.tokenAllows v = true ∧ s.fabDual = true ∧ s.modeIs .harebell = false ∧ s.planeCopy false 1 0 v = some (ringWord 7, true) ∧
        s.planeCopy false 1 1 v = (ws.drop 1).head?.map (·, true) := by decide +kernel

theorem witness_ImageClasses_ends : spineReady.rd rFab_CONF_MAP ≠ 0 ∧ spineReady.isBridge = true ∧ spineReady.tickAt 5625 < 2 ^ 64 ∧
    spineReady.fld rFab_FAB_STAT 0 2 ≠ 2 ∧ spineReady.bit rFab_FAB_STAT 11 = false ∧ spineReady.fab.unformed = [] ∧ spineReady.fab.syncAt = 0 ∧
    (planeReady []).planeOn 0 = true ∧ Tab.get (fun _ => 0) (planeReady []).fab.bad 0 = 4 ∧
    Tab.get (fun _ => false) (planeReady []).fab.loss 0 = false ∧ (planeReady []).modeIs .operate = true := by decide +kernel

theorem witness_ImageClasses_lost : let s := ((planeReady []).wr rFab_FAB_CFG 0x10)
    s.planeOn 0 = true ∧ Tab.get (fun _ => 0) s.fab.bad 0 = 4 ∧ s.fabDual = false ∧ s.modeIs .operate = true ∧
    Tab.get (fun _ => false) s.fab.loss 0 = false := by decide +kernel

theorem witness_FabricData : FrameOk syncTime 0 1 0 50 syncFrame cleanLine ∧ frLen syncFrame = 32 ∧ mirReady.trainMode = true ∧
    mirReady.bit rFab_FAB_CFG 21 = true ∧ mirReady.tickAt 3350 < 2 ^ 64 ∧ mirReady.eng.mirOut = [] ∧ mirReady.buddyPort = some 0 ∧
    (mirReady.modEng fun e => { e with mirOut := [⟨0, 1, 0, 64, 0, none⟩] }).eng.mirOut = [⟨0, 1, 0, 64, 0, none⟩] ∧
    mirReady.bit rEph_MIR_TX_CFG 0 = true := by decide +kernel

theorem witness_FabricData_mirror : FrameOk (mirReady.setNow 4000) 0 4 3350 5625 (mirrorFrame 0) cleanLine ∧
    FrameOk (mirReady.setNow 4000) 0 4 3350 5625 (mirrorFrame 48) cleanLine ∧ 16 ≤ frLen (mirrorFrame 0) ∧
    frOrigin (mirrorFrame 0) = mirReady.slotAt mirReady.buddyPos ∧ (mirReady.setNow 4000).bit rFab_FAB_CFG 21 = true ∧
    (mirReady.setNow 4000).eng.mirRx = none ∧ leAt (frPayload (mirrorFrame 0)) 4 4 = 0 ∧ leAt (frPayload (mirrorFrame 0)) 8 4 = 100 ∧
    ((frPayload (mirrorFrame 0)).drop 16).length = 48 ∧ leAt (frPayload (mirrorFrame 48)) 4 4 = 48 ∧
    ((mirReady.setNow 4000).modEng fun e => { e with mirRx := some ⟨1, 100, 48, []⟩ }).eng.mirRx = some ⟨1, 100, 48, []⟩ ∧
    leAt (frPayload (mirrorFrame 48)) 0 4 = 1 ∧ mirReady.mirrorLate (mirrorFrame 0) cleanLine 0 = true := by decide +kernel

theorem witness_FabricData_events : let s := spineReady.setNow 6000
    FrameOk s 0 5 5625 6250 (eventFrame 2) cleanLine ∧ frHops (eventFrame 2) = 2 ∧ frOrigin (eventFrame 2) ≠ s.dev.slot.toNat ∧
    s.portUp (portOpp 0) = true ∧ s.fabAuth = false ∧ FrameOk (s.setBit rLog_LOG_CFG 7 true) 0 5 5625 6250 (eventFrame 1) cleanLine ∧
    frHops (eventFrame 1) = 1 ∧ (s.setBit rLog_LOG_CFG 7 true).bit rLog_LOG_CFG 7 = true ∧ leAt (frPayload (eventFrame 1)) 0 8 = 1 ∧
    frLen (eventFrame 1) = 40 := by decide +kernel

theorem witness_ImageSets : fabReady.trainMode = true ∧ bulkTime.trainMode = true ∧ State.reset.trainMode = false ∧ fabReady.tickAt 5625 < 2 ^ 64 ∧ bulkTime.tickAt 5625 < 2 ^ 64 ∧ bulkTime.fab.bulk.length = 1 ∧ 0 ∈ bulkTime.ringPorts ∧
    bulkTime.portUp 0 = true ∧ bulkTime.fabAuth = false ∧ BulkOk bulkTime 0 1 (bulkFrame 1 0 0 0 0 []) cleanLine ∧
    BulkOk askReady 0 2 (bulkFrame 2 0 8 100 0 [1, 2, 3, 4, 5, 6, 7, 8]) cleanLine ∧ askReady.modeIs .sync = true ∧
    askReady.cfg.inForce = false ∧ askReady.cfg.checked = false ∧ askReady.cfg.staging = true ∧ askReady.cfg.almLen = 100 ∧
    askReady.cfg.almNext = 8 ∧ askReady.now + 1600000 < 2 ^ 64 ∧ BulkOk keepReady 0 2 (bulkFrame 2 0 8 100 0 [1, 2, 3, 4, 5, 6, 7, 8]) cleanLine ∧
    keepReady.cfg.inForce = true ∧ keepReady.bit rFab_FAB_CFG 21 = true ∧
    frOrigin (bulkFrame 2 0 8 100 0 [1, 2, 3, 4, 5, 6, 7, 8]) = keepReady.slotAt keepReady.buddyPos := by decide +kernel

theorem witness_ImageSets_votes : BulkOk bulkTime 0 3 (bulkFrame 3 0 0 0 0 []) cleanLine ∧ BulkOk bulkTime 0 3 (bulkFrame 3 1 0 0 0 []) cleanLine ∧
    bulkTime.setMatch (frPayload (bulkFrame 3 0 0 0 0 [])) = true ∧ bulkTime.setMatch (frPayload (bulkFrame 3 1 0 0 0 [])) = true ∧
    bulkTime.isCoord = true ∧ frOrigin (bulkFrame 3 0 0 0 0 []) ∈ bulkTime.setMembers ∧ bulkTime.cfg.switchT = none ∧
    leAt (frPayload (bulkFrame 3 0 0 0 0 [])) 1 1 = 0 ∧ leAt (frPayload (bulkFrame 3 1 0 0 0 [])) 1 1 = 1 := by decide +kernel

theorem witness_ImageSets_switch : bulkTime.modeIs .dormant = false ∧ BulkOk bulkTime 0 4 (bulkFrame 4 0 0 0 1600000 []) cleanLine ∧
    bulkTime.setMatch (frPayload (bulkFrame 4 0 0 0 1600000 [])) = true ∧ bulkTime.cfg.yesAt = some 0 ∧ bulkTime.cfg.switchT = none ∧
    leAt (frPayload (bulkFrame 4 0 0 0 1600000 [])) 16 8 = 1600000 ∧ bulkTime.now ≤ 1600000 ∧ BulkOk bulkTime 0 5 abortFrame cleanLine ∧
    bulkTime.setMatch (frPayload abortFrame) = true ∧ fabReady.cfg.inForce = true ∧ fabReady.cfg.yesAt = none := by decide +kernel

theorem witness_SafeFrames : (∀ c ∈ [0, 2], (netReady.conn c).cfg.getLsbD 0 = true ∧ (netReady.conn c).cfg.getLsbD 1 = true ∧
      (netReady.conn c).sends = true ∧ netReady.txNext c < 2 ^ 64 ∧ (netReady.conn c).paths 0 = true) ∧ netReady.modeIs .operate = true ∧
    (netReady.conn 0).auth = false ∧ (netReady.advanceTo (netReady.txNext 2)).ivHeld = false ∧
    ((netReady.advanceTo (netReady.txNext 2)).txSlot 2).isSome = true ∧ netReady.ethUp 0 = true ∧ (netReady.conn 5).cfg.getLsbD 0 = false := by
  decide +kernel

theorem witness_SafeFrames_received :
    let find (bs : List Byte) := (List.range 64).find? fun c =>
      netReady.consumer c && (netReady.conn c).paths 0 && (netReady.conn c).udp = false && (netReady.conn c).id = leAt bs 4 4
    find (pduBody 0 0 77 1 1 1 0 0 []) = none ∧ find (safePdu 4 199500 (ringWord 8)) = some 1 ∧ (netReady.conn 1).st = 2 ∧
    netReady.copyFault 1 (pduBody 1 1 9 4 199500 99 0 0 (natLe 8 0)) = some 361 ∧ netReady.copyFault 1 (safePdu 4 199500 (ringWord 8)) = none ∧
    (netReady.conn 1).seqL = 3 ∧ pdSeq (safePdu 4 199500 (ringWord 8)) = 4 ∧ pdTs (safePdu 4 199500 (ringWord 8)) = 199500 ∧
    netReady.connEntries 1 = [(777, false, 0, 3)] ∧ cswValid aT (BitVec.ofNat 64 (leAt (safePdu 4 199500 (ringWord 8)) 40 8)) 777 = true := by
  decide +kernel

theorem witness_SafeFrames_copies : (netReady.conn 1).tsL = 199000 ∧ netReady.copyFault 1 (safePdu 3 199000 (ringWord 7)) = none ∧
    pdSeq (safePdu 3 199000 (ringWord 7)) = (netReady.conn 1).seqL ∧ pdWords (safePdu 3 199000 (ringWord 7)) = (netReady.conn 1).held ∧
    netReady.copyFault 1 (safePdu 3 199000 (ringWord 8)) = none ∧ pdWords (safePdu 3 199000 (ringWord 8)) ≠ (netReady.conn 1).held ∧
    netReady.copyFault 1 (safePdu 2 198000 (ringWord 8)) = none ∧ pdSeq (safePdu 2 198000 (ringWord 8)) = 2 ∧
    pdTs (safePdu 2 198000 (ringWord 8)) = 198000 := by decide +kernel

theorem witness_SafeFrames_states : netReady.consumer 1 = true ∧ (netReady.conn 1).tsL + 100 * (netReady.conn 1).wd - 400 < 2 ^ 64 ∧
    netReady.consumer 4 = true ∧ (netReady.conn 4).st = 1 ∧ (netReady.conn 4).waitAt + 100 * (netReady.conn 4).wd < 2 ^ 64 ∧
    netReady.consumer 3 = true ∧ (netReady.conn 3).st = 4 ∧ netReady.modeIs .dormant = false ∧ Admitted netReady .pcie rSafe_CMD (netReady.privAt .pcie rSafe_CMD) := by decide +kernel

theorem witness_SafeFrames_keys : netReady.modeIs .dormant = false ∧ netReady.mayWrite .pcie rKeys_KEY_CMD (netReady.holdsAdmin .pcie) = true ∧
    netReady.keyBusy = false ∧ netReady.keyRefused = false ∧ netReady.keyOwner = 0 ∧ (netReady.wr rKeys_KEY_SEL 72).keyRefused = true ∧
    (netReady.modCfg fun c => { c with queue := [([], .keyErase 0 0)] }).keyBusy = true ∧ (netReady.keySlot 5 1).present = true ∧
    (netReady.keySlot 5 1).retire = 300000 := by decide +kernel

theorem witness_SafeFrames_mark : netReady.modeIs .dormant = false ∧ netReady.ivHeld = false ∧ max netReady.now (netReady.hwm - 1) + 360000000000 < 2 ^ 64 ∧
    ((netReady.wr rSafe_HWM_LO 300000).modNet fun x => { x with ivHold := true }).ivHeld = true := by decide +kernel

theorem witness_Ethernet : netReady.ethOn 0 = true ∧ netReady.linksOn = true ∧ netReady.ethUp 0 = true ∧ netReady.bit (rEth_ETH_STAT 0) 0 = true ∧
    (anyBelow 64 fun c => (netReady.conn c).cfg.getLsbD 0 && (netReady.conn c).udp && (netReady.conn c).paths 0) = true ∧
    (anyBelow 64 fun c => (netReady.conn c).cfg.getLsbD 0 && (netReady.conn c).udp && (netReady.conn c).paths 1) = false ∧
    netReady.ethUp 1 = true ∧ (netReady.rd (rEth_IP_ADDR 0)).toNat = 0 := by decide +kernel

theorem witness_Ethernet_ptp : netReady.bit (rEth_ETH_CFG 0) 7 = true ∧ netReady.fld (rEth_ETH_CFG 0) 9 7 = 0 ∧
    netReady.bit (rEth_ETH_CFG 0) 8 = false ∧ netReady.ptpSlaveAt 0 = true ∧ (netReady.ptpPort 0).t2 = some 5 ∧ (netReady.ptpPort 0).ms = some 7 ∧
    netReady.bit (rEth_ETH_CFG 1) 7 = true ∧ netReady.fld (rEth_ETH_CFG 1) 9 7 = 0 ∧ netReady.bit (rEth_ETH_CFG 1) 8 = true ∧
    netReady.ptpState 1 = 3 ∧ netReady.net.ptpLost = false ∧ netReady.tbRuns = true ∧ netReady.ptpSlave = true ∧ netReady.ptpState 0 = 2 ∧
    netReady.syncState = 2 ∧ netReady.net.ptpAt + 300000000 < 2 ^ 64 := by decide +kernel

theorem witness_RandomAndProof : State.reset.rngReady = false ∧ State.reset.bit rRng_RNG_STAT 2 = false ∧ State.reset.modeIs .dormant = false ∧
    (adminReady.setBit rRng_RNG_STAT 0 true).rngReady = true ∧ operating.modeIs .boot = false ∧ operating.modeIs .dormant = false ∧
    operating.holdsAdmin .pcie = false := by decide +kernel

theorem witness_RandomAndProof_burns : burnReady.modeIs .boot = false ∧ burnReady.holdsAdmin .pcie = true ∧ Admitted burnReady .pcie rOtp_BURN_CMD true ∧
    burnReady.expertAt .pcie rOtp_BURN_CMD = true ∧ burnReady.lc = 1 ∧ burnReady.fld rOtp_BURN_ADDR 0 8 = 12 ∧ burnReason burnReady.lc 12 = 0 ∧
    12 ∈ burnReady.lcs.weak ∧ burnReady.otpWord 12 = 1 ∧ burnReady.rd rOtp_BURN_DATA = 0 ∧ (1 : BitVec 32) &&& ~~~ 0 ≠ 0 ∧
    (1 : BitVec 32) &&& ~~~ (3 : BitVec 32) = 0 ∧ (burnReady.wr rOtp_BURN_DATA 3).rd rOtp_BURN_DATA = 3 ∧
    burnReason 1 ((burnReady.wr rOtp_BURN_ADDR 2).fld rOtp_BURN_ADDR 0 8) ≠ 0 := by decide +kernel

theorem witness_RandomAndProof_bist : blankReady.lc = 0 ∧ blankReady.modeIs .dormant = false ∧ (blankReady.sess .spi).role = 0 ∧
    (blankReady.modeIs .sync || blankReady.modeIs .halted) = true ∧ (pageBlock (blankReady.fld rLcs_MAN_SEL 0 9)).isSome = true ∧
    Admitted syncReady .pcie rLcs_MAN_CMD (syncReady.holdsAdmin .pcie) ∧ syncReady.expertAt .pcie rLcs_MAN_CMD = true ∧ syncReady.lc = 1 ∧
    (syncReady.modeIs .sync || syncReady.modeIs .halted) = true ∧ (pageBlock (syncReady.fld rLcs_MAN_SEL 0 9)).isSome = true ∧ adminReady.lc = 2 ∧
    Admitted adminReady .pcie rLcs_MAN_CMD (adminReady.holdsAdmin .pcie) ∧ adminReady.expertAt .pcie rLcs_MAN_CMD = true := by decide +kernel

theorem witness_RandomAndProof_slices : adminReady.modeIs .dormant = false ∧ adminReady.sliceOk 0 = true ∧ Tab.get (fun _ => 0) adminReady.lcs.slices 0 = 0 ∧ adminReady.sliceOk 5 = true ∧
    (adminReady.modLcs fun l => { l with proofFrom := 1 }).lcs.proofFrom ≠ 0 ∧ adminReady.bit rLcs_PROOF_STAT 16 = false ∧
    Tab.get (fun _ => 0) adminReady.lcs.starved 0 ≠ (adminReady.modLcs fun l => { l with proofFrom := 1 }).starveAt 0 ∧
    (let s := adminReady.modLcs fun l => { l with proofFrom := 1, starved := [(0, 8640000000000)] }
     Tab.get (fun _ => 0) s.lcs.starved 0 = s.starveAt 0) ∧ operating.lcs.proofFrom = 0 := by decide +kernel

theorem witness_Commit : Admitted commitReady .pcie rCfg_STG_CMD (commitReady.holdsAdmin .pcie) ∧ commitReady.commitGate = true ∧
    commitReady.cfg.staging = true ∧ commitReady.cfg.checked = true ∧ commitReady.cfg.commitReq = false ∧ commitReady.imgIsSet commitReady.staged = false ∧
    (let s := commitReady.setMode .halted
     Admitted s .pcie rCfg_STG_CMD (s.holdsAdmin .pcie) ∧ s.commitGate = false ∧ Admitted s .pcie rCfg_STG_DATA_HI (s.holdsAdmin .pcie)) ∧
    Admitted commitReady .pcie rCfg_STG_DATA_HI (commitReady.holdsAdmin .pcie) := by decide +kernel

theorem witness_Commit_check : checkRuns.cfg.staging = true ∧ checkRuns.fld rCfg_STG_RESULT 0 8 = 1 ∧ (checkRuns.checkImage checkRuns.otherCopy).1 ≠ 2 ∧
    commitReady.cfg.settle = true ∧ Memory.wf commitReady.mem.flash = true ∧ adminReady.cfg.settle = false ∧ adminReady.cfg.queue = [] := by decide +kernel

theorem witness_Commit_entries : ∀ act ∈ [PendAct.commit, .keyLoad 0 0 5 1 0 0, .keyErase 0 0, .keySetRetire 0 0 9, .pwChange 1 0 2 10000 3],
    (waiting act).cfg.queue = ([], act) :: [] := by decide +kernel

theorem witness_LogbookEvents : (∀ n, 1068 ≤ n → n ≤ 1070 → (logReady.route n).getLsbD 8 = false) ∧ logReady.modeIs .dormant = false ∧ logReady.nextMultiple 100000 < 2 ^ 64 ∧
    Admitted logReady .pcie rLog_CMD (logReady.privAt .pcie rLog_CMD) ∧ Admitted logReady .pcie rLog_HOST_RP (logReady.privAt .pcie rLog_HOST_RP) := by
  refine ⟨?_, ?_, ?_, ?_⟩
  · intro n h1 h2
    have h : n = 1068 ∨ n = 1069 ∨ n = 1070 := by omega
    rcases h with rfl | rfl | rfl <;> decide
  all_goals decide +kernel

theorem witness_LogbookEvents_spill : logReady.bit rLog_LOG_CFG 0 = true ∧ logReady.logPend (logReady.fld rLog_SPILL_RP 0 17) ≠ 0 ∧
    logReady.fld rLog_SPILL_RP 0 17 = 0 ∧ logReady.fld rLog_LOG_CFG 1 2 < natBits (Mem.byte logReady.mem.logm 15).toNat 0 2 ∧
    natBits (Mem.byte (adminReady.modLog fun l => { l with fill := 1 }).mem.logm 15).toNat 0 2 ≤ adminReady.fld rLog_LOG_CFG 1 2 ∧
    (adminReady.modLog fun l => { l with fill := 1 }).logPend 0 ≠ 0 ∧
    Admitted logReady .pcie rLog_FL_SEL (logReady.privAt .pcie rLog_FL_SEL) ∧ leNat (((Mem.bytes logReady.mem.spill 160 32).drop 8).take 4) = 5 ∧
    leNat ((Mem.bytes logReady.mem.spill 160 32).drop 28) = (crc32c ((Mem.bytes logReady.mem.spill 160 32).take 28)).toNat ∧
    leNat (((Mem.bytes logReady.mem.spill 192 32).drop 8).take 4) ≠ 6 := by decide +kernel

theorem witness_LogbookEvents_vectors : Admitted vecReady .pcie rEvt_VEC_ACK (vecReady.privAt .pcie rEvt_VEC_ACK) ∧ vecReady.vecWanted 1 = false ∧
    vecReady.vecWanted 0 = true ∧ vecReady.msixOn = true ∧ Tab.get (fun _ => true) vecReady.host.vmask 0 = false ∧
    Admitted vecReady .pcie rEvt_RT_DATA (vecReady.privAt .pcie rEvt_RT_DATA) ∧ (vecReady.wr rEvt_RT_SEL 1536).fld rEvt_RT_SEL 0 11 = 1536 ∧
    (vecReady.wr rEvt_RT_SEL 5).fld rEvt_RT_SEL 0 11 = 5 ∧ vecReady.pendBit 5 = true ∧ natBit (0x40 : BitVec 32).toNat 6 = true ∧
    natBits (0x40 : BitVec 32).toNat 0 6 = 0 ∧ vecReady.inService 0 = false ∧ Tab.get (fun _ => false) vecReady.host.vpend 0 = false ∧
    Tab.get (fun _ => false) vecReady.host.vpend 1 = true ∧ vecReady.inService 1 = false := by decide +kernel

theorem witness_LogbookEvents_bits : adminReady.asleep (rEvt_PEND 47) = false ∧ (regSpecAt (4 * (0x11018 / 4))).any (fun r => decide (r.w1c ≠ 0)) = true ∧
    (regSpecAt rLog_LOG_CFG).any (fun r => decide (r.w1c = 0)) = true ∧ 0x11018 % 0x1000 ≠ 0x28 ∧ rLog_LOG_CFG % 0x1000 ≠ 0x28 ∧
    adminReady.asleep 0x11018 = false ∧ adminReady.asleep rLog_LOG_CFG = false ∧ (pageBlock 447).isSome = true ∧ (pageBlock 10).isSome = false := by
  decide +kernel

/-- The registers that the clauses on writes take: plain, expert, the two kinds of low half, a high half. -/
theorem witness_RegisterWrites : ∀ a ∈ [rLog_LOG_CFG, rOtp_BURN_ADDR, rNgl_ALARM_LO, rOtp_DEV_ID_LO, rNgl_ALARM_HI], ∃ b k r,
    pageBlock (a / 0x1000) = some (b, k) ∧ regSpecAt a = some r ∧ r.w1c = 0 ∧ 0x40 ≤ a % 0x1000 ∧
      adminReady.wrBlock .pcie b k (a % 0x1000) 5 quietWrite = none ∧ adminReady.asleep a = false ∧ adminReady.locked a = false ∧
      ¬ (0x019 ≤ a / 0x1000 ∧ a / 0x1000 ≤ 0x01B) ∧ adminReady.mayWrite .pcie a (adminReady.roleAt .pcie a 5) = true ∧
      (a % 0x1000 < 0x400 ∨ adminReady.expertAt .pcie a = true) ∧ r.rl = decide (a = rNgl_ALARM_LO ∨ a = rOtp_DEV_ID_LO) ∧
      (a = rNgl_ALARM_LO → r.rw ≠ 0) ∧ (a = rOtp_DEV_ID_LO → r.rw = 0) ∧ adminReady.stagedFor .pcie a = none := by
  intro a ha
  simp only [List.mem_cons, List.not_mem_nil, or_false] at ha
  rcases ha with rfl | rfl | rfl | rfl | rfl <;> exact ⟨_, _, _, rfl, rfl, by decide +kernel⟩

theorem witness_RegisterWrites_refused :
    State.reset.mayWrite .pcie rLog_LOG_CFG (State.reset.roleAt .pcie rLog_LOG_CFG 5) = false ∧
    State.reset.wrBlock .pcie .log 0 0x40 5 quietWrite = none ∧ State.reset.asleep rLog_LOG_CFG = false ∧ State.reset.locked rLog_LOG_CFG = false ∧
    (let s := adminReady.modSess .pcie fun x => { x with expert := false }
     s.mayWrite .pcie rOtp_BURN_ADDR (s.roleAt .pcie rOtp_BURN_ADDR 5) = true ∧ s.expertAt .pcie rOtp_BURN_ADDR = false ∧ 0x400 ≤ rOtp_BURN_ADDR % 0x1000 ∧
      s.wrBlock .pcie .otp 0 0x400 5 quietWrite = none ∧ s.asleep rOtp_BURN_ADDR = false ∧ s.locked rOtp_BURN_ADDR = false) ∧
    (let s := adminReady.modMaster .pcie fun x => { x with staged := some (rNgl_ALARM_LO, 7) }
     s.stagedFor .pcie rNgl_ALARM_HI = some 7 ∧ (regSpecAt (rNgl_ALARM_HI - 4)).isSome = true ∧ 0x44 ≤ rNgl_ALARM_HI % 0x1000 ∧
      s.mayWrite .pcie rNgl_ALARM_HI (s.roleAt .pcie rNgl_ALARM_HI 5) = true) := by decide +kernel

theorem witness_RegisterWrites_page : (∀ pg ∈ [0x010, 0x021], (pageBlock pg).isSome = true ∧
      Admitted adminReady .pcie (rPg_PG_CTRL pg) (adminReady.roleAt .pcie (rPg_PG_CTRL pg) 0)) ∧
    (adminReady.setBit (rPg_PG_CTRL 0x021) 0 true).bit (rPg_PG_CTRL 0x021) 0 = true ∧
    (adminReady.modCfg fun c => { c with used := [0x010] }).cfg.used.contains 0x010 = true ∧
    adminReady.locked (rPg_PG_CTRL 0x010) = false ∧ adminReady.bit (rPg_PG_CTRL 0x010) 1 = false ∧ adminReady.bit (rPg_PG_CTRL 0x021) 1 = true ∧
    (adminReady.modSess .pcie fun x => { x with expert := false }).holdsExpert .pcie = false ∧
    4 * (254 : BitVec 26).toNat % 4096 = 16 * 63 + 8 ∧ (3 : BitVec 32).getLsbD 0 = true ∧
    4 * (255 : BitVec 26).toNat % 4096 = 16 * 63 + 12 := by decide +kernel

theorem witness_RegisterReads : ∀ a ∈ [rLog_LOG_CFG, rEvt_AGAIN 0, rMer_MER_LO, rMer_MER_HI], ∃ r,
    regSpecAt a = some r ∧ a ≠ rRng_RNG_DATA ∧ dbgDataPair a = none ∧ ¬ (a / 0x1000 = 0x072 ∧ 0x84 ≤ a % 0x1000) ∧ r.rc = decide (a = rEvt_AGAIN 0) ∧
      isLow a = decide (a = rMer_MER_LO) ∧ (4 * (BitVec.ofNat 26 (a / 4)).toNat = a) := by
  intro a ha
  simp only [List.mem_cons, List.not_mem_nil, or_false] at ha
  rcases ha with rfl | rfl | rfl | rfl <;> exact ⟨_, rfl, by decide +kernel⟩

theorem witness_RegisterReads_shadow : isLow (rMer_MER_HI - 4) = true ∧
    ((adminReady.modMaster .pcie fun x => { x with shadowTag := some (rMer_MER_HI - 4) }).master .pcie).shadowTag = some (rMer_MER_HI - 4) ∧
    isLow (rLog_LOG_CFG - 4) = false ∧ (adminReady.master .pcie).shadowTag ≠ some (rMer_MER_HI - 4) ∧ rMer_MER_LO % 8 = 0 ∧
    rMer_MER_LO + 4 = rMer_MER_HI ∧ adminReady.modeIs .dormant = false ∧ 4 * (0x200 : BitVec 26).toNat % 4096 = 0x800 ∧
    4 * (255 : BitVec 26).toNat % 4096 = 16 * 63 + 12 := by decide +kernel

theorem witness_RegisterReads_spi : (0x00010040 : BitVec 32).getLsbD 31 = false ∧ (0x80010040 : BitVec 32).getLsbD 31 = true ∧
    (0 : BitVec 8) ≠ spiCrc 0x00010040 5 ((0x00010040 : BitVec 32).getLsbD 30) ∧ (0x0C : BitVec 8) = spiCrc 0x00010040 5 ((0x00010040 : BitVec 32).getLsbD 30) ∧
    natBits (0x80010042 : BitVec 32).toNat 0 28 % 4 ≠ 0 ∧ (0x80010042 : BitVec 32).getLsbD 30 = false ∧
    natBits (0x80010040 : BitVec 32).toNat 0 28 = rLog_LOG_CFG ∧ natBits (0x00010040 : BitVec 32).toNat 0 28 = rLog_LOG_CFG ∧
    (adminReady.master .spi).shadowTag ≠ some (rLog_LOG_CFG - 4) ∧ adminReady.wrBlock .spi .log 0 0x40 5 quietWrite = none ∧
    adminReady.asleep rLog_LOG_CFG = false ∧ adminReady.locked rLog_LOG_CFG = false ∧ adminReady.stagedFor .spi rLog_LOG_CFG = none ∧
    adminReady.mayWrite .spi rLog_LOG_CFG (adminReady.roleAt .spi rLog_LOG_CFG 5) = false ∧
    (let s := adminReady.modSess .spi fun x => { x with role := 2 }
     s.mayWrite .spi rLog_LOG_CFG (s.roleAt .spi rLog_LOG_CFG 5) = true ∧ s.wrBlock .spi .log 0 0x40 5 quietWrite = none) := by decide +kernel

theorem witness_RegisterReads_replay : 4 * (BitVec.ofNat 26 (rPair_DBG_DATA_LO 3 / 4)).toNat = rPair_DBG_DATA_LO 3 ∧
    (let s := (adminReady.setBit (rPair_DBG_STAT 3) 2 true).setNow 10
     s.bit (rPair_DBG_STAT 3) 2 = true ∧ (s.pair 3).replayAt ≠ s.now) := by decide +kernel

theorem witness_BadAccesses : (4 * (1 : BitVec 26).toNat) % 8 ≠ 0 ∧ 0x1C0000 ≤ 4 * (0x70000 : BitVec 26).toNat ∧
    0x1C0000 ≤ 4 * (0x3FFFFFF : BitVec 26).toNat := by decide

theorem witness_DormantAndVigil : dormantReady.rtcNow ≤ dormantReady.rtcAlarmAt ∧ (dormantReady.modNgl fun n => { n with cnt := 5 }).rtcNow = 5 ∧ Admitted adminReady .pcie rSup_DORM_CMD (adminReady.holdsMA .pcie) ∧ adminReady.modeIs .dormant = false ∧
    adminReady.holdsMA .spi = false ∧ dormantReady.modeIs .dormant = true ∧ dormantReady.holdsMA .pcie = true ∧ dormantReady.holdsMA .spi = false ∧
    dormantReady.ngl.armed = true ∧ dormantReady.ngl.kept = true ∧ (adminReady.setMode .dormant).ngl.armed = false ∧
    (adminReady.setMode .dormant).ngl.kept = false ∧ fieldOk ⟨[], [], [], [], []⟩ = true := by decide +kernel

theorem witness_DormantAndVigil_inputs : dormantReady.vgEn 0 = true ∧ dormantReady.vgEn 1 = false ∧ dormantReady.vgEn 3 = true ∧
    dormantReady.ngl.level = 0 ∧ vgReads 1 false = true ∧ vgReads 2 false = false ∧ dormantReady.dev.vlogValid = true ∧
    Admitted maintReady .pcie rNgl_VG_ACK (maintReady.holdsMaint .pcie) ∧ merReady.synced = true ∧ merReady.tbRuns = true ∧
    operating.synced = false ∧ State.reset.tbRuns = false ∧ merReady.nextMultiple 1000000000 < 2 ^ 64 ∧
    (501 : BitVec 16).toInt.natAbs = 501 ∧ (merReady.modNgl fun n => { n with xtalOk := true }).ngl.xtalOk = true ∧
    State.reset.dev.vlogValid = false := by decide +kernel

theorem witness_SupplyAndGating : adminReady.dev.vlogValid = true ∧ adminReady.nextMultiple 1000000000 < 2 ^ 64 ∧
    adminReady.bit rSup_SUP_STAT 1 = false ∧ adminReady.bit rSup_SUP_STAT 2 = false ∧ adminReady.bit rSup_SUP_STAT 4 = false ∧
    adminReady.ngl.vbakSeen = false ∧ adminReady.fld rSup_V_VBAK 0 16 < 2000 ∧
    (adminReady.modNgl fun n => { n with vbakSeen := true }).ngl.vbakSeen = true ∧ adminReady.bit rSup_SUP_STAT 3 = false ∧
    (1251 : BitVec 16).toInt = 1251 ∧ State.reset.dev.vlogValid = false := by decide +kernel

theorem witness_SupplyAndGating_gates : (∀ pg ∈ [0x009, 447], (pageBlock pg).isSome = true) ∧ adminReady.modeIs .dormant = false ∧
    adminReady.pmPolicy 0x009 = 0 ∧ (adminReady.wr (rPg_PM_CTRL 0x009) 1).pmPolicy 0x009 = 1 ∧ (adminReady.wr (rPg_PM_CTRL 0x009) 3).pmPolicy 0x009 = 3 ∧
    (adminReady.wr (rPg_PM_CTRL 0x014) 2).pmPolicy 0x014 = 2 ∧ (pageBlock 0x014).isSome = true ∧ adminReady.mayPowerGate 0x014 = true ∧
    adminReady.cfg.used = [] ∧ (xferReady.wr (rPg_PM_CTRL 0x014) 2).pmPolicy 0x014 = 2 ∧ xferReady.mayPowerGate 0x014 = false ∧
    (adminReady.wr (rPg_PM_STAT 447) 2).fld (rPg_PM_STAT 447) 0 2 ≠ 0 := by decide +kernel

theorem witness_Startup : State.reset.dev.vlogValid = false ∧ State.reset.dev.nreset = false ∧ adminReady.dev.vlogValid = true ∧
    State.reset.lcs.retry = false ∧ retryReady.lcs.retry = true ∧ retryReady.dev.vlogValid = true ∧ retryReady.dev.nreset = false ∧
    (State.reset.modDev fun d => { d with nreset := true }).dev.nreset = true ∧ (adminReady.modDev fun d => { d with nreset := true }).dev.nreset = true ∧
    adminReady.dev.mode ≠ .boot := by decide +kernel

theorem witness_Startup_finds : ((retryReady.porRelease 1 lostStart).sense lostStart).bit rOtp_OTP_STAT 3 = true ∧ lostStart.fails = none ∧
    ((retryReady.porRelease 1 quietStart).sense quietStart).bit rOtp_OTP_STAT 3 = false ∧ quietStart.fails = none ∧ quietStart.logic = true ∧
    quietStart.sig = [] ∧ quietStart.memory = true ∧ fieldOk quietStart.field = true ∧
    ((retryReady.porRelease 1 { quietStart with fails := some 2 }).sense { quietStart with fails := some 2 }).bit rOtp_OTP_STAT 3 = false ∧
    ((retryReady.porRelease 1 { quietStart with logic := false }).sense { quietStart with logic := false }).bit rOtp_OTP_STAT 3 = false ∧
    ((retryReady.porRelease 1 { quietStart with sig := [3] }).sense { quietStart with sig := [3] }).bit rOtp_OTP_STAT 3 = false ∧
    ((retryReady.porRelease 1 { quietStart with memory := false }).sense { quietStart with memory := false }).bit rOtp_OTP_STAT 3 = false ∧
    ((retryReady.porRelease 1 { quietStart with field := badField }).sense { quietStart with field := badField }).bit rOtp_OTP_STAT 3 = false ∧
    fieldOk badField = false := by decide +kernel

theorem witness_Startup_advance : Admitted State.reset .spi rLcs_LC_CMD (State.reset.mayAdvance .spi) ∧ State.reset.advanceOk = false ∧
    Admitted advanceReady .pcie rLcs_LC_CMD (advanceReady.mayAdvance .pcie) ∧ advanceReady.advanceOk = true ∧ advanceReady.dev.nreset = false ∧
    (advanceReady.modDev fun d => { d with nreset := true }).dev.nreset = true ∧ State.reset.svcOk 1 = false ∧ State.reset.svcOk 2 = false := by
  decide +kernel

/-- All of a service command but its key and signature, which SHA-256 and ECDSA decide, holds in `svcReady`. -/
theorem witness_Startup_service (k : Nat) (hk : k = 1 ∨ k = 2)
    (root : hashBytes (Config.sha256 ((svcReady k).svcBytes 28 64)) = (svcReady k).svcRoot)
    (sig : Config.ecdsaOk ((svcReady k).svcBytes 28 64) ((svcReady k).svcBytes 92 64) (Config.sha256 ((svcReady k).svcBytes 0 92)) = true) :
    (svcReady k).svcOk k = true ∧ (svcReady k).svcOk (3 - k) = false ∧ (svcReady k).lcWord = some 2 ∧ (svcReady k).dev.nreset = false := by
  have h : leNat ((svcReady k).svcBytes 0 4) = k ∧ leNat ((svcReady k).svcBytes 4 8) = (svcReady k).rd64 rOtp_DEV_ID_LO ∧
      (svcReady k).cfg.svcChal ≠ 0 ∧ leNat ((svcReady k).svcBytes 12 16) = (svcReady k).cfg.svcChal.toNat ∧ (svcReady k).lcWord = some 2 ∧
      (svcReady k).dev.nreset = false := by
    rcases hk with rfl | rfl <;> decide +kernel
  have hne : k ≠ 3 - k := by omega
  refine ⟨?_, ?_, h.2.2.2.2.1, h.2.2.2.2.2⟩
  · simpa [State.svcOk, h.1, h.2.1, h.2.2.2.1, root, sig] using h.2.2.1
  · simp [State.svcOk, h.1, hne]

theorem witness_Vernier : operating.vernRuns = true ∧ operating.vernChooses = true ∧ operating.nextMultiple 100000000 < 2 ^ 64 ∧
    operating.hourBoundary < 2 ^ 64 ∧ operating.vern.dayAt + 8640000000000 < 2 ^ 64 ∧ State.reset.vernRuns = false ∧ operating.modeIs .operate = true := by
  decide +kernel

theorem witness_Xfer : xferReady.bit rHost_LINK_STAT 0 = true ∧ adminReady.bit rHost_LINK_STAT 0 = false ∧
    (∀ q ∈ [0, 3], Admitted xferReady .pcie (rXfer_XQ_TAIL q) (xferReady.privAt .pcie (rXfer_XQ_TAIL q)) ∧
      (∀ r < 3, Admitted xferReady .pcie (xqReg q r) (xferReady.privAt .pcie (xqReg q r)))) ∧
    Admitted xferReady .pcie rXfer_XF_CTRL (xferReady.privAt .pcie rXfer_XF_CTRL) ∧ xferReady.fld (rXfer_XQ_HEAD 3) 0 13 = 0 ∧
    xferReady.xqRing 3 < 8191 ∧ 1 ≤ xferReady.xqRing 3 ∧ xferReady.xqHeld 0 ≠ 0 ∧ xferReady.xqHeld 3 = 0 := by decide +kernel

theorem witness_Xfer_starts : adminReady.xferOn = false ∧ xferReady.bit (rPg_PG_CTRL 0x014) 0 = true ∧ xferReady.bit rXfer_XF_CTRL 0 = true ∧
    (xferReady.xq 0).busy = none ∧ xferReady.xferOn = true ∧ (xferReady.xq 0).wait = none ∧ descFormatOk { okDesc with zero := 1 } = false ∧
    descFormatOk { okDesc with src := 0x200000 } = true ∧ descRangeOk { okDesc with src := 0x200000 } = false ∧ descFormatOk okDesc = true ∧
    descRangeOk okDesc = true ∧ descTrig okDesc = false ∧ descTrig trigDesc = true ∧ descFormatOk trigDesc = true ∧ descRangeOk trigDesc = true ∧
    ((xferReady.modXq 0 fun x => { x with wait := some (trigDesc, 0) }).xq 0).wait = some (trigDesc, 0) ∧
    xferReady.fired (descTmr trigDesc) = 0 ∧ (xferReady.modTimer 0 fun x => { x with fired := 1 }).fired (descTmr trigDesc) = 1 := by decide +kernel

theorem witness_Xfer_ends : ((xferReady.modXq 0 fun x => { x with busy := some (okDesc, 0, 0) }).xq 0).busy = some (okDesc, 0, 0) ∧
    (xferReady.modXq 0 fun x => { x with busy := some (okDesc, 0, 0) }).xferOn = true ∧
    (adminReady.modXq 0 fun x => { x with busy := some (okDesc, 0, 0) }).xferOn = false ∧
    (let s := (xferReady.modXq 0 fun x => { x with busy := some (trigDesc, 0, 0) }).modTimer 0 fun x => { x with fired := 1 }
     (s.xq 0).busy = some (trigDesc, 0, 0) ∧ s.xferOn = true ∧ 0 < s.fired (descTmr trigDesc)) := by decide +kernel

theorem witness_CodeCheck : 32768 < aT ∧ aT < 65536 ∧ aT % 2 = 1 ∧ vcOk aT (mkCsw aT 5 7 0 .good) 5 = true ∧
    (mkCsw aT 5 65535 3 .good) ≠ (mkCsw aT 6 65535 3 .good) := by decide +kernel

theorem witness_Denied : (pageBlock 0x010).isSome = true ∧ State.reset.asleep rLog_CMD = false ∧
    State.reset.mayWrite .pcie rLog_CMD (State.reset.privAt .pcie rLog_CMD) = false ∧ State.reset.mayWrite .spi rCfg_STG_CMD (State.reset.holdsAdmin .spi) = false := by decide

/-! Ill-formed commands, each refused by the check of `Instr.wf` it fails -/

theorem test_wf_frame : Instr.wf (.eventFrameReceive 0 (List.replicate 24 0) cleanLine) = true := by decide

theorem test_ill_frame : ∀ bs, bs.length = 524321 → Instr.wf (.eventFrameReceive 0 bs cleanLine) = false := by
  intro bs h
  simp [Instr.wf, frameLenOk, h]

theorem test_ill_block : Instr.wf (.helloReceive 0 (List.replicate 31 0) cleanLine) = false := by decide

theorem test_ill_pdu : ∀ bs, bs.length = 1501 → Instr.wf (.safeFrameReceive 0 false bs) = false := by
  intro bs h
  simp [Instr.wf, pduLenOk, h]

theorem test_ill_vernier_slack : Instr.wf (.vernierSecond (List.replicate 23 0) (List.replicate 8 0) 0) = false := by decide

theorem test_ill_vernier_shift : Instr.wf (.vernierSecond (List.replicate 24 0) (List.replicate 9 0) 0) = false := by decide

theorem test_ill_wide_write : Instr.wf (.registerWrite .pcie ⟨.bar0, 3⟩ 0 (some 0) quietWrite) = false := by decide

/-- The table gives its rows no bits, so no word spells a command. -/
theorem test_decode_none : decodeTableWord 32 0 = none := rfl

/-! What the spec's own figures give -/

/-- R33: the nine bytes "123456789" give 0xE306_9283. -/
theorem test_crc32c_check : crc32c [0x31, 0x32, 0x33, 0x34, 0x35, 0x36, 0x37, 0x38, 0x39] = 0xE3069283 := by decide +kernel

/-- The start permission of Tamsk: the signature of signal 0x9_632C. -/
theorem test_signature : sigB 0x9632C = 0xAB29 := by decide

/-- The same example: the words of v = 1 under A_p and A_t, and of v = 0. -/
theorem test_code_words : cswVc (mkCsw 0xB5C7 0x9632C 1 0 .good) = 0x160F0 ∧ cswVc (mkCsw aT 0x9632C 1 0 .good) = 0x1901C ∧
    cswVc (mkCsw aT 0x9632C 0 0 .good) = 0xAB29 := by decide +kernel

/-- The same example: the neighbour's word gives d = 33,582, which is no multiple of A_t. -/
theorem test_wrong_neighbour : cswVc (mkCsw aT 0x9632D 1 0 .good) = 0x12E57 ∧ codeDiff (mkCsw aT 0x9632D 1 0 .good) 0x9632C = 33582 ∧
    vcOk aT (mkCsw aT 0x9632D 1 0 .good) 0x9632C = false := by decide +kernel

/-- The same example: stored at 0x21F0 and loaded at 0x0003_21F3, the word's age is 3. -/
theorem test_age : ageAt 0x321F3 (mkCsw aT 0x9632C 1 0x21F0 .good) = 3 := by decide +kernel

/-- R67: FAULT is worst, GOOD best, and FORCED passes as live. -/
theorem test_worst_quality : qualWorst [.good, .stale, .fault, .init] = .fault ∧ qualWorse .forced .good = .forced ∧
    qualWorse .subst .unknown = .unknown := by decide

/-- R118: 40,000 + 40,000 wraps, clamps at 0xFFFF unsigned, and −25,536 − 25,536 clamps at −32,768 signed. -/
theorem test_saturation_modes : satMode 0 80000 80000 = 14464 ∧ satMode 1 80000 80000 = 0xFFFF ∧ satMode 2 (-51072) (-51072) = 0x8000 := by
  decide

/-- A plain ADD of two registers that hold 0xFFFF_FFFF and 1 gives 0. -/
theorem test_add_wraps : (match exec (.add 0 3 1 2) ((coreReady.writeP 0 1 0xFFFFFFFF).writeP 0 2 1) with
    | .next t => (t.readP 0 3).toNat
    | _ => 1) = 0 := by decide +kernel

/-- SRA keeps the sign, SRL does not: 0x8000_0000 by 4. -/
theorem test_shift_right : (match exec (.sra 0 3 1 2) ((coreReady.writeP 0 1 0x80000000).writeP 0 2 4) with
    | .next t => (t.readP 0 3).toNat
    | _ => 0) = 0xF8000000 := by decide +kernel

/-- R118: the signed absolute value of −32,768 is 32,767. -/
theorem test_cabs_corner : (match exec (.cabs 0 4 1) (codedReady.writeC 0 1 0x8000 .good).1 with
    | .next t => t.readC 0 4
    | _ => none) = some (32767, .good) := by decide +kernel

/-- R67, R118: C2 + C3 takes the STALE of C3, and with it v = 0. -/
theorem test_cadd_quality : (match exec (.cadd 0 4 2 3 0) codedReady with
    | .next t => (t.readC 0 4).map Prod.snd
    | _ => none) = some .stale := by decide +kernel


/-- The queue is first in, first out: the command behind the front one stays. -/
theorem test_fifo : (match step (State.reset.modPending fun _ => [.pcieLinkDown, .pllLockLoss]) with
    | .next t => t.pending
    | _ => []) = [.pllLockLoss] := by decide +kernel

/-! Words written out from the formats of R107 and the opcodes of R113: opcode in [31:26], d in [25:21], a in [20:16], b in [15:11],
c in [10:6] -/

def someEnv : FetchEnv := ⟨⟨0, .clean, false, .clean, .clean⟩, false, true, 1, 2⟩

/-- The coded formats. LDS C1, 5: 000001 00001 00000 0000000000000101. CADD C3, C1, C2, 1: 001000 00011 00001 00010 00000000001. CLIM C4,
C1, C2, C3: 001110 00100 00001 00010 00011 000000. CMULK C1, C2, 7, 2: 001010 00001 00010 000000 10 00000111. FB C4, C0, PULLWIRE, 3:
011100 00100 00000 000010 0000000011. -/
theorem test_words_coded :
    sextant 0 someEnv 0x04200005 = some (.lds 0 1 5 someEnv.load) ∧ sextant 0 someEnv 0x20611001 = some (.cadd 0 3 1 2 1) ∧
    sextant 0 someEnv 0x388110C0 = some (.clim 0 4 1 2 3 false) ∧ sextant 0 someEnv 0x28220207 = some (.cmulk 0 1 2 7 2) ∧
    sextant 0 someEnv 0x70800803 = some (.fbPullwire 0 4 0 3 false) := by decide +kernel

/-- Stores and timers. STS C2, 9: 000011 00000 00010 0000000000001001. STV C1, 3: 000101 00000 00001 0000000000000011. CTON C1, C2, 4:
011000 00001 00010 0000000000000100. -/
theorem test_words_stores : sextant 7 someEnv 0x0C020009 = some (.sts 7 2 9) ∧ sextant 7 someEnv 0x14010003 = some (.stv 7 1 3) ∧
    sextant 7 someEnv 0x60220004 = some (.cton 7 1 2 4) := by decide +kernel

/-- Control flow. BCC 2, P1, P3, 4: 100001 00010 00001 0011 000000000100. LOOP P2, 5, 6: 100010 00000 00010 00000101 00000110. END 1:
100011 00000 00000 0000000000000001. BR 8: 100000 00000 00000 0000000000001000. -/
theorem test_words_flow :
    sextant 0 someEnv 0x84413004 = some (.bcc 0 2 1 3 4) ∧ sextant 0 someEnv 0x88020506 = some (.loop 0 2 5 6) ∧
    sextant 0 someEnv 0x8C000001 = some (.endSlot 0 true 1 2) ∧ sextant 0 someEnv 0x80000008 = some (.br 0 8) := by decide +kernel

/-- Plain and system. ADD P3, P1, P2: 101000 00011 00001 00010 00000000000. ADDI P1, P2, 0xFFFF: 110001 00001 00010 1111111111111111. MFS P4,
1: 110110 00100 00000 0000000000000001. ST.PGM P1, P2, 6: 111011 00001 00010 0000000000000110. RAISE P1, 2: 111101 00000 00001
0000000000000010. -/
theorem test_words_plain :
    sextant 0 someEnv 0xA0611000 = some (.add 0 3 1 2) ∧ sextant 0 someEnv 0xC422FFFF = some (.addi 0 1 2 0xFFFF) ∧
    sextant 0 someEnv 0xD8800001 = some (.mfs 0 4 1) ∧ sextant 0 someEnv 0xEC220006 = some (.stPgm 0 1 2 6) ∧
    sextant 0 someEnv 0xF4010002 = some (.raise 0 1 2) := by decide +kernel

/-- R108: a reserved opcode, an unused field that is not zero, bit 4 of a P register's field, a reserved mode, a block past C31. -/
theorem test_words_illegal : sextant 0 someEnv 0x00000000 = none ∧ sextant 0 someEnv 0x9C000000 = none ∧
    sextant 0 someEnv 0xA0611001 = none ∧ sextant 0 someEnv 0xA0711000 = none ∧ sextant 0 someEnv 0x20611003 = none ∧
    sextant 0 someEnv 0x73E00803 = none := by decide +kernel

/-- The word at the PC runs: LDS C1, 5 in a window of one word; a fetch past it is an illegal opcode (R81, R108). -/
theorem test_fetched :
    let s := coreReady.modMem fun m => { m with pgm := Mem.write m.pgm (pgmAt 0 0 10) [5, 0, 0x20, 4] }
    s.fetched 0 someEnv = .lds 0 1 5 someEnv.load ∧
      (s.modCore 0 fun c => { c with pc := 100 }).fetched 0 someEnv = .illegalOpcode 0 := by decide +kernel

end Sys2Proof.Tests
end

section
/-! PROOFS. What a denial and the bookkeeping of every write leave in the registers and in the privileges (R32, R34, R35, R42, R435). -/

namespace Sys2Proof.Proofs

open Sys2Proof Sys2Proof.Machine Sys2Proof.Laws

variable {s : State} {m : Master} {a x : Nat}

/-! A raised message -/

theorem det_modFlt_set (src n : Nat) (d : Det) :
    (s.modFlt fun f => { f with det := Tab.set (fun _ => Det.reset) f.det src d }).det n = if n = src then d else s.det n := by
  simp only [State.det, modFlt_flt, tab_get_set]

/-- A source that is no page event changes no register but the count of lost messages. -/
theorem rd_raise0 {src : Nat} (he : evBit src = none) (hx : x ≠ rFlt0_BUS_SAT) : (s.raise0 src).rd x = s.rd x := by
  simp only [State.raise0, State.raise, State.raiseInj, State.evMark, he]
  split
  · split
    · rfl
    · exact rd_wr_ne _ hx
  · rfl

theorem raise0_held (s : State) (src : Nat) : ((s.raise0 src).det src).held = true := by
  simp only [State.raise0, State.raise, State.raiseInj]
  split
  · next h =>
    split
    · simpa only [det_modFlt_set, if_true] using h
    · exact h
  · simp only [det_modFlt_set, if_true]

/-! Denials -/

theorem rd_denyNote (h1 : x ≠ rHost_DENY_ADDR) (h2 : x ≠ rHost_DENY_MASTER) : (s.denyNote m a).rd x = s.rd x := by
  simp only [State.denyNote, rd_wrN, h1, h2, if_false]

theorem denyNote_addr : (s.denyNote m a).rd rHost_DENY_ADDR = BitVec.ofNat 32 a := by
  have h : rHost_DENY_ADDR ≠ rHost_DENY_MASTER := by decide
  simp only [State.denyNote, rd_wrN, h, if_false, if_true]

theorem denyNote_master : (s.denyNote m a).rd rHost_DENY_MASTER = BitVec.ofNat 32 (masterNum m) := by
  simp only [State.denyNote, rd_wrN, if_true]

theorem rd_denied (h1 : x ≠ rHost_DENY_ADDR) (h2 : x ≠ rHost_DENY_MASTER) (h3 : x ≠ rFlt0_BUS_SAT) :
    (s.denied m a).rd x = s.rd x := by
  rw [State.denied, rd_raise0 rfl h3, rd_denyNote h1 h2]

theorem rd_expertDenied (h1 : x ≠ rHost_DENY_ADDR) (h2 : x ≠ rHost_DENY_MASTER) (h3 : x ≠ rFlt0_BUS_SAT) :
    (s.expertDenied m a).rd x = s.rd x := by
  rw [State.expertDenied, rd_raise0 rfl h3, rd_denyNote h1 h2]

theorem denied_held : ((s.denied m a).det 949).held = true := raise0_held ..

theorem expertDenied_held : ((s.expertDenied m a).det 944).held = true := raise0_held ..

theorem denied_addr : (s.denied m a).rd rHost_DENY_ADDR = BitVec.ofNat 32 a := by
  rw [State.denied, rd_raise0 rfl (by decide), denyNote_addr]

theorem denied_master : (s.denied m a).rd rHost_DENY_MASTER = BitVec.ofNat 32 (masterNum m) := by
  rw [State.denied, rd_raise0 rfl (by decide), denyNote_master]

theorem expertDenied_addr : (s.expertDenied m a).rd rHost_DENY_ADDR = BitVec.ofNat 32 a := by
  rw [State.expertDenied, rd_raise0 rfl (by decide), denyNote_addr]

/-- A denial touches registers and the fault collector alone. -/
theorem denied_keeps : Keeps (only [.regs, .flt]) s (s.denied m a) := Keeps.denied Keeps.rfl' rfl rfl

/-! What every write restarts (R32, R42, R435) -/

theorem master_modMaster (f : MasterSt → MasterSt) : (s.modMaster m f).master m = f (s.master m) := by
  simp only [State.master, State.modMaster, modHost_host, tab_get_modify, if_true]

@[simp] theorem modMaster_rd (f : MasterSt → MasterSt) : (s.modMaster m f).rd x = s.rd x := rfl

/-- Of the registers a write's bookkeeping changes only PM_STAT, at offset 0x028 of its page. -/
theorem rd_noteWrite_of_ne (h : x ≠ rPg_PM_STAT (a / 0x1000)) : (s.noteWrite m a).rd x = s.rd x := by
  simp only [State.noteWrite, State.wakePage]
  split <;> split <;> first | rfl | exact rd_setFld_ne h

theorem rd_noteWrite (h : x % 0x1000 ≠ 0x28) : (s.noteWrite m a).rd x = s.rd x :=
  rd_noteWrite_of_ne fun e => h (by rw [e, rPg_PM_STAT, page]; omega)

theorem bit_noteWrite {i : Nat} (h : x % 0x1000 ≠ 0x28) : (s.noteWrite m a).bit x i = s.bit x i := by
  rw [State.bit, rd_noteWrite h, State.bit]

theorem fld_noteWrite {lo n : Nat} (h : x % 0x1000 ≠ 0x28) : (s.noteWrite m a).fld x lo n = s.fld x lo n := by
  rw [State.fld, rd_noteWrite h, State.fld]

theorem noteWrite_flt : (s.noteWrite m a).flt = s.flt := by
  simp only [State.noteWrite]
  split <;> split <;> rfl

theorem noteWrite_host : { (s.noteWrite m a).host with masters := s.host.masters } = s.host := by
  simp only [State.noteWrite]
  split <;> split <;> rfl

theorem noteWrite_cfg :
    (s.noteWrite m a).cfg = (s.modSess m fun y => { y with lastWr := s.now }).cfg := by
  simp only [State.noteWrite]
  split <;> split <;> rfl

theorem noteWrite_masters : (s.noteWrite m a).master m =
    if (s.stagedFor m a).isSome then s.master m else { s.master m with staged := none } := by
  have h (u : State) : (if (pageBlock (a / 0x1000)).isSome then u.wakePage (a / 0x1000) else u).master m = u.master m := by
    split <;> rfl
  simp only [State.noteWrite, h]
  split
  · rfl
  · exact master_modMaster ..

/-- The low half a master staged for this offset stays staged (R42). -/
theorem stagedFor_noteWrite : (s.noteWrite m a).stagedFor m a = s.stagedFor m a := by
  rw [State.stagedFor, noteWrite_masters]
  cases h : s.stagedFor m a with
  | none => rfl
  | some w => simpa only [Option.isSome_some, if_true, State.stagedFor] using h

theorem noteWrite_staged (h : s.stagedFor m a = none) : ((s.noteWrite m a).master m).staged = none := by
  rw [noteWrite_masters, h]; rfl

/-! A write's bookkeeping leaves every privilege as it is -/

theorem sess_noteWrite (k : Master) : (s.noteWrite m a).sess k =
    { s.sess k with lastWr := ((s.noteWrite m a).sess k).lastWr } := by
  rw [State.sess, noteWrite_cfg]
  simp only [State.modSess, modCfg_cfg, tab_get_modify, State.sess]
  split
  · next e => rw [e]
  · rfl

theorem holdsMaint_noteWrite (k : Master) : (s.noteWrite m a).holdsMaint k = s.holdsMaint k := by
  rw [State.holdsMaint, sess_noteWrite]; rfl

theorem holdsAdmin_noteWrite (k : Master) : (s.noteWrite m a).holdsAdmin k = s.holdsAdmin k := by
  rw [State.holdsAdmin, sess_noteWrite]; rfl

theorem holdsMA_noteWrite (k : Master) : (s.noteWrite m a).holdsMA k = s.holdsMA k := by
  rw [State.holdsMA, holdsMaint_noteWrite, holdsAdmin_noteWrite, State.holdsMA]

theorem holdsOwner_noteWrite (k : Master) (p : Nat) : (s.noteWrite m a).holdsOwner k p = s.holdsOwner k p := by
  rw [State.holdsOwner, sess_noteWrite]; rfl

theorem holdsExpert_noteWrite (k : Master) : (s.noteWrite m a).holdsExpert k = s.holdsExpert k := by
  rw [State.holdsExpert, sess_noteWrite]; rfl

theorem owner_mod (p : Nat) : rPg_OWNER p % 0x1000 ≠ 0x28 := by rw [rPg_OWNER, page]; omega
theorem ctrl_mod (p : Nat) : rPg_PG_CTRL p % 0x1000 ≠ 0x28 := by rw [rPg_PG_CTRL, page]; omega
theorem stat_mod (p : Nat) : rPg_PG_STAT p % 0x1000 ≠ 0x28 := by rw [rPg_PG_STAT, page]; omega
theorem tCfg_mod (t : Nat) : rTmr_T_CFG t % 0x1000 ≠ 0x28 := by rw [rTmr_T_CFG, page]; omega
theorem ptCfg_mod (p : Nat) : rPart_PT_CFG p % 0x1000 ≠ 0x28 := by rw [rPart_PT_CFG, page]; omega
theorem ptMode_mod (p : Nat) : rPart_PT_MODE p % 0x1000 ≠ 0x28 := by rw [rPart_PT_MODE, page]; omega
theorem frcSel_mod (k : Master) : bk k rCfg_FRC_SEL % 0x1000 ≠ 0x28 := by cases k <;> decide

theorem ownerAt_noteWrite (b : Nat) : (s.noteWrite m a).ownerAt b = s.ownerAt b := by
  simp only [State.ownerAt, bit_noteWrite (tCfg_mod _), fld_noteWrite (tCfg_mod _), bit_noteWrite (owner_mod _),
    fld_noteWrite (owner_mod _)]

theorem ptSafe_noteWrite (p : Nat) : (s.noteWrite m a).ptSafe p = s.ptSafe p := bit_noteWrite (ptCfg_mod p)

theorem ptQuiet_noteWrite (p : Nat) : (s.noteWrite m a).ptQuiet p = s.ptQuiet p := by
  have h : (s.noteWrite m a).ptMode p = s.ptMode p := fld_noteWrite (ptMode_mod p)
  rw [State.ptQuiet, h, State.ptQuiet]

theorem safeGate_noteWrite (b : Nat) : (s.noteWrite m a).safeGate b = s.safeGate b := by
  rw [State.safeGate, ownerAt_noteWrite, State.safeGate]
  cases s.ownerAt b with
  | none => rfl
  | some p =>
    simp only [ptSafe_noteWrite, ptQuiet_noteWrite]

theorem privAt_noteWrite (k : Master) (b : Nat) : (s.noteWrite m a).privAt k b = s.privAt k b := by
  simp only [State.privAt, ownerAt_noteWrite, holdsMA_noteWrite, holdsOwner_noteWrite]

theorem mayWrite_noteWrite (k : Master) (b : Nat) (role : Bool) :
    (s.noteWrite m a).mayWrite k b role = s.mayWrite k b role := by
  simp only [State.mayWrite, State.wrBit, bit_noteWrite (owner_mod _), safeGate_noteWrite]

theorem roleAt_noteWrite (k : Master) (b : Nat) (v : Word) : (s.noteWrite m a).roleAt k b v = s.roleAt k b v := by
  simp only [State.roleAt, holdsAdmin_noteWrite, holdsMA_noteWrite, holdsOwner_noteWrite, privAt_noteWrite,
    fld_noteWrite (frcSel_mod _)]

theorem expertAt_noteWrite (k : Master) (b : Nat) : (s.noteWrite m a).expertAt k b = s.expertAt k b := by
  simp only [State.expertAt, bit_noteWrite (ctrl_mod _), holdsExpert_noteWrite]

theorem locked_noteWrite (b : Nat) : (s.noteWrite m a).locked b = s.locked b := bit_noteWrite (stat_mod _)

theorem noteWrite_keeps : Keeps (only [.regs, .host, .cfg]) s (s.noteWrite m a) := Keeps.noteWrite Keeps.rfl' rfl rfl rfl

end Sys2Proof.Proofs
end

section
/-! PROOFS. A write of a register with no command of its own, outcome by outcome (R5, R34, R35, R42). -/

namespace Sys2Proof.Proofs

open Sys2Proof Sys2Proof.Machine Sys2Proof.Laws

variable {s : State} {m : Master} {a x : Nat} {r : RegSpec} {v : Word} {env : WriteEnv}

/-! A write of a register with no command of its own, case by case -/

/-- A register that is no command and has no W1C bits is written as a plain register. -/
theorem busWrite_plain {b : Block} {k : Nat} (hp : pageBlock (a / 0x1000) = some (b, k)) (hr : regSpecAt a = some r)
    (hw : r.w1c = 0) (ho : 0x40 ≤ a % 0x1000) (hb : s.wrBlock m b k (a % 0x1000) v env = none) :
    s.busWrite m a v env = s.plainWrite m a r v := by
  have h : ¬ a % 0x1000 < 0x40 := by omega
  simp only [State.busWrite, hp, hr, hw, ne_eq, not_true_eq_false, if_false, if_neg h, hb]

theorem plainWrite_denied (hs : s.asleep a = false) (hm : s.mayWrite m a (s.roleAt m a v) = false) :
    s.plainWrite m a r v = (s.noteWrite m a).denied m a := by
  simp only [State.plainWrite, hs, roleAt_noteWrite, mayWrite_noteWrite, hm, Bool.false_eq_true, if_false, Bool.not_false, if_true]

theorem plainWrite_expertDenied (hs : s.asleep a = false) (hm : s.mayWrite m a (s.roleAt m a v) = true)
    (hx : ¬ (a % 0x1000 < 0x400 ∨ s.expertAt m a = true)) :
    s.plainWrite m a r v = (s.noteWrite m a).expertDenied m a := by
  obtain ⟨h1, h2⟩ := not_or.mp hx
  have h3 : (decide (0x400 ≤ a % 0x1000) && !s.expertAt m a) = true := by simp only [h2]; simpa using h1
  simp only [State.plainWrite, hs, roleAt_noteWrite, mayWrite_noteWrite, expertAt_noteWrite, hm, h3, Bool.false_eq_true, if_false,
    Bool.not_true, if_true]

/-- An admitted write: the low half of a wide value is staged, or ignored where it has no writable bit; another register is stored. -/
theorem plainWrite_admitted (hs : s.asleep a = false) (hm : s.mayWrite m a (s.roleAt m a v) = true)
    (hx : a % 0x1000 < 0x400 ∨ s.expertAt m a = true) (hl : s.locked a = false) :
    s.plainWrite m a r v =
      if r.rl then (if r.rw = 0 then s.noteWrite m a else (s.noteWrite m a).modMaster m fun y => { y with staged := some (a, v) })
      else (s.noteWrite m a).store m a r v := by
  have h3 : (decide (0x400 ≤ a % 0x1000) && !s.expertAt m a) = false := by
    rcases hx with h | h
    · have : ¬ 0x400 ≤ a % 0x1000 := by omega
      simp only [this, decide_false, Bool.false_and]
    · simp only [h, Bool.not_true, Bool.and_false]
  simp only [State.plainWrite, hs, roleAt_noteWrite, mayWrite_noteWrite, expertAt_noteWrite, locked_noteWrite, hm, hl, h3,
    Bool.false_eq_true, if_false, Bool.not_true, Bool.and_false]

/-! A store (R5, R42) -/

theorem lw_eq (a : Nat) : lw a = a ∨ lw a = a + 0x20000000 := by
  unfold lw; split
  · exact .inr rfl
  · exact .inl rfl

theorem tRewrite_other (h : ¬ (0x019 ≤ a / 0x1000 ∧ a / 0x1000 ≤ 0x01B)) : s.tRewrite a v = s := by
  unfold State.tRewrite
  rw [if_neg]
  simp only [Bool.and_eq_true, decide_eq_true_eq]
  omega

/-- With no low half staged, a store sets the register and its last-written copy. -/
theorem store_single (hl : s.locked a = false) (ht : ¬ (0x019 ≤ a / 0x1000 ∧ a / 0x1000 ≤ 0x01B)) (hn : s.stagedFor m a = none) :
    s.store m a r v = (s.wr a (wrBits false r (s.rd a) v)).wr (lw a) (wrBits false r (s.rd a) v) := by
  simp only [State.store, hl, Bool.false_eq_true, if_false, tRewrite_other ht, hn]

/-- With a low half staged, a store sets both halves in the same step. -/
theorem store_wide {w : Word} {q : RegSpec} (hl : s.locked a = false) (ht : ¬ (0x019 ≤ a / 0x1000 ∧ a / 0x1000 ≤ 0x01B))
    (hn : s.stagedFor m a = some w) (hq : regSpecAt (a - 4) = some q) (ha : 4 ≤ a) :
    let low := wrBits false q (s.rd (a - 4)) w
    let new := wrBits false r (s.rd a) v
    s.store m a r v = (((((s.wr (a - 4) low).wr (lw (a - 4)) low).modMaster m fun y => { y with staged := none }).wr a new).wr (lw a) new) := by
  have h1 : a ≠ a - 4 := by omega
  have h2 : a ≠ lw (a - 4) := by rcases lw_eq (a - 4) with h | h <;> omega
  simp only [State.store, hl, Bool.false_eq_true, if_false, tRewrite_other ht, hn, hq, modMaster_rd, rd_wr_ne _ h1, rd_wr_ne _ h2]

theorem rd_wr_lw (u : State) (new : Word) : ((u.wr a new).wr (lw a) new).rd a = new := by
  rw [rd_wr]; split
  · rfl
  · exact rd_wr_same ..

end Sys2Proof.Proofs
end

section
/-! PROOFS. The outcomes of a plain write as a statement asks for them, PG_CTRL, and the MSI-X table (R24, R31, R32, R43). -/

namespace Sys2Proof.Proofs

open Sys2Proof Sys2Proof.Machine Sys2Proof.Laws

variable {s : State} {m : Master} {a : Nat} {r : RegSpec} {v : Word}

/-! The outcomes of a plain write, as the statement asks for them -/

theorem noteWrite_out : (s.noteWrite m a).host.out = s.host.out := by
  have h := congrArg HostIf.out (noteWrite_host (s := s) (m := m) (a := a))
  exact h

/-- Registers of a page from 0x040 on are none of its PM_STAT. -/
theorem rd_noteWrite_block {x : Nat} (h : 0x40 ≤ x % 0x1000) : (s.noteWrite m a).rd x = s.rd x := rd_noteWrite (by omega)

theorem writeDenied_noteWrite : WriteDenied s ((s.noteWrite m a).denied m a) m a where
  keeps := Keeps.denied (Keeps.noteWrite Keeps.rfl' rfl rfl rfl) rfl rfl
  raised := denied_held
  addr := denied_addr
  master := denied_master
  host := by rw [denied_keeps.host rfl]; exact noteWrite_host
  cfg := by rw [denied_keeps.cfg rfl, noteWrite_cfg]; rfl

/-- A write that completes keeps all but registers, host interface and session times. -/
theorem noteWrite_wr_keeps (b c : Nat) (x y : Word) : Keeps (only [.regs, .host, .cfg]) s (((s.noteWrite m a).wr b x).wr c y) :=
  Keeps.wr (Keeps.wr noteWrite_keeps rfl) rfl

/-- The store of a register that no low half was staged for (R5). -/
theorem noteWrite_store_single (hl : s.locked a = false) (ht : ¬ (0x019 ≤ a / 0x1000 ∧ a / 0x1000 ≤ 0x01B))
    (hn : s.stagedFor m a = none) (ho : 0x40 ≤ a % 0x1000) :
    (s.noteWrite m a).store m a r v =
      ((s.noteWrite m a).wr a (wrBits false r (s.rd a) v)).wr (lw a) (wrBits false r (s.rd a) v) := by
  rw [store_single (by rw [locked_noteWrite, hl]) ht (by rw [stagedFor_noteWrite, hn]), rd_noteWrite_block ho]

/-- The store of a high half with the low half staged for it (R42). -/
theorem noteWrite_store_wide {w : Word} {q : RegSpec} (hl : s.locked a = false)
    (ht : ¬ (0x019 ≤ a / 0x1000 ∧ a / 0x1000 ≤ 0x01B)) (hn : s.stagedFor m a = some w) (hq : regSpecAt (a - 4) = some q)
    (ho : 0x44 ≤ a % 0x1000) :
    let t := (s.noteWrite m a).store m a r v
    Keeps (only [.regs, .host, .cfg]) s t ∧ t.rd a = wrBits false r (s.rd a) v ∧
      t.rd (a - 4) = wrBits false q (s.rd (a - 4)) w ∧ (t.master m).staged = none := by
  have h1 : (s.noteWrite m a).rd a = s.rd a := rd_noteWrite_block (by omega)
  have h2 : (s.noteWrite m a).rd (a - 4) = s.rd (a - 4) := rd_noteWrite_block (by omega)
  rw [store_wide (by rw [locked_noteWrite, hl]) ht (by rw [stagedFor_noteWrite, hn]) hq (by omega), h1, h2]
  have h3 : a - 4 ≠ a := by omega
  have h4 : a - 4 ≠ lw a := by rcases lw_eq a with h | h <;> omega
  refine ⟨?_, rd_wr_lw .., ?_, ?_⟩
  · exact Keeps.wr (Keeps.wr (Keeps.modMaster (noteWrite_wr_keeps ..) rfl) rfl) rfl
  · rw [rd_wr_ne _ h4, rd_wr_ne _ h3, modMaster_rd, rd_wr_lw]
  · exact congrArg MasterSt.staged (master_modMaster _)

/-! PG_CTRL (R31, R32, R35) -/

section PageControl

variable {pg : Nat} {x : State}

theorem ctrl_ne {b : Nat} (h : b % 0x1000 ≠ 0xC) : rPg_PG_CTRL pg ≠ b :=
  fun e => h (by rw [← e, rPg_PG_CTRL, page]; omega)

/-- No denial touches a page's control register. -/
theorem bit_denied_ctrl {i : Nat} : (x.denied m a).bit (rPg_PG_CTRL pg) i = x.bit (rPg_PG_CTRL pg) i := by
  rw [State.bit, rd_denied (ctrl_ne (by decide)) (ctrl_ne (by decide)) (ctrl_ne (by decide)), State.bit]

theorem bit_expertDenied_ctrl {i : Nat} : (x.expertDenied m a).bit (rPg_PG_CTRL pg) i = x.bit (rPg_PG_CTRL pg) i := by
  rw [State.bit, rd_expertDenied (ctrl_ne (by decide)) (ctrl_ne (by decide)) (ctrl_ne (by decide)), State.bit]

theorem bit_setBit_ne {b i j : Nat} {y : Bool} (h : j < i ∨ i < j) : (x.setBit b i y).bit b j = x.bit b j :=
  bit_setFld_ne (.inr (by omega))

/-- The privilege that PG_CTRL asks for does not hang on the value written. -/
theorem roleAt_ctrl : s.roleAt m (rPg_PG_CTRL pg) v = s.roleAt m (rPg_PG_CTRL pg) 0 := by
  have h : rPg_PG_CTRL pg ≠ rCfg_FRC_SEL := ctrl_ne (by decide)
  simp only [State.roleAt, h, if_false]

/-- An admitted write of PG_CTRL applies EN, EXPERT and LOCK_REQ in this order. -/
theorem pgCtrlAt_admitted (hp : (pageBlock pg).isSome = true)
    (h : Admitted s m (rPg_PG_CTRL pg) (s.roleAt m (rPg_PG_CTRL pg) 0)) :
    s.pgCtrlAt m pg v =
      (((s.noteWrite m (rPg_PG_CTRL pg)).pgEn m pg (v.getLsbD 0)).pgExpert m pg (v.getLsbD 1)).when (v.getLsbD 2)
        fun y => y.pgLock pg := by
  obtain ⟨hs, hm⟩ := h
  simp only [State.pgCtrlAt, hp, if_true, State.pgCtrl, State.cmdWrite, hs, Bool.false_eq_true, if_false, roleAt_noteWrite,
    roleAt_ctrl, mayWrite_noteWrite, hm]

/-- EN, EXPERT and LOCK_REQ of the word a command on PG_CTRL writes. -/
theorem ctrlWord_bits (en ex : Bool) : (BitVec.ofNat 32 (b2n en + 2 * b2n ex)).getLsbD 0 = en ∧
    (BitVec.ofNat 32 (b2n en + 2 * b2n ex)).getLsbD 1 = ex ∧ (BitVec.ofNat 32 (b2n en + 2 * b2n ex)).getLsbD 2 = false := by
  cases en <;> cases ex <;> decide

theorem ctrlWord_lock_bits (en ex : Bool) : (BitVec.ofNat 32 (b2n en + 2 * b2n ex + 4)).getLsbD 0 = en ∧
    (BitVec.ofNat 32 (b2n en + 2 * b2n ex + 4)).getLsbD 1 = ex ∧
    (BitVec.ofNat 32 (b2n en + 2 * b2n ex + 4)).getLsbD 2 = true := by
  cases en <;> cases ex <;> decide

/-- What R32 ignores and what a locked page refuses is denied. -/
theorem pgEn_refused {en : Bool} (h : (en = false ∧ x.cfg.used.contains pg = true) ∨
    (x.locked (rPg_PG_CTRL pg) = true ∧ en ≠ x.bit (rPg_PG_CTRL pg) 0)) : x.pgEn m pg en = x.denied m (rPg_PG_CTRL pg) := by
  simp only [State.pgEn]
  split
  · rfl
  · next hu =>
    rcases h with ⟨rfl, h⟩ | ⟨h1, h2⟩
    · exact absurd (by simp only [h, Bool.not_false, Bool.and_true]) hu
    · rw [if_neg h2, if_pos h1]

/-- Every other write of EN gives it its value, and reports nothing. -/
theorem pgEn_taken {en : Bool} (h : ¬ ((en = false ∧ x.cfg.used.contains pg = true) ∨
    (x.locked (rPg_PG_CTRL pg) = true ∧ en ≠ x.bit (rPg_PG_CTRL pg) 0))) :
    (x.pgEn m pg en).bit (rPg_PG_CTRL pg) 0 = en ∧ (x.pgEn m pg en).flt = x.flt := by
  obtain ⟨h1, h2⟩ := not_or.mp h
  have hu : ¬ (!en && x.cfg.used.contains pg) = true := by simpa only [Bool.and_eq_true, Bool.not_eq_true'] using h1
  simp only [State.pgEn, if_neg hu]
  split
  · next e => exact ⟨e.symm, rfl⟩
  · next e =>
    rw [if_neg fun hl => h2 ⟨hl, e⟩]
    exact ⟨bit_setBit_same (by omega), rfl⟩

/-- A write of EN leaves EXPERT alone. -/
theorem pgEn_bit_expert {en : Bool} : (x.pgEn m pg en).bit (rPg_PG_CTRL pg) 1 = x.bit (rPg_PG_CTRL pg) 1 := by
  simp only [State.pgEn]
  repeat' split
  · exact bit_denied_ctrl
  · rfl
  · exact bit_denied_ctrl
  · exact bit_setBit_ne (by omega)

/-- EN written with its own value: the register keeps it. -/
theorem pgEn_same_bit {en : Bool} (h : en = x.bit (rPg_PG_CTRL pg) 0) :
    (x.pgEn m pg en).bit (rPg_PG_CTRL pg) 0 = x.bit (rPg_PG_CTRL pg) 0 := by
  simp only [State.pgEn, if_pos h]
  split
  · exact bit_denied_ctrl
  · rfl

theorem pgEn_same_true (h : x.bit (rPg_PG_CTRL pg) 0 = true) : x.pgEn m pg true = x := by
  simp only [State.pgEn, Bool.not_true, Bool.false_and, Bool.false_eq_true, if_false, h, if_true]

/-- EXPERT set without expert privilege is denied. -/
theorem pgExpert_refused {ex : Bool} (h : ex = true ∧ x.bit (rPg_PG_CTRL pg) 1 = false ∧ x.holdsExpert m = false) :
    x.pgExpert m pg ex = x.expertDenied m (rPg_PG_CTRL pg) := by
  obtain ⟨h1, h2, h3⟩ := h
  simp only [State.pgExpert, h1, h2, h3, Bool.not_false, Bool.and_true, if_true]

theorem pgExpert_taken {ex : Bool} (h : ¬ (ex = true ∧ x.bit (rPg_PG_CTRL pg) 1 = false ∧ x.holdsExpert m = false)) :
    x.pgExpert m pg ex = x.setBit (rPg_PG_CTRL pg) 1 ex := by
  rw [State.pgExpert, if_neg]
  simpa only [Bool.and_eq_true, Bool.not_eq_true', and_assoc] using h

/-- EXPERT written with its own value is never denied. -/
theorem pgExpert_same {ex : Bool} (h : x.bit (rPg_PG_CTRL pg) 1 = ex) :
    x.pgExpert m pg ex = x.setBit (rPg_PG_CTRL pg) 1 ex :=
  pgExpert_taken fun ⟨h1, h2, _⟩ => by rw [h, h1] at h2; cases h2

theorem pgLock_bits : (x.pgLock pg).bit (rPg_PG_STAT pg) 1 = true ∧ (x.pgLock pg).bit (rPg_PG_CTRL pg) 2 = true ∧
    ∀ i < 2, (x.pgLock pg).bit (rPg_PG_CTRL pg) i = x.bit (rPg_PG_CTRL pg) i := by
  have h : rPg_PG_CTRL pg ≠ rPg_PG_STAT pg := by simp only [rPg_PG_CTRL, rPg_PG_STAT]; omega
  refine ⟨bit_setBit_same (by omega), ?_, fun i hi => ?_⟩
  · exact (bit_setFld_ne (.inl h)).trans (bit_setBit_same (by omega))
  · exact (bit_setFld_ne (.inl h)).trans (bit_setBit_ne (.inl hi))

end PageControl

/-! The MSI-X table of BAR4 (R24, R43) -/

theorem bar4Write_data (n : Fin 64) (x : Word) : s.bar4Write (16 * n.val + 8) x =
    s.modHost fun h => { h with vdata := Tab.set (fun _ => 0) h.vdata n.val x } := by
  have h1 : ¬ 0x400 ≤ 16 * n.val + 8 := by omega
  have h2 : (16 * n.val + 8) % 16 = 8 := by omega
  have h3 : (16 * n.val + 8) / 16 = n.val := by omega
  simp only [State.bar4Write, if_neg h1, h2, h3]

/-- A vector that is masked sends nothing. -/
theorem vecMask_true (v : Nat) :
    s.vecMask v true = s.modHost fun h => { h with vmask := Tab.set (fun _ => true) h.vmask v true } := by
  simp only [State.vecMask, State.vecFlush, modHost_host, tab_get_set_same, Bool.not_true, Bool.and_false, Bool.false_and,
    Bool.false_eq_true, if_false]

theorem bar4Write_mask (n : Fin 64) {x : Word} (hx : x.getLsbD 0 = true) : s.bar4Write (16 * n.val + 12) x =
    s.modHost fun h => { h with vmask := Tab.set (fun _ => true) h.vmask n.val true } := by
  have h1 : ¬ 0x400 ≤ 16 * n.val + 12 := by omega
  have h2 : (16 * n.val + 12) % 16 = 12 := by omega
  have h3 : (16 * n.val + 12) / 16 = n.val := by omega
  simp only [State.bar4Write, if_neg h1, h2, h3, hx, vecMask_true]

end Sys2Proof.Proofs
end

section
/-! PROOFS. The rows that write a register, and those of PG_CTRL. -/

namespace Sys2Proof.Proofs

open Sys2Proof Sys2Proof.Machine Sys2Proof.Laws

variable {s : State} {m : Master}

/-- The three rows of a 32-bit write have one effect: a write on the bus. -/
theorem exec_write_rows {i : BitVec 26} {v : Word} {env : WriteEnv} {c : Instr}
    (h : c = .registerWrite m ⟨.bar0, i⟩ v none env ∨ c = .wideLowWrite m i v env ∨ c = .wideHighWrite m i v env) :
    exec c s = .next (s.busWrite m (4 * i.toNat) v env) := by
  rcases h with rfl | rfl | rfl <;> rfl

/-- PG_CTRL.EN: ignored on a page in use, refused on a locked one, else it takes its value. -/
theorem pgEnWrite_effect {pg : Fin 448} (hp : (pageBlock pg.val).isSome = true)
    (h : Admitted s m (rPg_PG_CTRL pg.val) (s.roleAt m (rPg_PG_CTRL pg.val) 0)) (en : Bool) :
    let a := rPg_PG_CTRL pg.val
    let no := (en = false ∧ s.cfg.used.contains pg.val = true) ∨ (s.locked a = true ∧ en ≠ s.bit a 0)
    ∃ t, exec (.pgEnWrite m pg en) s = .next t ∧ Keeps (only [.regs, .host, .flt, .cfg]) s t ∧
      (no → t.bit a 0 = s.bit a 0 ∧ (t.det 949).held = true) ∧ (¬ no → t.bit a 0 = en ∧ t.flt = s.flt) ∧ t.bit a 1 = s.bit a 1 := by
  intro a no
  let u := s.noteWrite m a
  obtain ⟨w0, w1, w2⟩ := ctrlWord_bits en (s.bit a 1)
  have hu (i : Nat) : u.bit a i = s.bit a i := bit_noteWrite (ctrl_mod _)
  have hno : no ↔ (en = false ∧ u.cfg.used.contains pg.val = true) ∨ (u.locked a = true ∧ en ≠ u.bit a 0) := by
    rw [hu, noteWrite_cfg, locked_noteWrite]; rfl
  have h1 : (u.pgEn m pg.val en).bit a 1 = s.bit a 1 := pgEn_bit_expert.trans (hu 1)
  have e : s.pgCtrlAt m pg.val (BitVec.ofNat 32 (b2n en + 2 * b2n (s.bit a 1))) = (u.pgEn m pg.val en).setBit a 1 (s.bit a 1) := by
    rw [pgCtrlAt_admitted hp h, w0, w1, w2, pgExpert_same h1]; rfl
  have h0 : ((u.pgEn m pg.val en).setBit a 1 (s.bit a 1)).bit a 0 = (u.pgEn m pg.val en).bit a 0 := bit_setBit_ne (by omega)
  refine ⟨_, congrArg Host.Outcome.next e, ?_, fun hn => ?_, fun hn => ?_, bit_setBit_same (by omega)⟩
  · exact Keeps.setBit (Keeps.pgEn (Keeps.noteWrite Keeps.rfl' rfl rfl rfl) rfl rfl) rfl
  · rw [h0, pgEn_refused (hno.mp hn)]
    exact ⟨bit_denied_ctrl.trans (hu 0), denied_held⟩
  · obtain ⟨g1, g2⟩ := pgEn_taken (m := m) (mt hno.mpr hn)
    exact ⟨h0.trans g1, g2.trans noteWrite_flt⟩

/-- PG_CTRL.EXPERT of an enabled page: set only with expert privilege. -/
theorem pgExpertWrite_effect {pg : Fin 448} (hp : (pageBlock pg.val).isSome = true)
    (h : Admitted s m (rPg_PG_CTRL pg.val) (s.roleAt m (rPg_PG_CTRL pg.val) 0)) (hen : s.bit (rPg_PG_CTRL pg.val) 0 = true) (ex : Bool) :
    let a := rPg_PG_CTRL pg.val
    let no := ex = true ∧ s.bit a 1 = false ∧ s.holdsExpert m = false
    ∃ t, exec (.pgExpertWrite m pg ex) s = .next t ∧ Keeps (only [.regs, .host, .flt, .cfg]) s t ∧
      (no → t.bit a 1 = false ∧ (t.det 944).held = true) ∧ (¬ no → t.bit a 1 = ex ∧ t.flt = s.flt) ∧ t.bit a 0 = true := by
  intro a no
  let u := s.noteWrite m a
  obtain ⟨w0, w1, w2⟩ := ctrlWord_bits (s.bit a 0) ex
  have hu (i : Nat) : u.bit a i = s.bit a i := bit_noteWrite (ctrl_mod _)
  have hno : no ↔ ex = true ∧ u.bit a 1 = false ∧ u.holdsExpert m = false := by rw [hu, holdsExpert_noteWrite]
  have e : s.pgCtrlAt m pg.val (BitVec.ofNat 32 (b2n (s.bit a 0) + 2 * b2n ex)) = u.pgExpert m pg.val ex := by
    rw [pgCtrlAt_admitted hp h, w0, w1, w2, hen, pgEn_same_true ((hu 0).trans hen)]; rfl
  refine ⟨_, congrArg Host.Outcome.next e, ?_, fun hn => ?_, fun hn => ?_, ?_⟩
  · exact Keeps.pgExpert (Keeps.noteWrite Keeps.rfl' rfl rfl rfl) rfl rfl
  · rw [pgExpert_refused (hno.mp hn)]
    exact ⟨bit_expertDenied_ctrl.trans ((hu 1).trans hn.2.1), expertDenied_held⟩
  · rw [pgExpert_taken (mt hno.mpr hn)]
    exact ⟨bit_setBit_same (by omega), noteWrite_flt⟩
  · by_cases hn : no
    · rw [pgExpert_refused (hno.mp hn)]
      exact bit_expertDenied_ctrl.trans ((hu 0).trans hen)
    · rw [pgExpert_taken (mt hno.mpr hn)]
      exact (bit_setBit_ne (by omega)).trans ((hu 0).trans hen)

/-- LOCK_REQ locks the page and leaves EN and EXPERT as they are. -/
theorem lockReq_effect {pg : Fin 448} (hp : (pageBlock pg.val).isSome = true)
    (h : Admitted s m (rPg_PG_CTRL pg.val) (s.roleAt m (rPg_PG_CTRL pg.val) 0)) :
    let a := rPg_PG_CTRL pg.val
    ∃ t, exec (.lockReq m pg) s = .next t ∧ Keeps (only [.regs, .host, .flt, .cfg]) s t ∧ t.bit (rPg_PG_STAT pg.val) 1 = true ∧
      t.bit a 2 = true ∧ t.bit a 0 = s.bit a 0 ∧ t.bit a 1 = s.bit a 1 := by
  intro a
  let u := s.noteWrite m a
  let w := (u.pgEn m pg.val (s.bit a 0)).setBit a 1 (s.bit a 1)
  obtain ⟨w0, w1, w2⟩ := ctrlWord_lock_bits (s.bit a 0) (s.bit a 1)
  have hu (i : Nat) : u.bit a i = s.bit a i := bit_noteWrite (ctrl_mod _)
  have h1 : (u.pgEn m pg.val (s.bit a 0)).bit a 1 = s.bit a 1 := pgEn_bit_expert.trans (hu 1)
  have e : s.pgCtrlAt m pg.val (BitVec.ofNat 32 (b2n (s.bit a 0) + 2 * b2n (s.bit a 1) + 4)) = w.pgLock pg.val := by
    rw [pgCtrlAt_admitted hp h, w0, w1, w2, pgExpert_same h1]; rfl
  have g0 : w.bit a 0 = s.bit a 0 := (bit_setBit_ne (by omega)).trans ((pgEn_same_bit (hu 0).symm).trans (hu 0))
  have g1 : w.bit a 1 = s.bit a 1 := bit_setBit_same (by omega)
  obtain ⟨l1, l2, l3⟩ := pgLock_bits (x := w) (pg := pg.val)
  refine ⟨_, congrArg Host.Outcome.next e, ?_, l1, l2, (l3 0 (by omega)).trans g0, (l3 1 (by omega)).trans g1⟩
  exact Keeps.pgLock (Keeps.setBit (Keeps.pgEn (Keeps.noteWrite Keeps.rfl' rfl rfl rfl) rfl rfl) rfl) rfl

end Sys2Proof.Proofs
end

section
/-! PROOFS. The statement on register writes. -/

namespace Sys2Proof.Proofs

open Sys2Proof Sys2Proof.Machine Sys2Proof.Laws

/-- Settles O51: every clause is one of the outcomes of a plain write, of PG_CTRL's three fields, or of an MSI-X table entry. -/
theorem registerWrites : Obligations.RegisterWrites := by
  intro s m
  refine ⟨?_, fun pg hp h => ⟨pgEnWrite_effect hp h, pgExpertWrite_effect hp h, lockReq_effect hp h⟩, fun _ _ _ _ _ => rfl, ?_, ?_⟩
  · intro i v env b k r c hc a o expertOk hp hr hw ho hb hs hl ht
    have he : exec c s = .next (s.plainWrite m a r v) := by rw [exec_write_rows hc, busWrite_plain hp hr hw ho hb]
    have hrd : (s.noteWrite m a).rd a = s.rd a := rd_noteWrite_block ho
    refine ⟨fun hm => ?denied, fun hm hx => ?expertDenied, fun hm hx => ?admitted⟩
    case denied =>
      rw [plainWrite_denied hs hm] at he
      exact ⟨_, he, writeDenied_noteWrite, fun h1 h2 h3 => (rd_denied h1 h2 h3).trans hrd⟩
    case expertDenied =>
      rw [plainWrite_expertDenied hs hm hx] at he
      exact ⟨_, he, Keeps.expertDenied (Keeps.noteWrite Keeps.rfl' rfl rfl rfl) rfl rfl, expertDenied_held, expertDenied_addr,
        fun h1 h2 h3 => (rd_expertDenied h1 h2 h3).trans hrd⟩
    case admitted =>
      rw [plainWrite_admitted hs hm hx hl] at he
      refine ⟨fun hrl hrw => ?staged, fun hrl hrw => ?readOnly, fun hrl hn => ?single, fun w q hrl hn hq ho' => ?wide⟩
      case staged =>
        rw [if_pos hrl, if_neg hrw] at he
        exact ⟨_, he, Keeps.modMaster noteWrite_keeps rfl, hrd, congrArg MasterSt.staged (master_modMaster _)⟩
      case readOnly =>
        rw [if_pos hrl, if_pos hrw] at he
        exact ⟨_, he, noteWrite_keeps, hrd⟩
      case single =>
        rw [if_neg (Bool.eq_false_iff.mp hrl), noteWrite_store_single hl ht hn ho] at he
        exact ⟨_, he, noteWrite_wr_keeps .., rd_wr_lw .., noteWrite_out, noteWrite_staged hn, fun x h1 h2 h3 =>
          (rd_wr_ne _ h2).trans ((rd_wr_ne _ h1).trans (rd_noteWrite_of_ne h3))⟩
      case wide =>
        rw [if_neg (Bool.eq_false_iff.mp hrl)] at he
        exact ⟨_, he, noteWrite_store_wide hl ht hn hq ho'⟩
  · intro n i v env h
    refine ⟨_, congrArg Host.Outcome.next ((congrArg (s.bar4Write · v) h).trans (bar4Write_data n v)), ?_, rfl, fun k => ?_⟩
    · exact Keeps.modHost Keeps.rfl' rfl
    · simp only [modHost_host, tab_get_set]
  · intro n i v env h hv
    refine ⟨_, congrArg Host.Outcome.next ((congrArg (s.bar4Write · v) h).trans (bar4Write_mask n hv)), ?_, rfl, fun k => ?_⟩
    · exact Keeps.modHost Keeps.rfl' rfl
    · simp only [modHost_host, tab_get_set]

end Sys2Proof.Proofs
end

section
/-! PROOFS. The statement on register reads fails: an 8-byte read at DBG_SEL also reads DBG_DATA_LO, which stands at the next word (R190, R194). -/

namespace Sys2Proof.Proofs

open Sys2Proof Sys2Proof.Machine Sys2Proof.Laws

/-- After reset, with PAIR_0 in replay debug (R190). -/
def replayDebug : State := State.reset.setBit (rPair_DBG_STAT 0) 2 true

/-- The 8-byte read at DBG_SEL of PAIR_0 reads DBG_DATA_LO as its high half: the debugger's register read enters the replay queue. -/
theorem wideRead_dbgSel_recorded :
    (replayDebug.pair 0).replay = [] ∧ ((replayDebug.readOut .pcie (rPair_DBG_SEL 0) true).pair 0).replay = [.regRead] := by
  decide +kernel

/-- Refutes O52: the clause on 8-byte reads excludes DBG_DATA_LO at the lower word alone. With PAIR_0 in replay debug an 8-byte read at
DBG_SEL, one word below it, is recorded in the replay queue (R190), so more than registers and host interface changes. -/
theorem not_registerReads : ¬ Obligations.RegisterReads := by
  intro h
  obtain ⟨-, wide, -⟩ := h replayDebug .pcie
  have ha : 4 * (BitVec.ofNat 26 (rPair_DBG_SEL 0 / 4)).toNat = rPair_DBG_SEL 0 := by decide
  obtain ⟨t, ht, keeps, -⟩ := wide (BitVec.ofNat 26 (rPair_DBG_SEL 0 / 4)) ⟨0x418, 1, 0x4, 0x0, 0x13F, 0x0, 0x0, 0x0, false, false, false⟩
    ⟨0x41C, 1, 0x4, 0x0, 0xFFFFFFFF, 0x0, 0x0, 0x0, false, true, false⟩ _ (.inr rfl)
    (by decide +kernel) (by decide +kernel) (by decide +kernel) rfl rfl (by decide +kernel) (by decide +kernel) (by decide +kernel)
  have he : t = replayDebug.readOut .pcie (rPair_DBG_SEL 0) true := by
    rw [← ha]; exact (Host.Outcome.next.inj ht).symm
  obtain ⟨before, after⟩ := wideRead_dbgSel_recorded
  have kept : (t.pair 0).replay = (replayDebug.pair 0).replay := by rw [State.pair, keeps.eng rfl, State.pair]
  rw [he, after, before] at kept
  cases kept

end Sys2Proof.Proofs
end
